-- ==== Sys2Proof/Word.lean ====
section
/-! DEFINITION. The word types of the device (00 R4, R12; 06 R131; 17 R440). -/

namespace Sys2Proof

/-- One byte. -/
abbrev Byte := BitVec 8
/-- 16 bits. -/
abbrev W16 := BitVec 16
/-- 32 bits. -/
abbrev W32 := BitVec 32
/-- 64 bits: a register (00, Registers and access codes). -/
abbrev W64 := BitVec 64
/-- A Weighbridge ticket (R131): `pc_low` in [63:48], `seq` in [47:0]. -/
abbrev Ticket := BitVec 64
/-- A node address (R440): domain in [15:10], member in [9:0]. -/
abbrev Node := BitVec 16

end Sys2Proof
end

