-- ==== Sys2Proof/Machine/Bytes.lean ====
section
/-! DEFINITION. Byte order, fields of byte strings, saturating counts (00 R4; R130 and its like). -/

namespace Sys2Proof.Machine

/-- The number that bytes spell, lowest address first (R4). -/
def leNat : List Byte → Nat
  | [] => 0
  | b :: bs => b.toNat + 256 * leNat bs

/-- The `n` bytes of `v`, lowest address first (R4). -/
def toLe : Nat → Nat → List Byte
  | 0, _ => []
  | n + 1, v => BitVec.ofNat 8 v :: toLe n (v / 256)

/-- The number big-endian bytes spell (signatures, R67). -/
def beNat (bs : List Byte) : Nat := leNat bs.reverse

/-- `len` bytes at byte `off`. -/
def slice (bs : List Byte) (off len : Nat) : List Byte := (bs.drop off).take len

/-- The little-endian field of `len` bytes at byte `off`; bytes past the end read zero. -/
def fieldAt (bs : List Byte) (off len : Nat) : Nat := leNat (slice bs off len)

/-- Whether every byte from `off`, `len` of them, is zero. -/
def zeroAt (bs : List Byte) (off len : Nat) : Bool := (slice bs off len).all (· == 0)

/-- Offset of the first nonzero byte among `len` bytes at `off`. -/
def firstNonzero (bs : List Byte) (off len : Nat) : Option Nat :=
  ((slice bs off len).findIdx? (· != 0)).map (· + off)

/-- Pad with zeros at the end to length `n`. -/
def padTo (n : Nat) (bs : List Byte) : List Byte := bs ++ List.replicate (n - bs.length) 0

/-- ceil(a ÷ b). -/
def ceilDiv (a b : Nat) : Nat := (a + b - 1) / b

/-- `a` rounded up to a multiple of `b`. -/
def roundUp (a b : Nat) : Nat := ceilDiv a b * b

/-- A count that saturates at its all-ones value (R130, R161 and the other RC registers). -/
def satAdd {w : Nat} (x : BitVec w) (n : Nat) : BitVec w :=
  if x.toNat + n < 2 ^ w then BitVec.ofNat w (x.toNat + n) else BitVec.allOnes w

/-- `satAdd` by one. -/
def satInc {w : Nat} (x : BitVec w) : BitVec w := satAdd x 1

/-- A number held in a field of `w` bits, saturating. -/
def satNat (w n : Nat) : BitVec w := if n < 2 ^ w then BitVec.ofNat w n else BitVec.allOnes w

/-- Put `v` at bit `lo` of a 64-bit register. -/
def atBit (lo : Nat) {w : Nat} (v : BitVec w) : W64 := (v.zeroExtend 64) <<< lo

/-- A one-bit flag at bit `lo` of a 64-bit register. -/
def flagAt (lo : Nat) (b : Bool) : W64 := if b then (1 : W64) <<< lo else 0

/-- Bits [lo + len - 1 : lo] of a number. -/
def bitsOf (v lo len : Nat) : Nat := v / 2 ^ lo % 2 ^ len

/-- Bits [lo + len - 1 : lo] of a register, as a number. -/
def regBits (v : W64) (lo len : Nat) : Nat := bitsOf v.toNat lo len

/-- Bit `i` of a register. -/
def regBit (v : W64) (i : Nat) : Bool := v.getLsbD i

/-- The lowest number from `lo`, of `fuel` tried, for which `p` holds. -/
def firstFrom (p : Nat → Bool) : Nat → Nat → Option Nat
  | 0, _ => none
  | fuel + 1, lo => if p lo then some lo else firstFrom p fuel (lo + 1)

/-- Replace, in a keyed list, the first entry whose key matches, or append one. -/
def upsert {α : Type} (same : α → Bool) (x : α) : List α → List α
  | [] => [x]
  | y :: ys => if same y then x :: ys else y :: upsert same x ys

/-- Change the entries that satisfy `p`. -/
def modifyWhere {α : Type} (p : α → Bool) (f : α → α) (xs : List α) : List α :=
  xs.map fun x => if p x then f x else x

/-- Insert into a list sorted by `le`, after its equals. -/
def insertBy {α : Type} (le : α → α → Bool) (x : α) : List α → List α
  | [] => [x]
  | y :: ys => if le y x then y :: insertBy le x ys else x :: y :: ys

/-- Stable insertion sort by `le`. -/
def sortBy {α : Type} (le : α → α → Bool) : List α → List α
  | [] => []
  | x :: xs => insertBy le x (sortBy le xs)

/-- Keep the first appearance of each element. -/
def dedup {α : Type} [BEq α] (xs : List α) : List α :=
  xs.foldl (fun acc x => if acc.contains x then acc else acc ++ [x]) []

end Sys2Proof.Machine
end

