-- ==== Sys2Proof/Machine/Float.lean ====
section
/-! DEFINITION. Number formats, exact dyadic values and the one rounding (07 R162 to R166, R171, R181, R182). -/

namespace Sys2Proof.Machine

/-- An exact dyadic value num × 2^exp. Every finite value of R164, every product and every sum of them is one. -/
structure Dy where
  num : Int
  exp : Int
  deriving DecidableEq, Repr

/-- 2^n of a natural power, as an integer. -/
def pow2 (n : Nat) : Int := (2 : Int) ^ n

/-- The numerator of `x` at the lower exponent `e` (e ≤ x.exp). -/
def dyAt (x : Dy) (e : Int) : Int := x.num * pow2 (x.exp - e).toNat

/-- Exact sum. -/
def dyAdd (x y : Dy) : Dy :=
  let e := min x.exp y.exp
  ⟨dyAt x e + dyAt y e, e⟩

/-- Exact product. -/
def dyMul (x y : Dy) : Dy := ⟨x.num * y.num, x.exp + y.exp⟩

/-- Exact negation. -/
def dyNeg (x : Dy) : Dy := ⟨-x.num, x.exp⟩

/-- The value 0. -/
def dyZero : Dy := ⟨0, 0⟩

/-- x × 2^k. -/
def dyScale (x : Dy) (k : Int) : Dy := ⟨x.num, x.exp + k⟩

/-- Exact sum of a list, from 0. -/
def dySum (xs : List Dy) : Dy := xs.foldl dyAdd dyZero

/-- x < y. -/
def dyLt (x y : Dy) : Bool :=
  let e := min x.exp y.exp
  decide (dyAt x e < dyAt y e)

/-- x ≤ y. -/
def dyLe (x y : Dy) : Bool := !dyLt y x

/-- floor(log2 |x|) of a nonzero value. -/
def dyLog2 (x : Dy) : Int := (Nat.log2 x.num.natAbs : Int) + x.exp

/-- floor(x ÷ 2^e) × 2^e: the floor toward minus infinity of R170 step 3. -/
def dyFloorTo (x : Dy) (e : Int) : Dy :=
  if e ≤ x.exp then x else ⟨Int.fdiv x.num (pow2 (e - x.exp).toNat), e⟩

/-- A decoded datum: a NaN, an infinity, or a finite value with its sign kept for zero. -/
inductive Fp where
  | nan
  | inf (neg : Bool)
  | fin (neg : Bool) (mag : Nat) (exp : Int)
  deriving DecidableEq, Repr

/-- The exact value of a finite datum (NaN and infinities have none; they answer 0). -/
def fpDy : Fp → Dy
  | .fin neg m e => ⟨if neg then -(m : Int) else m, e⟩
  | _ => dyZero

/-- A floating format of R164. -/
structure Fmt where
  expBits : Nat
  fracBits : Nat
  bias : Int
  /-- `FP8_E4M3` has no infinity and one NaN pattern (R164). -/
  hasInf : Bool
  deriving DecidableEq, Repr

def fmtE4M3 : Fmt := ⟨4, 3, 7, false⟩
def fmtE5M2 : Fmt := ⟨5, 2, 15, true⟩
def fmtBF16 : Fmt := ⟨8, 7, 127, true⟩
def fmtFP16 : Fmt := ⟨5, 10, 15, true⟩
def fmtFP32 : Fmt := ⟨8, 23, 127, true⟩

/-- Decode the bits of a floating format (R164, R165). -/
def fpDecode (f : Fmt) (b : Nat) : Fp :=
  let frac := bitsOf b 0 f.fracBits
  let ex := bitsOf b f.fracBits f.expBits
  let neg := b.testBit (f.fracBits + f.expBits)
  let top := 2 ^ f.expBits - 1
  if f.hasInf && ex == top then
    if frac == 0 then .inf neg else .nan
  else if !f.hasInf && ex == top && frac == 2 ^ f.fracBits - 1 then .nan
  else if ex == 0 then .fin neg frac (1 - f.bias - f.fracBits)
  else .fin neg (2 ^ f.fracBits + frac) ((ex : Int) - f.bias - f.fracBits)

/-- Round n ÷ 2^sh to the nearest integer, ties to even. -/
def rneShift (n sh : Nat) : Nat :=
  let q := n / 2 ^ sh
  let r := n % 2 ^ sh
  let half := 2 ^ sh / 2
  if sh = 0 then n
  else if r < half then q
  else if r > half then q + 1
  else if q % 2 = 0 then q else q + 1

/-- The magnitude |x| = m × 2^e rounded once onto the grid of `f` (R181): quotient and quantum exponent. -/
def roundMag (f : Fmt) (m : Nat) (e : Int) : Nat × Int :=
  if m = 0 then (0, 1 - f.bias - f.fracBits) else
  let lg : Int := (Nat.log2 m : Int) + e
  let q : Int := max lg (1 - f.bias) - f.fracBits
  if q ≤ e then (m * 2 ^ (e - q).toNat, q) else (rneShift m (q - e).toNat, q)

/-- The bits of sign and rounded magnitude n × 2^q, where they do not overflow. -/
def packMag (f : Fmt) (neg : Bool) (n : Nat) (q : Int) : Nat :=
  let s := if neg then 2 ^ (f.fracBits + f.expBits) else 0
  if n < 2 ^ f.fracBits then s + n
  else if n = 2 ^ (f.fracBits + 1) then s + (q + 1 + f.fracBits + f.bias).toNat * 2 ^ f.fracBits
  else s + (q + f.fracBits + f.bias).toNat * 2 ^ f.fracBits + (n - 2 ^ f.fracBits)

/-- The largest finite value of the format, as n × 2^q (R164). -/
def maxFinite (f : Fmt) : Dy :=
  if f.hasInf then ⟨2 ^ (f.fracBits + 1) - 1, (2 ^ f.expBits - 2 : Int) - f.bias - f.fracBits⟩
  else ⟨2 ^ (f.fracBits + 1) - 2, (2 ^ f.expBits - 1 : Int) - f.bias - f.fracBits⟩

/-- Bits of the largest finite value. -/
def maxFiniteBits (f : Fmt) (neg : Bool) : Nat :=
  let m := (2 ^ f.expBits - 1) * 2 ^ f.fracBits
  (if neg then 2 ^ (f.fracBits + f.expBits) else 0) + (if f.hasInf then m - 1 else m + 2 ^ f.fracBits - 2)

/-- Bits of infinity. -/
def infBits (f : Fmt) (neg : Bool) : Nat :=
  (if neg then 2 ^ (f.fracBits + f.expBits) else 0) + (2 ^ f.expBits - 1) * 2 ^ f.fracBits

/-- The canonical NaN of each format (R166). -/
def nanBits (f : Fmt) : Nat :=
  if f.hasInf then (2 ^ f.expBits - 1) * 2 ^ f.fracBits + 2 ^ (f.fracBits - 1) else 0x7F

/-- An FP32 word, decoded. -/
def f32 (b : W32) : Fp := fpDecode fmtFP32 b.toNat

/-- The canonical FP32 NaN (R166). -/
def f32Nan : W32 := 0x7FC00000#32

/-- FP32 infinity. -/
def f32Inf (neg : Bool) : W32 := if neg then 0xFF800000#32 else 0x7F800000#32

/-- FP32 zero of a sign. -/
def f32Zero (neg : Bool) : W32 := if neg then 0x80000000#32 else 0#32

/-- FP32 1.0. -/
def f32One : W32 := 0x3F800000#32

/-- RNE of an exact value to FP32 (R171); `negZero` is the sign a zero result takes when the exact value is 0. -/
def f32Round (negZero : Bool) (x : Dy) : W32 :=
  if x.num = 0 then f32Zero negZero else
  let neg := decide (x.num < 0)
  let (n, q) := roundMag fmtFP32 x.num.natAbs x.exp
  if dyLt (maxFinite fmtFP32) ⟨n, q⟩ then f32Inf neg
  else BitVec.ofNat 32 (packMag fmtFP32 neg n q)

/-- Sign bit of a datum (NaN answers false). -/
def fpNeg : Fp → Bool
  | .nan => false
  | .inf n => n
  | .fin n _ _ => n

/-- Whether a datum is a zero. -/
def fpIsZero : Fp → Bool
  | .fin _ m _ => m == 0
  | _ => false

/-- FP32 addition, IEEE 754 RNE (R206). -/
def f32Add (a b : W32) : W32 :=
  match f32 a, f32 b with
  | .nan, _ => f32Nan
  | _, .nan => f32Nan
  | .inf x, .inf y => if x == y then f32Inf x else f32Nan
  | .inf x, _ => f32Inf x
  | _, .inf y => f32Inf y
  | x, y => f32Round (fpNeg x && fpNeg y) (dyAdd (fpDy x) (fpDy y))

/-- Negation: the sign bit flips. -/
def f32Neg (a : W32) : W32 := if f32 a == .nan then f32Nan else a ^^^ 0x80000000#32

/-- FP32 subtraction. -/
def f32Sub (a b : W32) : W32 := f32Add a (f32Neg b)

/-- The product of two data, exact where finite. -/
def fpMul : Fp → Fp → Fp
  | .nan, _ => .nan
  | _, .nan => .nan
  | .inf x, .inf y => .inf (x != y)
  | .inf x, .fin y m _ => if m == 0 then .nan else .inf (x != y)
  | .fin x m _, .inf y => if m == 0 then .nan else .inf (x != y)
  | .fin x m e, .fin y n f => .fin (x != y) (m * n) (e + f)

/-- Round a datum to FP32. -/
def fpRound32 : Fp → W32
  | .nan => f32Nan
  | .inf n => f32Inf n
  | x => f32Round (fpNeg x) (fpDy x)

/-- FP32 multiplication. -/
def f32Mul (a b : W32) : W32 := fpRound32 (fpMul (f32 a) (f32 b))

/-- Fused multiply-add: x × y + z exactly, rounded once (09, Basic steps). -/
def f32Fma (x y z : W32) : W32 :=
  match fpMul (f32 x) (f32 y), f32 z with
  | .nan, _ => f32Nan
  | _, .nan => f32Nan
  | .inf p, .inf q => if p == q then f32Inf p else f32Nan
  | .inf p, _ => f32Inf p
  | _, .inf q => f32Inf q
  | p, q => f32Round (fpNeg p && fpNeg q) (dyAdd (fpDy p) (fpDy q))

/-- The quotient a ÷ b of positive naturals at exponent e, to 64 bits with a sticky bit below: rounding it once to
FP32 is rounding the exact quotient once. -/
def quotSticky (a b : Nat) (e : Int) : Nat × Int :=
  let s := 64 + Nat.log2 b
  let t := a * 2 ^ s / b
  (2 * t + (if a * 2 ^ s % b = 0 then 0 else 1), e - s - 1)

/-- FP32 division, IEEE 754 RNE. -/
def f32Div (a b : W32) : W32 :=
  match f32 a, f32 b with
  | .nan, _ => f32Nan
  | _, .nan => f32Nan
  | .inf _, .inf _ => f32Nan
  | .inf x, y => f32Inf (x != fpNeg y)
  | x, .inf y => f32Zero (fpNeg x != y)
  | .fin x m e, .fin y n f =>
    if n == 0 then (if m == 0 then f32Nan else f32Inf (x != y))
    else if m == 0 then f32Zero (x != y)
    else
      let (q, g) := quotSticky m n (e - f)
      f32Round (x != y) ⟨if x != y then -(q : Int) else q, g⟩

/-- An integer rounded once to FP32. -/
def f32OfInt (i : Int) : W32 := f32Round false ⟨i, 0⟩

/-- Whether an FP32 word is a NaN. -/
def f32IsNan (a : W32) : Bool := f32 a == .nan

/-- Whether an FP32 word is finite. -/
def f32IsFin (a : W32) : Bool :=
  match f32 a with
  | .fin .. => true
  | _ => false

/-- a < b for FP32 values; false with a NaN; −0 equals +0. -/
def f32Lt (a b : W32) : Bool :=
  match f32 a, f32 b with
  | .nan, _ => false
  | _, .nan => false
  | .inf x, .inf y => x && !y
  | .inf x, _ => x
  | _, .inf y => !y
  | x, y => dyLt (fpDy x) (fpDy y)

/-- a ≤ b for FP32 values; false with a NaN. -/
def f32Le (a b : W32) : Bool := !f32IsNan a && !f32IsNan b && !f32Lt b a

/-- Nearest integer of a dyadic value, ties to even. -/
def dyRne (x : Dy) : Int :=
  if 0 ≤ x.exp then x.num * pow2 x.exp.toNat else
  let n := rneShift x.num.natAbs (-x.exp).toNat
  if x.num < 0 then -(n : Int) else n

/-- floor of a dyadic value. -/
def dyFloor (x : Dy) : Int :=
  if 0 ≤ x.exp then x.num * pow2 x.exp.toNat else Int.fdiv x.num (pow2 (-x.exp).toNat)

/-- Widen a datum of a format exactly to FP32 (R165, 13 intro, R283). -/
def widen32 (f : Fmt) (b : Nat) : W32 := fpRound32 (fpDecode f b)

/-- What one output conversion counts (R181, R182). -/
structure ConvCount where
  sat : Nat := 0
  nan : Nat := 0
  deriving DecidableEq, Repr

/-- R181: a value converted to a floating format. -/
def convFloat (f : Fmt) : Fp → Nat × ConvCount
  | .nan => (nanBits f, { nan := 1 })
  | .inf neg => if f.hasInf then (infBits f neg, {}) else (maxFiniteBits f neg, { sat := 1 })
  | .fin neg m e =>
    let (n, q) := roundMag f m e
    if dyLt (maxFinite f) ⟨n, q⟩ then (maxFiniteBits f neg, { sat := 1 })
    else (packMag f neg n q, {})

/-- Clamp an integer to a range. -/
def clampInt (lo hi i : Int) : Int := if i < lo then lo else if hi < i then hi else i

/-- R182: a value converted to an integer format with the given range; the integer written. -/
def convInt (lo hi : Int) : Fp → Int × ConvCount
  | .nan => (0, { nan := 1 })
  | .inf neg => (if neg then lo else hi, { sat := 1 })
  | x =>
    let i := dyRne (fpDy x)
    (clampInt lo hi i, { sat := if lo ≤ i ∧ i ≤ hi then 0 else 1 })

/-- The floating format of a format code (R50); none for an integer format. 0xFF stands for FP32 (R211). -/
def fmtOfCode : Nat → Option Fmt
  | 4 => some fmtE4M3
  | 5 => some fmtE5M2
  | 6 => some fmtBF16
  | 7 => some fmtFP16
  | 255 => some fmtFP32
  | _ => none

/-- The range of an integer format code (R162): signed first, then its bounds. -/
def intRange : Nat → Option (Int × Int)
  | 0 => some (-128, 127)
  | 1 => some (0, 255)
  | 2 => some (-8, 7)
  | 3 => some (0, 15)
  | _ => none

/-- Bits of one element of a format code. -/
def fmtBits : Nat → Nat
  | 0 => 8
  | 1 => 8
  | 2 => 4
  | 3 => 4
  | 4 => 8
  | 5 => 8
  | 6 => 16
  | 7 => 16
  | _ => 32

/-- Decode one element of a format code (R162, R164). -/
def elemDecode (code b : Nat) : Fp :=
  match fmtOfCode code with
  | some f => fpDecode f b
  | none =>
    match code with
    | 0 => let i := (BitVec.ofNat 8 b).toInt; .fin (decide (i < 0)) i.natAbs 0
    | 1 => .fin false (b % 256) 0
    | 2 => let i := (BitVec.ofNat 4 b).toInt; .fin (decide (i < 0)) i.natAbs 0
    | _ => .fin false (b % 16) 0

/-- Convert a value to any format code of R50 (R181, R182): the element's bits and what is counted. -/
def elemConvertFp (code : Nat) (x : Fp) : Nat × ConvCount :=
  match fmtOfCode code, intRange code with
  | some f, _ => convFloat f x
  | none, some (lo, hi) =>
    let (i, c) := convInt lo hi x
    ((BitVec.ofInt (fmtBits code) i).toNat, c)
  | none, none => (0, {})

/-- Convert an FP32 value; code 0xFF writes FP32 itself. -/
def elemConvert (code : Nat) (v : W32) : Nat × ConvCount :=
  if code = 255 then (v.toNat, {}) else elemConvertFp code (f32 v)

/-- Sum of two conversion counts. -/
def ConvCount.add (a b : ConvCount) : ConvCount := ⟨a.sat + b.sat, a.nan + b.nan⟩

/-- Valid pairings of activation and weight formats (R167). -/
def pairingValid (act wt : Nat) : Bool :=
  (act ≤ 1 && wt ≤ 1) || ((act == 2 || act == 3) && (wt == 2 || wt == 3)) ||
  (act ≤ 1 && (wt == 2 || wt == 3)) || ((act == 4 || act == 5) && (wt == 4 || wt == 5)) ||
  ((act == 6 || act == 7) && 4 ≤ wt && wt ≤ 7)

/-- A positive normal FP32 value (R176). -/
def f32PosNormal (v : W32) : Bool :=
  decide (0x00800000 ≤ v.toNat) && decide (v.toNat ≤ 0x7F7FFFFF)

end Sys2Proof.Machine
end

