-- ==== Sys2Proof/Machine/Screen.lean ====
section
/-! DEFINITION. Screen: keys, selection, duplicates and merge (13 R316 to R330). -/

namespace Sys2Proof.Machine

/-- An entry of a selection: a score and a 64-bit payload. -/
structure Entry where
  score : W32
  payload : W64
  deriving DecidableEq, Repr

/-- The score with −0 taken as +0 (R316). -/
def plusZero (b : W32) : W32 := if b = 0x80000000#32 then 0 else b

/-- `ord` of a score (R316). -/
def scoreOrd (score : W32) : W32 :=
  let b := plusZero score
  if b &&& 0x80000000#32 = 0 then b ||| 0x80000000#32 else ~~~b

/-- The 96-bit composite key (R316). -/
def Entry.key (e : Entry) : Nat := (scoreOrd e.score).toNat * 2 ^ 64 + (~~~e.payload).toNat

/-- The sentinel (R319). -/
def sentinel : Entry := ⟨0xFF800000#32, 0xFFFFFFFFFFFFFFFF#64⟩

/-- Absent entries: any whose payload is all ones (R319). -/
def Entry.absent (e : Entry) : Bool := e.payload == 0xFFFFFFFFFFFFFFFF#64

/-- Shard and slot: bits [55:0] of a passage id (R323). -/
def slotKey (p : W64) : Nat := p.toNat % 2 ^ 56

/-- The generation of a passage id: bits [63:56] (R281). -/
def genOf (p : W64) : Nat := p.toNat / 2 ^ 56

/-- What one selection or merge counts (R317, R323, R324). -/
structure MergeCounts where
  nan : Nat := 0
  dup : Nat := 0
  superseded : Nat := 0
  /-- Payloads found in a lasting conflict, in order (R324). -/
  conflicts : List W64 := []
  deriving DecidableEq, Repr

/-- Sum of counts. -/
def MergeCounts.add (a b : MergeCounts) : MergeCounts :=
  ⟨a.nan + b.nan, a.dup + b.dup, a.superseded + b.superseded, a.conflicts ++ b.conflicts⟩

/-- Copies of one score value collapsed: the first, scoring +0 where they differ in the sign of zero (R323 row 2). -/
def collapse : List Entry → Option Entry
  | [] => none
  | e :: es => some (if es.any (fun x => x.score != e.score) then { e with score := plusZero e.score } else e)

/-- Row 2 of R323 on the copies of one slot: one copy per score value. -/
def oneScoreEach (es : List Entry) : List Entry :=
  (dedup (es.map fun e => scoreOrd e.score)).filterMap fun o => collapse (es.filter fun e => scoreOrd e.score == o)

/-- The entry of the highest key of a list. -/
def bestEntry (e : Entry) (es : List Entry) : Entry := es.foldl (fun a b => if a.key < b.key then b else a) e

/-- One group of copies resolved by R323 and R324. `gens` says whether row 1 applies (passage ids). -/
def resolveGroup (gens : Bool) (g : List Entry) : List Entry × MergeCounts :=
  let top := g.foldl (fun m e => max m (genOf e.payload)) 0
  let r1 := if gens then g.filter fun e => genOf e.payload == top else g
  let r2 := oneScoreEach r1
  let base : MergeCounts := { dup := r1.length - r2.length, superseded := g.length - r1.length }
  match r2 with
  | [] => ([], base)
  | [e] => ([e], base)
  | e :: es =>
    let b := bestEntry e es
    ([b], { base with conflicts := [b.payload] })

/-- The key under which copies are duplicates: the slot of a passage id, or the whole payload (R323). -/
def dupKey (gens : Bool) (e : Entry) : Nat := if gens then slotKey e.payload else e.payload.toNat

/-- The distinct duplicate keys of a list, in first-seen order. -/
def dupKeys (gens : Bool) (es : List Entry) : List Nat := dedup (es.map (dupKey gens))

/-- The valid entries of an input: absent entries and NaN scores are removed, NaNs counted (R317, R319). -/
def dropNan (es : List Entry) : List Entry × Nat :=
  let present := es.filter fun e => !e.absent
  let good := present.filter fun e => !f32IsNan e.score
  (good, present.length - good.length)

/-- Descending key order. -/
def keyDesc (es : List Entry) : List Entry := sortBy (fun a b => decide (b.key ≤ a.key)) es

/-- The best `k` entries of an input: every mode of R320 gives this list (R321, R322, R325). At most k entries, no
sentinels. -/
def selectBest (gens : Bool) (k : Nat) (es : List Entry) : List Entry × MergeCounts :=
  let d := dropNan es
  let groups := (dupKeys gens d.1).map fun i => resolveGroup gens (d.1.filter fun e => dupKey gens e == i)
  let counts := (groups.map (·.2)).foldl MergeCounts.add { nan := d.2 }
  ((keyDesc (groups.flatMap (·.1))).take k, counts)

/-- Whether a list is in descending key order (R330). -/
def inOrder : List Entry → Option W64
  | a :: b :: r => if a.key < b.key then some b.payload else inOrder (b :: r)
  | _ => none

/-- The merge of sorted lists (R329): the best k of all; a list out of order is a conflict (R330). -/
def mergeLists (gens : Bool) (k : Nat) (lists : List (List Entry)) : List Entry × MergeCounts :=
  let bad := lists.filterMap fun l => inOrder (l.filter fun e => !e.absent)
  let r := selectBest gens k lists.flatten
  (r.1, { r.2 with conflicts := bad ++ r.2.conflicts })

/-- R327, R328: a list padded with sentinels to k entries. -/
def padSentinels (k : Nat) (es : List Entry) : List Entry := es ++ List.replicate (k - es.length) sentinel

/-- The bytes of a list result (R328). -/
def entryBytes (e : Entry) : List Byte := toLe 8 e.payload.toNat ++ toLe 4 e.score.toNat ++ [0, 0, 0, 0]

/-- R328: exactly k entries. -/
def listResult (k : Nat) (es : List Entry) : List Byte := (padSentinels k es).flatMap entryBytes

/-- INDEX_MAX (R326): the lowest position of the highest score, none where no score is a number; NaNs dropped. -/
def indexMax (xs : List W32) : Option Nat × Nat :=
  let idx := xs.mapIdx fun i x => (i, x)
  let good := idx.filter fun p => !f32IsNan p.2
  let best := good.foldl (fun (a : Option (Nat × W32)) p =>
    match a with
    | none => some p
    | some b => if (scoreOrd b.2).toNat < (scoreOrd p.2).toNat then some p else a) none
  (best.map (·.1), idx.length - good.length)

end Sys2Proof.Machine
end

