-- ==== Sys2Proof/Config.lean ====
section
/-! DEFINITION. What the manual leaves open, as constants without a body (free values; logs 3, 7, 8, 9, 13, 31, 39, 40, 42). -/

namespace Sys2Proof

/-- R215: the bits of built-in function `code` (1 to 8) on an FP32 input that R213 does not fix. The same input
gives the same bits, so it is a function of its input. Free value (log 9). -/
opaque Config.builtin : Nat → W32 → W32

/-- What a basic step gives where R206 states no result (a NaN register, a tie of the two zeros, the exponent split
of a value that is not positive): step, which register, operands. Free value (log 9). -/
opaque Config.sfuOpen : Nat → Nat → W32 → W32 → W32

/-- Element `i` (FP32) of the embedding that encoder model `model`, with weights of digest `digest`, gives the
tokens. The manual gives no network structure. Where the model reads an embedding table, the gathered rows follow the
tokens, here and in the three functions below. Free value (log 8). -/
opaque Config.embedElem : Nat → Nat → List Nat → Nat → W32

/-- The FP32 score that cross-encoder `model` with weights of digest `digest` gives a pair's tokens (R338: it
depends on the pair's tokens, the model and the plan only). Free value (log 8). -/
opaque Config.pairScore : Nat → Nat → List Nat → W32

/-- FP32 logit of token `v` after generator `model` has read the tokens (R356). Free value (log 8). -/
opaque Config.logit : Nat → Nat → List Nat → Nat → W32

/-- FP32 key (`false`) or value (`true`) element of generator `model`, weights digest, tokens, at the place
[layer, token, head, dimension] (R348). Free value (log 8). -/
opaque Config.kvElem : Nat → Nat → List Nat → Bool → List Nat → W32

/-- SCRATCH pages that the visited set of a walk draws once it holds this many ids (R288, R384): the manual does not
say when it spills. Free value (log 31). -/
opaque Config.spillPages : Nat → Nat

/-- The (score, passage id) entries that a walk running when its request is masked holds in R (R311, R32): the manual
fixes no pace of a walk. Free value, draw by draw. -/
opaque Config.partialWalk : Nat → List (W32 × W64)

/-- The security block's random source (R522), draw by draw. Free value (log 13). -/
opaque Config.random : Nat → W64

/-- Whether an item of a power-fail flush passes its own check where the commit page is missing (R416), flush by flush,
item by item. Free value (log 39). -/
opaque Config.flushKept : Nat → Nat → Bool

/-- Byte `i` of a record copy whose read-back differed (R514), copy by copy: the manual does not say what such a copy
holds. Free value (log 42). -/
opaque Config.failedCopy : Nat → Nat → Byte

/-- How the loop of R537 changes the issue fraction at a step that no rule fixes, as 0 to 16 for −8/64 to +8/64. Free
value (log 40). -/
opaque Config.issueStep : Nat → Nat

/-- Whether Foreman ends its current plan-load step at the tick that begins at this time: the manual gives
bounds for the steps, not their lengths. Free value (log 3). -/
opaque Config.foremanReady : Nat → Bool

end Sys2Proof
end

