-- ==== Sys2Proof/Machine/Sfu.lean ====
section
/-! DEFINITION. The special function unit: basic steps, built-in functions, epilogue, row statistics (09). -/

namespace Sys2Proof.Machine

/-- One basic step of a micro-program (R206, R211). -/
structure SfuStep where
  opcode : Nat
  mode : Nat
  c0 : W32
  c1 : W32
  c2 : W32
  deriving DecidableEq, Repr

/-- A special-function program (R211). -/
structure SfuProg where
  segs : Nat
  degree : Nat
  outFormat : Nat
  flushT : W32
  atZero : W32
  atNegInf : W32
  atPosInf : W32
  negNan : Bool
  odd : Bool
  steps : List SfuStep
  coef : List W32
  deriving DecidableEq, Repr

/-- The five registers of a lane. -/
structure SfuRegs where
  a : W32
  y : W32
  n : Int
  i : Nat
  p : W32
  deriving DecidableEq, Repr

/-- The registers at the start of a program. -/
def sfuStart (a : W32) : SfuRegs := ⟨a, a, 0, 0, 0⟩

/-- A result or operand that R206 leaves open for max and min: a NaN, or two zeros of both signs. -/
def minMaxOpen (a b : W32) : Bool :=
  f32IsNan a || f32IsNan b || (fpIsZero (f32 a) && fpIsZero (f32 b) && a != b)

/-- max(x, c). -/
def f32Max (x c : W32) : W32 :=
  if minMaxOpen x c then Config.sfuOpen 1 0 x c else if f32Lt x c then c else x

/-- min(x, c). -/
def f32Min (x c : W32) : W32 :=
  if minMaxOpen x c then Config.sfuOpen 1 1 x c else if f32Lt c x then c else x

/-- CLAMP (R206). -/
def sfuClamp (r c0 c1 : W32) : W32 := f32Min (f32Max r c0) c1

/-- An FP32 value taken to an integer by `f` and clamped; a NaN's integer is left open. -/
def f32ToIntBy (f : Dy → Int) (step : Nat) (lo hi : Int) (v : W32) : Int :=
  match f32 v with
  | .nan => clampInt lo hi (Config.sfuOpen step 0 v 0).toInt
  | .inf neg => if neg then lo else hi
  | x => clampInt lo hi (f (fpDy x))

/-- Coefficient coef[i][k] (R211). -/
def sfuCoef (g : SfuProg) (i k : Nat) : W32 := g.coef.getD (i * (g.degree + 1) + k) 0

/-- HORNER: the fold over k = degree - 1 down to 0. -/
def sfuHorner (g : SfuProg) (i : Nat) (y : W32) : Nat → W32 → W32
  | 0, p => p
  | k + 1, p => sfuHorner g i y k (f32Fma p y (sfuCoef g i k))

/-- p × 2^n rounded once (SCALE2N). -/
def f32Scale (p : W32) (n : Int) : W32 :=
  match f32 p with
  | .fin neg m e => fpRound32 (.fin neg m (e + n))
  | x => fpRound32 x

/-- The action of one basic step (R206). -/
def sfuStep (g : SfuProg) (r : SfuRegs) (s : SfuStep) : SfuRegs :=
  match s.opcode with
  | 1 => if s.mode = 0 then { r with y := sfuClamp r.y s.c0 s.c1 } else { r with p := sfuClamp r.p s.c0 s.c1 }
  | 2 =>
    if s.mode = 0 then
      let n := f32ToIntBy dyRne 2 (-32768) 32767 (f32Mul r.y s.c0)
      let m := f32Neg (f32OfInt n)
      { r with n := n, y := f32Fma m s.c2 (f32Fma m s.c1 r.y) }
    else
      match f32 r.y with
      | .fin false m e =>
        if m = 0 then { r with n := (Config.sfuOpen 2 1 r.y 0).toInt, y := Config.sfuOpen 2 2 r.y 0 }
        else
          let x : Dy := ⟨m, e⟩
          { r with n := dyLog2 x, y := f32Round false (dyScale x (-dyLog2 x)) }
      | _ => { r with n := (Config.sfuOpen 2 1 r.y 0).toInt, y := Config.sfuOpen 2 2 r.y 0 }
  | 3 =>
    let i := f32ToIntBy dyFloor 3 0 ((g.segs : Int) - 1) (f32Mul (f32Sub r.y s.c0) s.c1)
    let y := if s.mode = 0 then r.y
      else f32Sub r.y (f32Round false (dyAdd (fpDy (f32 s.c0)) (dyMul ⟨i, 0⟩ (fpDy (f32 s.c2)))))
    { r with i := i.toNat, y := y }
  | 4 => { r with p := sfuHorner g r.i r.y g.degree (sfuCoef g r.i g.degree) }
  | _ =>
    match s.mode with
    | 0 => { r with p := f32Scale r.p r.n }
    | 1 => { r with p := f32Fma (f32OfInt r.n) s.c0 r.p }
    | 2 => { r with p := f32Mul r.p r.a }
    | _ => { r with p := if f32IsNan r.p then r.p else (r.p &&& 0x7FFFFFFF#32) ||| (r.a &&& 0x80000000#32) }

/-- A value given the sign of `a` where `odd` is set (R208). -/
def withSign (odd : Bool) (v a : W32) : W32 :=
  if f32IsNan v then f32Nan
  else if odd then (v &&& 0x7FFFFFFF#32) ||| (a &&& 0x80000000#32) else v

/-- The result of a program before the flush (R207, R208). -/
def sfuProgRaw (g : SfuProg) (a : W32) : W32 :=
  match f32 a with
  | .nan => f32Nan
  | .inf neg => withSign g.odd (if neg then g.atNegInf else g.atPosInf) a
  | .fin neg m _ =>
    if m = 0 then withSign g.odd g.atZero a
    else if neg && g.negNan then f32Nan
    else (g.steps.foldl (sfuStep g) (sfuStart a)).p

/-- R184, R209: the flush at threshold t; whether a result was flushed. -/
def sfuFlush (t y : W32) : W32 × Bool :=
  if f32IsNan y || fpIsZero (f32 y) then (y, false)
  else if f32Lt (y &&& 0x7FFFFFFF#32) t then (y &&& 0x80000000#32, true) else (y, false)

/-- The default threshold of R184 by output format code (0xFF is FP32). -/
def defaultFlushT (code : Nat) : W32 :=
  if code = 255 || code = 6 then 0x00800000#32
  else if code = 7 || code = 5 then 0x38800000#32
  else if code = 4 then 0x3C800000#32
  else 0#32

/-- x > num ÷ 10,000 for a finite value. -/
def above10k (x : Dy) (num : Int) : Bool := dyLt ⟨num, 0⟩ (dyMul x ⟨10000, 0⟩)

/-- x ≥ num ÷ 10,000. -/
def atLeast10k (x : Dy) (num : Int) : Bool := dyLe ⟨num, 0⟩ (dyMul x ⟨10000, 0⟩)

/-- A built-in function before the flush: the special inputs of R213, and the open bits of R215. -/
def builtinRaw (code : Nat) (x : W32) : W32 :=
  let open' := Config.builtin code x
  match f32 x with
  | .nan => f32Nan
  | .inf neg =>
    match code with
    | 1 => if neg then f32Zero false else f32Inf false
    | 2 => if neg then f32Nan else f32Inf false
    | 3 => f32Zero neg
    | 4 => if neg then f32Nan else f32Zero false
    | 5 => if neg then 0xBF800000#32 else f32One
    | 6 => if neg then f32Zero false else f32One
    | _ => if neg then f32Zero true else f32Inf false
  | .fin neg m e =>
    let v := fpDy (.fin neg m e)
    match code with
    | 1 => if above10k v 887228 then f32Inf false else open'
    | 2 => if m = 0 then f32Inf true else if neg then f32Nan else open'
    | 3 => if m = 0 then f32Inf neg else open'
    | 4 => if m = 0 then f32Inf neg else if neg then f32Nan else open'
    | 5 => if atLeast10k v 90109 then f32One else if atLeast10k (dyNeg v) 90109 then 0xBF800000#32 else open'
    | 6 => if atLeast10k v 173287 then f32One else open'
    | _ => open'

/-- What an epilogue's `act` names (R216). -/
inductive SfuFn where
  | none
  | builtin (code : Nat)
  | prog (g : SfuProg)
  deriving DecidableEq, Repr

/-- A special function with its flush: the result and how many results were flushed (R206 to R209). -/
def sfuApply (outFormat : Nat) (fn : SfuFn) (v : W32) : W32 × Nat :=
  match fn with
  | .none => (v, 0)
  | .builtin c =>
    let (y, fl) := sfuFlush (defaultFlushT outFormat) (builtinRaw c v)
    (y, if fl then 1 else 0)
  | .prog g =>
    let (y, fl) := sfuFlush g.flushT (sfuProgRaw g v)
    (y, if fl then 1 else 0)

/-- A built-in used by the row statistics, in FP32. -/
def stat (code : Nat) (v : W32) : W32 × Nat := sfuApply 255 (.builtin code) v

/-- One level of the pairwise tree: element 2i is added to element 2i + 1 (R220). -/
def pairLevel : List W32 → List W32
  | x :: y :: r => f32Add x y :: pairLevel r
  | r => r

/-- The balanced pairwise tree over one vector of at most 128 elements (R220). -/
def treeSum (xs : List W32) : W32 :=
  let l7 := pairLevel (pairLevel (pairLevel (pairLevel (pairLevel (pairLevel (pairLevel xs))))))
  l7.headD 0

/-- Consecutive runs of `n` elements, `fuel` at most. -/
def chunks {α : Type} (n : Nat) : Nat → List α → List (List α)
  | 0, _ => []
  | fuel + 1, xs => if xs.isEmpty then [] else xs.take n :: chunks n fuel (xs.drop n)

/-- The sum over a piece: vectors by the tree, vector results in ascending order (R220). -/
def pieceSum (xs : List W32) : W32 :=
  match (chunks 128 32 xs).map treeSum with
  | [] => 0
  | v :: vs => vs.foldl f32Add v

/-- The pieces of a row: 4,096 elements each (R220). -/
def rowPieces (xs : List W32) : List (List W32) := chunks 4096 256 xs

/-- The larger of two values that are no NaN, the first of equals. -/
def larger (a b : W32) : W32 := if f32Lt a b then b else a

/-- EXP(RNE(x - m)) of the softmax statistics; an element of −∞ takes no share (R221; log 15). -/
def expShare (m x : W32) : W32 × Nat := if x = f32Inf true then (0, 0) else stat 1 (f32Sub x m)

/-- The pair (m, s) of one piece, and the results flushed (R221). -/
def softPiece (xs : List W32) : W32 × W32 × Nat :=
  let m := xs.foldl larger (f32Inf true)
  let es := xs.map (expShare m)
  (m, pieceSum (es.map (·.1)), (es.map (·.2)).sum)

/-- Two running pairs combined (R221). -/
def softCombine (a b : W32 × W32 × Nat) : W32 × W32 × Nat :=
  let m2 := larger a.1 b.1
  let ea := expShare m2 a.1
  let eb := expShare m2 b.1
  (m2, f32Add (f32Mul a.2.1 ea.1) (f32Mul b.2.1 eb.1), a.2.2 + b.2.2 + ea.2 + eb.2)

/-- Softmax of a row and the number of results flushed (R221). -/
def softmaxRow (xs : List W32) : List W32 × Nat :=
  let posInf := (xs.filter (· == f32Inf false)).length
  if xs.any f32IsNan then (xs.map fun _ => f32Nan, 0)
  else if 0 < posInf then
    (xs.map fun x => if x == f32Inf false then f32Div f32One (f32OfInt posInf) else 0, 0)
  else if xs.all (· == f32Inf true) then (xs.map fun _ => 0, 0)
  else
    match (rowPieces xs).map softPiece with
    | [] => ([], 0)
    | p :: ps =>
      let (m, s, fl) := ps.foldl softCombine p
      let r := stat 3 s
      let ys := xs.map fun x => let e := expShare m x; (f32Mul e.1 r.1, e.2)
      (ys.map (·.1), fl + r.2 + (ys.map (·.2)).sum)

/-- Count, mean and M2 of one piece (R222). -/
def normPiece (xs : List W32) : Nat × W32 × W32 :=
  let mu := f32Div (pieceSum xs) (f32OfInt xs.length)
  (xs.length, mu, pieceSum (xs.map fun x => let d := f32Sub x mu; f32Mul d d))

/-- Two pieces combined, one rounding per operation (R222). -/
def normCombine (a b : Nat × W32 × W32) : Nat × W32 × W32 :=
  let n := f32OfInt (a.1 + b.1 : Nat)
  let na := f32OfInt a.1
  let nb := f32OfInt b.1
  let d := f32Sub b.2.1 a.2.1
  (a.1 + b.1, f32Add a.2.1 (f32Div (f32Mul d nb) n),
    f32Add (f32Add a.2.2 b.2.2) (f32Div (f32Mul (f32Mul (f32Mul d d) na) nb) n))

/-- Whether a row holds a NaN or an infinity. -/
def rowBad (xs : List W32) : Bool := xs.any fun x => !f32IsFin x

/-- Layer normalization of a row (R222). -/
def layerNorm (eps : W32) (xs gamma beta : List W32) : List W32 × Nat :=
  if rowBad xs then (xs.map fun _ => f32Nan, 0) else
  match (rowPieces xs).map normPiece with
  | [] => ([], 0)
  | p :: ps =>
    let (n, mu, m2) := ps.foldl normCombine p
    let r := stat 4 (f32Add (f32Div m2 (f32OfInt n)) eps)
    (xs.mapIdx fun i x => f32Add (f32Mul (f32Mul (f32Sub x mu) r.1) (gamma.getD i 0)) (beta.getD i 0), r.2)

/-- RMS normalization of a row (R222). -/
def rmsNorm (eps : W32) (xs gamma : List W32) : List W32 × Nat :=
  if rowBad xs then (xs.map fun _ => f32Nan, 0) else
  match (rowPieces xs).map fun p => pieceSum (p.map fun x => f32Mul x x) with
  | [] => ([], 0)
  | q :: qs =>
    let r := stat 4 (f32Add (f32Div (qs.foldl f32Add q) (f32OfInt xs.length)) eps)
    (xs.mapIdx fun i x => f32Mul (f32Mul x r.1) (gamma.getD i 0), r.2)

/-- An operation over a whole row (R219 to R222). -/
inductive RowOp where
  | softmax (xs : List W32)
  | layer (eps : W32) (xs gamma beta : List W32)
  | rms (eps : W32) (xs gamma : List W32)
  deriving DecidableEq, Repr

/-- The outputs of a row operation and the number of results flushed. -/
def rowApply : RowOp → List W32 × Nat
  | .softmax xs => softmaxRow xs
  | .layer eps xs g b => layerNorm eps xs g b
  | .rms eps xs g => rmsNorm eps xs g

/-- The order a program's steps must keep (R207): where the scan stands, from 0 (before SEGMENT) to 2 (after HORNER). -/
def sfuOrderStep (st : Option Nat) (s : SfuStep) : Option Nat :=
  match st, s.opcode with
  | some 0, 1 => some 0
  | some 0, 2 => some 0
  | some 0, 3 => some 1
  | some 0, 4 => some 2
  | some 1, 4 => some 2
  | some 2, 5 => some 2
  | some 2, 1 => some 2
  | _, _ => none

/-- R207. -/
def sfuOrdered (steps : List SfuStep) : Bool := steps.foldl sfuOrderStep (some 0) == some 2

end Sys2Proof.Machine
end

