-- ==== Sys2Proof/Machine/Slab.lean ====
section
/-! DEFINITION. The path of one output element, the Assay and the convolution address generator
(07 R167 to R184, 08 R189 to R200). -/

namespace Sys2Proof.Machine

/-- A convolution geometry (R195). -/
structure ConvGeom where
  inH : Nat
  inW : Nat
  channels : Nat
  kH : Nat
  kW : Nat
  strideH : Nat
  strideW : Nat
  dilH : Nat
  dilW : Nat
  padTop : Nat
  padLeft : Nat
  padBottom : Nat
  padRight : Nat
  deriving DecidableEq, Repr

/-- The dilated kernel fits the padded input in both dimensions (R196). -/
def ConvGeom.fits (g : ConvGeom) : Bool :=
  decide (g.dilH * (g.kH - 1) + 1 ≤ g.inH + g.padTop + g.padBottom) &&
  decide (g.dilW * (g.kW - 1) + 1 ≤ g.inW + g.padLeft + g.padRight)

/-- out_h (R196). -/
def ConvGeom.outH (g : ConvGeom) : Nat := (g.inH + g.padTop + g.padBottom - g.dilH * (g.kH - 1) - 1) / g.strideH + 1

/-- out_w (R196). -/
def ConvGeom.outW (g : ConvGeom) : Nat := (g.inW + g.padLeft + g.padRight - g.dilW * (g.kW - 1) - 1) / g.strideW + 1

/-- The input element that streamed row `t` reads at reduction position `k`; none where it lies outside the input
and reads zero (R196, R197). -/
def ConvGeom.element (g : ConvGeom) (t k : Nat) : Option Nat :=
  let oh := t / g.outW
  let ow := t % g.outW
  let c := k % g.channels
  let kk := k / g.channels
  let y := oh * g.strideH + kk / g.kW * g.dilH
  let x := ow * g.strideW + kk % g.kW * g.dilW
  if y < g.padTop || x < g.padLeft || g.inH ≤ y - g.padTop || g.inW ≤ x - g.padLeft then none
  else some (((y - g.padTop) * g.inW + (x - g.padLeft)) * g.channels + c)

/-- `depth` elements from reduction position `k0` of streamed row `t`. -/
def ConvGeom.row (g : ConvGeom) (input : List Nat) (t k0 depth : Nat) : List Nat :=
  (List.range depth).map fun i =>
    match g.element t (k0 + i) with
    | none => 0
    | some a => input.getD a 0

/-- One group of at most 32 products, decoded at Slab entry (R168 steps 1 and 2). `offset` is the exponent offset g of
R179; none is a block that reads as zero. -/
structure Group where
  products : List Fp
  offset : Int
  deriving DecidableEq, Repr

/-- A fine scale byte read as an exponent; none is ZERO_BLOCK (R178). -/
def fineExp (b : Byte) : Option Int := if b = 0x80#8 then none else some b.toInt

/-- An operand's element under its block's fine scale: a ZERO_BLOCK reads as zero, whatever its bits (R178). -/
def blockElem (code : Nat) (fine : Option Byte) (b : Nat) : Fp :=
  if fine = some 0x80#8 then .fin false 0 0 else elemDecode code b

/-- The exponent offset an operand's fine scale adds (R179). -/
def blockOffset (fine : Option Byte) : Int := (fine.bind fineExp).getD 0

/-- Decode the operands of one group and form its products (R165, R178). -/
def mkGroup (act wt : Nat) (fa fw : Option Byte) (xs ws : List Nat) : Group :=
  ⟨(xs.zip ws).map fun (x, w) => fpMul (blockElem act fa x) (blockElem wt fw w), blockOffset fa + blockOffset fw⟩

/-- A group sum (R170, R172, R174). -/
inductive GSum where
  | nan
  | inf (neg : Bool)
  | fin (v : Dy)
  deriving DecidableEq, Repr

/-- Finite nonzero products of a group. -/
def Group.finite (g : Group) : List Dy := (g.products.map fpDy).filter (·.num != 0)

/-- The alignment unit's exponent, E_max − 24, of a floating group; none without a finite nonzero product (R170). -/
def Group.unit (isInt : Bool) (g : Group) : Option Int :=
  if isInt then none else
  match g.finite with
  | [] => none
  | p :: ps => some (ps.foldl (fun e q => max e (dyLog2 q)) (dyLog2 p) - 24)

/-- The group sum before the fine-scale offset (R170, R172, R174). -/
def Group.sum (isInt : Bool) (g : Group) : GSum :=
  if g.products.any (· == .nan) then .nan
  else if g.products.any (· == .inf true) && g.products.any (· == .inf false) then .nan
  else if g.products.any (· == .inf true) then .inf true
  else if g.products.any (· == .inf false) then .inf false
  else
    match g.unit isInt with
    | none => .fin (dySum g.finite)
    | some u => .fin (dySum (g.finite.map fun p => dyFloorTo p u))

/-- The exact sum of the same products, untruncated (R198). -/
def Group.exact (g : Group) : Dy := dySum g.finite

/-- Whether a group makes its tile unchecked (R199). -/
def Group.special (g : Group) : Bool :=
  g.products.any fun p =>
    match p with
    | .fin .. => false
    | _ => true

/-- Whether a pair of formats is an integer pairing (R167). -/
def intPairing (act : Nat) : Bool := decide (act ≤ 3)

/-- An FP32 accumulator takes a group sum (R171, R179). -/
def accFloat (acc : W32) (s : GSum) (offset : Int) : W32 :=
  match f32 acc, s with
  | .nan, _ => f32Nan
  | _, .nan => f32Nan
  | .inf a, .inf b => if a == b then f32Inf a else f32Nan
  | .inf a, .fin _ => f32Inf a
  | _, .inf b => f32Inf b
  | x, .fin v => f32Round false (dyAdd (fpDy x) (dyScale v offset))

/-- An INT32 accumulator takes a group sum and clamps (R174): the sum and whether it clamped. -/
def accInt (acc : Int) (s : GSum) : Int × Bool :=
  match s with
  | .fin v =>
    let t := acc + dyFloor v
    let c := clampInt (-2147483648) 2147483647 t
    (c, c != t)
  | _ => (acc, false)

/-- The accumulator word after a list of group sums in ascending order, and whether an INT32 one clamped
(R169, R171, R174). -/
def accRun (native32 : Bool) (acc : W32) : List (GSum × Int) → W32 × Bool
  | [] => (acc, false)
  | (s, off) :: r =>
    if native32 then
      let (v, c) := accInt acc.toInt s
      let (w, d) := accRun native32 (BitVec.ofInt 32 v) r
      (w, c || d)
    else accRun native32 (accFloat acc s off) r

/-- The two shapes of R48, R189, R190. -/
inductive Shape where
  | normal
  | wide
  deriving DecidableEq, Repr

/-- Where the streamed rows come from: given, or formed by the address generator (R195 to R197). -/
inductive ActSrc where
  | rows (xs : List (List Nat))
  | conv (g : ConvGeom) (input : List Nat) (t0 count k0 depth : Nat)
  deriving DecidableEq, Repr

/-- What the post-processing unit does with the outputs of a tile that finishes them (R168 steps 5 to 7, R218). -/
structure Post where
  scale : W32
  recip : W32
  bias : List W32
  act : SfuFn
  cscale : List W32
  outFormat : Nat
  /-- R180 applies: the stage runs under `KALBA` and the output is narrower than FP32. -/
  kalbaOut : Bool
  /-- Rows the SFU normalizes (R219 to R222). -/
  rows : List RowOp
  deriving DecidableEq, Repr

/-- One tile as its Slab runs it (R188 to R193): the operands, the words they accumulate into, and `flips`, what the
Slab's lanes added wrongly to a group sum (row, column, group, amount); a sound Slab has none. -/
structure Tile where
  ticket : Ticket
  shape : Shape
  act : Nat
  wt : Nat
  kalba : Bool
  /-- The tile is the first of its outputs' reductions: accumulators start from +0 (R169). -/
  first : Bool
  rows : ActSrc
  cols : List (List Nat)
  actFine : List (List Byte)
  wtFine : List (List Byte)
  flips : List (Nat × Nat × Nat × Dy)
  post : Option Post
  /-- Byte of the Bench store where finished outputs are written (R185). -/
  storeAt : Nat
  deriving DecidableEq, Repr

/-- The streamed rows (or, in WIDE, the stationary rows) as operand codes. -/
def Tile.actRows (t : Tile) : List (List Nat) :=
  match t.rows with
  | .rows xs => xs
  | .conv g input t0 count k0 depth => (List.range count).map fun i => g.row input (t0 + i) k0 depth

/-- Groups of 32 of a list (R169). -/
def groups32 {α : Type} (xs : List α) : List (List α) := chunks 32 (xs.length / 32 + 1) xs

/-- The groups of output element (row, column), in ascending order (R191). -/
def Tile.groupsAt (t : Tile) (r c : Nat) : List Group :=
  let xs := groups32 (t.actRows.getD r [])
  let ws := groups32 (t.cols.getD c [])
  (xs.zip ws).mapIdx fun j (x, w) =>
    mkGroup t.act t.wt (if t.kalba then some ((t.actFine.getD r []).getD j 0) else none)
      (if t.kalba then some ((t.wtFine.getD c []).getD j 0) else none) x w

/-- A group sum as the data lanes produced it. -/
def Tile.laneSum (t : Tile) (r c j : Nat) (g : Group) : GSum :=
  match g.sum (intPairing t.act) with
  | .fin v =>
    .fin (dyAdd v (dySum ((t.flips.filter fun f => f.1 = r && f.2.1 = c && f.2.2.1 = j).map (·.2.2.2))))
  | s => s

/-- What the Assay sums of one output element are: data sum, reference sum, sum of the units (R198). -/
def Tile.assayAt (t : Tile) (r c : Nat) : Dy × Dy × Dy :=
  let gs := t.groupsAt r c
  let fin := fun s => match s with
    | GSum.fin v => v
    | _ => dyZero
  (dySum (gs.mapIdx fun j g => fin (t.laneSum r c j g)), dySum (gs.map Group.exact),
   dySum (gs.map fun g => match g.unit (intPairing t.act) with
    | none => dyZero
    | some u => ⟨1, u⟩))

/-- −T < D − E ≤ 0, or D = E where every unit is 0 (R199). -/
def assayOk (d e u : Dy) : Bool :=
  let diff := dyAdd d (dyNeg e)
  if u.num = 0 then diff.num == 0
  else dyLt (dyNeg (dyMul ⟨32, 0⟩ u)) diff && decide (diff.num ≤ 0)

/-- Sum of Assay triples. -/
def assaySum (xs : List (Dy × Dy × Dy)) : Dy × Dy × Dy :=
  (dySum (xs.map (·.1)), dySum (xs.map (·.2.1)), dySum (xs.map (·.2.2)))

/-- Whether the tile is not checked (R199). -/
def Tile.skipped (t : Tile) : Bool :=
  (List.range t.actRows.length).any fun r => (List.range t.cols.length).any fun c =>
    (t.groupsAt r c).any Group.special

/-- Whether the tile passes its check in every row and every column (R199). -/
def Tile.passes (t : Tile) : Bool :=
  let rs := List.range t.actRows.length
  let cs := List.range t.cols.length
  let ok := fun (x : Dy × Dy × Dy) => assayOk x.1 x.2.1 x.2.2
  (rs.all fun r => ok (assaySum (cs.map fun c => t.assayAt r c))) &&
  (cs.all fun c => ok (assaySum (rs.map fun r => t.assayAt r c)))

/-- The word of the accumulator file that holds output (row, column): 1,024 rows × 64 columns in NORMAL, 16 × 4,096 in
WIDE (R193). -/
def Tile.accWord (t : Tile) (r c : Nat) : Nat :=
  match t.shape with
  | .normal => r * 64 + c
  | .wide => r * 4096 + c

/-- Group sums of an output element as the lanes produced them, each with its fine-scale offset. -/
def Tile.sums (t : Tile) (r c : Nat) : List (GSum × Int) :=
  (t.groupsAt r c).mapIdx fun j g => (t.laneSum r c j g, g.offset)

/-- Whether the accumulator is INT32 (R167, R174). -/
def Tile.native32 (t : Tile) : Bool := intPairing t.act && !t.kalba

/-- Steps 5 and 6 of R168 on one accumulator word. -/
def postValue (p : Post) (native32 : Bool) (acc : W32) (col : Nat) : W32 × Nat :=
  let v0 := if native32 then f32OfInt acc.toInt else acc
  let v1 := f32Mul v0 p.scale
  let v2 := match p.bias[col]? with
    | some b => f32Add v1 b
    | none => v1
  let (v3, fl) := sfuApply p.outFormat p.act v2
  let v4 := match p.cscale[col]? with
    | some g => f32Mul v3 g
    | none => v3
  (v4, fl)

/-- max_finite of an output format (R180). -/
def kalbaMax (code : Nat) : Dy :=
  match fmtOfCode code, intRange code with
  | some f, _ => maxFinite f
  | none, some (_, hi) => ⟨hi, 0⟩
  | none, none => dyZero

/-- The fine scale of an output block (R180): none is ZERO_BLOCK; whether it was clamped at 127. -/
def kalbaFine (code : Nat) (ys : List W32) : Option (Int × Bool) :=
  let mags := (ys.filter f32IsFin).map fun y => (⟨(fpDy (f32 y)).num.natAbs, (fpDy (f32 y)).exp⟩ : Dy)
  match mags.filter (·.num != 0) with
  | [] => none
  | m :: ms =>
    let top := ms.foldl (fun a b => if dyLt a b then b else a) m
    let f0 := dyLog2 top - dyLog2 (kalbaMax code)
    let f1 := if dyLe (dyScale top (-f0)) (kalbaMax code) then f0 else f0 + 1
    let f2 := max f1 (-127)
    some (if 127 < f2 then (127, true) else (f2, false))

/-- x × 2^k of a datum, exactly. -/
def fpScale (x : Fp) (k : Int) : Fp :=
  match x with
  | .fin n m e => .fin n m (e + k)
  | y => y

/-- One output block under R180: the elements' codes, the fine scale byte, the counts, and whether it clamped. -/
def kalbaBlock (code : Nat) (ys : List W32) : List Nat × Byte × ConvCount × Nat :=
  let sum := fun (xs : List (Nat × ConvCount)) => (xs.map (·.2)).foldl ConvCount.add {}
  match kalbaFine code ys with
  | none =>
    let qs := ys.map fun y => if f32IsNan y then elemConvertFp code .nan else (0, {})
    (qs.map (·.1), 0x80#8, sum qs, 0)
  | some (f, cl) =>
    let qs := ys.map fun y => elemConvertFp code (fpScale (f32 y) (-f))
    (qs.map (·.1), BitVec.ofInt 8 f, sum qs, if cl then 1 else 0)

/-- Bytes of a list of element codes of one format (R4, R163). -/
def packElems (code : Nat) (xs : List Nat) : List Byte :=
  if fmtBits code = 4 then
    (chunks 2 (xs.length + 1) xs).map fun p => BitVec.ofNat 8 (p.headD 0 % 16 + 16 * ((p.drop 1).headD 0 % 16))
  else xs.flatMap fun x => toLe (fmtBits code / 8) x

/-- What a finished tile adds to JOB_ARITH_COUNTS (R183). -/
structure ArithCounts where
  sat : Nat := 0
  nan : Nat := 0
  kalba : Nat := 0
  flush : Nat := 0
  deriving DecidableEq, Repr

/-- Step 7 of R168 on one row of outputs: the bytes written and the counts. -/
def postRow (p : Post) (ys : List W32) : List Byte × ArithCounts :=
  let zs := ys.map fun y => f32Mul y p.recip
  if p.kalbaOut then
    let bs := (groups32 zs).map (kalbaBlock p.outFormat)
    let c := (bs.map (·.2.2.1)).foldl ConvCount.add {}
    (packElems p.outFormat (bs.flatMap (·.1)) ++ bs.map (·.2.1),
     { sat := c.sat, nan := c.nan, kalba := (bs.map (·.2.2.2)).sum })
  else
    let qs := zs.map (elemConvert p.outFormat)
    let c := (qs.map (·.2)).foldl ConvCount.add {}
    (packElems p.outFormat (qs.map (·.1)), { sat := c.sat, nan := c.nan })

/-- Sum of arithmetic counts. -/
def ArithCounts.add (a b : ArithCounts) : ArithCounts :=
  ⟨a.sat + b.sat, a.nan + b.nan, a.kalba + b.kalba, a.flush + b.flush⟩

/-- Post-processing of a whole tile over its accumulators `acc row column` (R168 steps 5 to 7, R219 to R222). -/
def Tile.post' (t : Tile) (p : Post) (acc : Nat → Nat → W32) : List Byte × ArithCounts :=
  let rows := (List.range t.actRows.length).map fun r =>
    let vs : List (W32 × Nat) := (List.range t.cols.length).map fun c => postValue p t.native32 (acc r c) c
    let w := postRow p (vs.map (·.1))
    ((w.1, { w.2 with flush := (vs.map (·.2)).sum }) : List Byte × ArithCounts)
  let stats := p.rows.map fun op =>
    let y := rowApply op
    ((packElems 255 (y.1.map BitVec.toNat), { flush := y.2 }) : List Byte × ArithCounts)
  let all := rows ++ stats
  (all.flatMap (·.1), (all.map (·.2)).foldl ArithCounts.add {})

/-- The combined scale s and the reciprocal r of a tensor (R177). -/
def boundScales (sW sIn sOut : W32) : W32 × W32 := (f32Mul sIn sW, f32Div f32One sOut)

/-- Whether a tensor's s and r are both positive normal (R177). -/
def boundScalesOk (sW sIn sOut : W32) : Bool :=
  let (s, r) := boundScales sW sIn sOut
  f32PosNormal s && f32PosNormal r

end Sys2Proof.Machine
end

