-- ==== Sys2Proof/Syntax.lean ====
section
/-! DEFINITION. The commands of the block: one constructor for each row of the opcode table, with the fields its rule
names as operands (log 1). -/

namespace Sys2Proof

/-- Who made a management access: source node and `txn_id` (R447). -/
structure Cmd where
  src : Node
  txn : W16
  deriving DecidableEq, Repr

/-- One slice entry of a PREPARED answer (R262, R473). -/
structure Slice where
  table : Nat
  first : Nat
  width : Nat
  deriving DecidableEq, Repr

/-- Fixed part of WORK_FWD, RERANK_FWD and PROMPT, with the header's ticket (R473). -/
structure FwdHead where
  ticket : Ticket
  epoch : Nat
  mgrEpoch : Nat
  softLeft : Nat
  hardLeft : Nat
  shard : Nat
  reissue : Bool
  owed : Bool
  deriving DecidableEq, Repr

/-- An ANSWER: header ticket, fixed part of R473, list entries of R328, and what the fixed part has no place for and a
completion needs (log 23): `detail`, `end_reason`, the passage token ids of step 12 of R30, a DECODE's bytes. -/
structure Answer where
  ticket : Ticket
  shard : Nat
  status : Nat
  filterShort : Bool
  nanSeen : Bool
  degraded : Nat
  indexVersion : Nat
  result0 : W64
  detail : Nat
  endReason : Nat
  list : List Machine.Entry
  passages : List (W64 × List Nat)
  bytes : List Byte
  deriving DecidableEq, Repr

/-- A journal entry (R143): the header's fields and the body. -/
structure JEntry where
  kind : Nat
  ticket : Ticket
  tag : W64
  pos : W64
  body : List Byte
  deriving DecidableEq, Repr

/-- Fixed part of HEARTBEAT (R473) without `hb_kind`. -/
structure Heartbeat where
  role : Nat
  epoch : Nat
  mgrEpoch : Nat
  planId : W64
  planGen : W32
  jobState : Nat
  restoring : Bool
  activeValid : Bool
  freeBlocks : Nat
  sinceMgrUs : Nat
  powerCycles : Nat
  deriving DecidableEq, Repr

/-- Header of a key/value block (R346) without reserved bytes. -/
structure KvHead where
  ticket : Ticket
  handle : W64
  layer : Nat
  index : Nat
  kvFormat : Nat
  nTokens : Nat
  kvHeads : Nat
  headDim : Nat
  kScale : W32
  vScale : W32
  dataLen : Nat
  deriving DecidableEq, Repr

/-- A DDR5 module as its SPD describes it (R372), and whether its channel's training failed twice. -/
structure Module where
  gib : Nat
  ranks : Nat
  serial : Nat
  ecc : Bool
  speed : Nat
  trains : Bool
  deriving DecidableEq, Repr

/-- The NAND population as the ONFI parameter pages describe it (R392). `targets` gives targets per channel. -/
structure NandPop where
  cell : Nat
  targets : List Nat
  luns : Nat
  planes : Nat
  pageBytes : Nat
  spareBytes : Nat
  pagesPerBlock : Nat
  blocksPerLun : Nat
  gibPerTarget : Nat
  slcModeOk : Bool
  tProgSlcUs : Nat
  tProgUs : Nat
  tRUs : Nat
  tBersUs : Nat
  retryLevels : Nat
  samePart : Bool
  rateOk : Bool
  deriving DecidableEq, Repr

/-- What the board and the fuses give the device at a power-on boot. -/
structure Board where
  refclk : Bool
  pwrfail : Bool
  straps : List (BitVec 16)
  devUid : W64
  stepping : Byte
  keySlots : List (Nat × Nat × Nat)
  rollbackMin : W32
  /-- Contents of a configuration flash that this device has not written yet: (offset, byte) pairs. -/
  flash : List (Nat × Byte)
  flashReads : Bool
  /-- Clock domains whose PLL did not lock at either attempt (R526). -/
  unlocked : List Nat
  /-- HBM stacks whose training failed twice (R371). -/
  stacksFailed : List Nat
  modules : List (Option Module)
  nand : NandPop
  mountOk : Bool
  deriving DecidableEq, Repr

/-- What the far end reports at step 4 of training, and the lanes that passed steps 1 to 3 (R429). -/
structure Training where
  lanes : Byte
  farKind : Nat
  farNode : Node
  farLanes : Nat
  buffers : List Nat
  deriving DecidableEq, Repr

/-- A word of memory that reads with bits inverted: `lasting` says that the inversion returns after the corrected
word is written back (R376); `repair` says how a DRAM repair goes: 0 done, 1 no resource, 2 bound passed (R497). -/
structure Upset where
  tier : Nat
  unit : Nat
  off : Nat
  mask : BitVec 40
  lasting : Bool
  repair : Nat
  deriving DecidableEq, Repr

/-- Instructions of the test access port (R589). -/
inductive TapOp where
  | bypass | idcode | sample | extest
  deriving DecidableEq, Repr

/-- The 173 commands, in the order of the opcode table. -/
inductive Instr where
  | planLoad (c : Cmd) (imageLen : W32)
  | loadTimeout
  | swap (c : Cmd) (migrFirst migrCount : Byte)
  | swapInstall (bench : Nat)
  | swapTimeout
  | setRetirement
  | domainSwap (c : Cmd) (migrFirst migrCount : Byte)
  | prepare (src : Node) (nextEpoch : W16)
  | prepared (src : Node) (code : Byte) (detail : W16) (slices : List Slice)
  | domainSwapTimeout
  | commit (src : Node) (epoch : W16) (point : Ticket)
  | abort (src : Node) (epoch : W16)
  | preparedWait
  | preparedRelease
  | jobOpen (c : Cmd) (jobId : W32)
  | endDrain (c : Cmd)
  | endAbort (c : Cmd)
  | jobClose
  | forceFault (c : Cmd)
  | cancelTicket (c : Cmd) (ticket : Ticket)
  | cancelTag (c : Cmd) (tag : BitVec 48)
  | cancelFwd (src : Node) (ticket : Ticket) (expired : Bool)
  | softPass (ticket : Ticket)
  | hardPass (ticket : Ticket)
  | stepStart (stage : Nat)
  | issueBoundary (bench : Nat)
  | stepEnd (stage : Nat)
  | stepWatchdog (stage : Nat)
  | queueSlotFree (stage : Nat)
  | tileComplete (bench slab : Nat) (tile : Machine.Tile)
  | submit (src : Node) (txn : W16) (desc data : List Byte)
  | cont (src : Node) (txn : W16) (off : Nat) (data : List Byte)
  | submissionTimeout (src : Node) (txn : W16)
  | mirrorEntry (src : Node) (mgrEpoch : W32) (e : JEntry)
  | mirrorAck (src : Node) (pos : W64) (superseded : Bool)
  | mirrorAckTimeout (pos : W64)
  | completionPost (ticket : Ticket)
  | cqStalled
  | releaseTicket (c : Cmd) (ticket : Ticket)
  | streamReset (c : Cmd) (stream : BitVec 12)
  | fetch (src : Node) (txn : W16) (ticket : Ticket)
  | cqCtrlWrite (c : Cmd) (data : W64)
  | srCtrlWrite (c : Cmd) (data : W64)
  | alertCtrlWrite (c : Cmd) (data : W64)
  | registerWrite (c : Cmd) (offset data : W64)
  | rcRead (c : Cmd) (offset : W64)
  | logReadData (c : Cmd)
  | mread (c : Cmd) (offset : W64)
  | answer (src : Node) (a : Answer)
  | workFwd (src : Node) (h : FwdHead) (desc input : List Byte)
  | rerankFwd (src : Node) (h : FwdHead) (desc : List Byte) (tokens : List Nat) (ids : List W64)
  | tokenize (ticket : Ticket)
  | pack (ticket : Ticket)
  | prompt (src : Node) (h : FwdHead) (desc : List Byte) (decodeNode : Node) (tokens : List Nat)
  | cacheOpen (src : Node) (ticket : Ticket) (promptLen lastToken kvFormat layers : Nat)
  | opened (src : Node) (ticket : Ticket) (handle : W64)
  | noRoom (src : Node) (ticket : Ticket)
  | cacheOpenRetry (ticket : Ticket)
  | kvBlock (src : Node) (h : KvHead) (segOff : Nat) (data : List Byte)
  | kvAck (src : Node) (handle : W64) (layer index : Nat)
  | kvResendTimeout (handle : W64) (layer index : Nat)
  | kvLost (src : Node) (ticket : Ticket) (handle : W64)
  | cacheDrop (src : Node) (handle : W64)
  | prefillDone (src : Node) (ticket : Ticket) (handle : W64)
  | cacheIdleTimeout (handle : W64)
  | streamRec (src : Node) (record : List Byte)
  | gthOpen (c : Cmd) (table : W32)
  | gthClone (c : Cmd) (table : W32)
  | gthAbandon (c : Cmd) (table : W32)
  | gthSelect (c : Cmd) (table : W32)
  | buildDone (table : W32)
  | tableSwitch (table : W32)
  | publishPrep (src : Node) (ticket : Ticket) (table version : W32)
  | ready (src : Node) (ticket : Ticket) (table : W32) (code : Byte)
  | publishTimeout (ticket : Ticket)
  | publishCommit (src : Node) (ticket : Ticket) (table version : W32)
  | retire (src : Node) (table version : W32)
  | regionFree (table : W32)
  | gatherReq (src : Node) (txn : W16) (ticket : Ticket) (table version : W32) (hardLeft : W32) (index : List Nat)
  | gatherAns (src : Node) (ticket : Ticket) (table version : W32) (sliceFirst sliceWidth : Nat) (rows : List Byte)
  | insertAppend (ticket : Ticket)
  | deleteAppend (ticket : Ticket)
  | pendingDrain (coll : Nat)
  | foldStart (coll : Nat)
  | foldUnitCommit (coll : Nat)
  | foldPublish (coll : Nat)
  | versionRetire (coll : Nat)
  | compactionDone (coll : Nat)
  | checkpointCommit (coll : Nat)
  | collectionRestore (coll : Nat)
  | pageMoveStart (engine : Nat)
  | pageSwitch (page : Nat)
  | haulAbort (page : Nat)
  | memRd (src : Node) (txn : W16) (addr : W64) (len : W32) (upsets : List Upset)
  | memWr (src : Node) (txn : W16) (addr : W64) (len : W32) (data : List Byte)
  | scrub (tier unit off : Nat) (upsets : List Upset)
  | boot (b : Board)
  | bufferProgram (ctrl id : Nat)
  | programDone (ctrl id : Nat) (ok : Bool)
  | eraseDone (ctrl block : Nat) (ok : Bool)
  | nandRead (ctrl block page : Nat) (decodesAt : Option Nat)
  | slcTargetRecompute (ctrl : Nat)
  | slcIdleMove (ctrl : Nat)
  | logBlockMerge (ctrl log : Nat)
  | mapDeltaProgram (ctrl : Nat)
  | recordBlockClean (block : Nat)
  | stkFormat (c : Cmd) (logPerGroup : Byte) (confirm : W32)
  | formatDone (factoryBad : List (Nat × Nat))
  | powerFail (heldNs : Nat)
  | flushDone (committed : List Bool)
  | linkTraining (port sub : Nat) (t : Training)
  | trainingTimeout (port sub : Nat)
  | dataFlit (port sub : Nat) (flit : List Byte) (flagged : Byte)
  | nak (port sub : Nat) (flit : List Byte) (flagged : Byte)
  | laneChg (port sub : Nat) (flit : List Byte)
  | idle (port sub : Nat) (flit : List Byte)
  | replayTimeout (port sub : Nat)
  | ackTimer (port sub : Nat)
  | creditStall (port sub vc : Nat)
  | creditStallRetrain (port sub vc : Nat)
  | retrain (c : Cmd) (port : BitVec 4) (sub : BitVec 2)
  | portReset (c : Cmd) (port : BitVec 4) (sub : BitVec 2)
  | portDown (c : Cmd) (port : BitVec 4) (sub : BitVec 2)
  | unreachable
  | claim (c : Cmd) (domain : BitVec 6) (slot : BitVec 10)
  | call (src : Node) (domain : BitVec 6) (uid : W64)
  | here (src : Node) (domain : BitVec 6) (slot : BitVec 10) (uid : W64)
  | enumCollectTimeout
  | assign (src : Node) (uid : W64) (node : Node)
  | assignRetry (uid : W64)
  | lostCall
  | roster (src : Node) (entries : List (Nat × Nat))
  | rosterOk (src : Node)
  | rosterNo (src : Node)
  | beatTimer
  | beat (src : Node) (h : Heartbeat)
  | reply (src : Node) (h : Heartbeat)
  | peerSuspect (node : Node)
  | probe (src : Node) (h : Heartbeat)
  | peerLost (node : Node)
  | heartbeatTakeover (src : Node) (h : Heartbeat)
  | memberRemove (c : Cmd) (member : BitVec 10)
  | recordWrite (readBackOk : Bool)
  | ringCompaction
  | flashTimeout
  | logClear (c : Cmd)
  | clearEraseDone
  | monitorWindow (domain count : Nat)
  | ringCheck (count : Nat)
  | clkOutCfgWrite (c : Cmd) (data : W64)
  | pwrCmd (c : Cmd) (state : BitVec 3)
  | powerTransitionDone
  | pwrCapWrite (c : Cmd) (data : W64)
  | capLoopStep
  | meterSample (milliVolt milliAmp : Nat)
  | thermalSample (halfDegrees : List Nat)
  | avsAdjust (senseMv : Nat)
  | avsTimeout
  | porst (heldNs : Nat)
  | supplyMonitorTrip (vinMv heldNs : Nat)
  | wrst (heldNs : Nat)
  | warm (c : Cmd)
  | job (c : Cmd)
  | firmwareLoad (c : Cmd) (imageLen : W32)
  | firmwareProgramDone (readsBack : Bool)
  | hoursTick
  | entdaa (address : BitVec 7)
  | i3cPrivateWrite (bytes : List Byte)
  | i3cPrivateRead (len : Nat)
  | i3cTimeout
  | tapInstruction (op : TapOp)
  | integratedVoltageRegulatorFault (bench : Nat)
  | logClearTimeout
  deriving DecidableEq, Repr

end Sys2Proof
end

