-- ==== Sys2Proof/Decode.lean ====
section
/-! DEFINITION. Words that spell commands: none, since no row of the opcode table gives bits. -/

namespace Sys2Proof

/-- The opcode table gives no row any bits, so no word spells a command. -/
def decodeTableWord (_nbits _w : Nat) : Option Instr := none

end Sys2Proof
end

