-- ==== Sys2Proof/Machine/Ecc.lean ====
section
/-! DEFINITION. The W40 word: check bits, poison and the read rule (15 R373 to R376). -/

namespace Sys2Proof.Machine

/-- A 40-bit stored word (R373). -/
abbrev W40 := BitVec 40

/-- Number of bits set in a natural number below 64. -/
def popCount6 (n : Nat) : Nat := ((List.range 6).filter fun i => n.testBit i).length

/-- h(0) to h(32): the first 33 six-bit values with at least two bits set (R374). -/
def eccCodes : List Nat := ((List.range 64).filter fun n => decide (2 ≤ popCount6 n)).take 33

/-- The 33 protected bits: data, then poison (R374). -/
def eccProtected (data : W32) (poison : Bool) : List Bool :=
  (List.range 32).map data.getLsbD ++ [poison]

/-- Exclusive OR of a list of bits. -/
def xorAll (bs : List Bool) : Bool := bs.foldl xor false

/-- c0 to c5 (R374). -/
def eccLow (data : W32) (poison : Bool) : List Bool :=
  let bs := (eccProtected data poison).zip eccCodes
  (List.range 6).map fun i => xorAll (bs.map fun (b, h) => b && h.testBit i)

/-- A list of bits as a number, bit 0 first. -/
def bitsNat : List Bool → Nat
  | [] => 0
  | b :: bs => (if b then 1 else 0) + 2 * bitsNat bs

/-- The seven check bits c0 to c6 (R374). -/
def eccCheck (data : W32) (poison : Bool) : BitVec 7 :=
  let low := eccLow data poison
  BitVec.ofNat 7 (bitsNat (low ++ [xorAll (eccProtected data poison ++ low)]))

/-- A word with valid check bits (R373). -/
def w40 (data : W32) (poison : Bool) : W40 := BitVec.ofBool poison ++ eccCheck data poison ++ data

/-- The data bits. -/
def W40.data (w : W40) : W32 := w.extractLsb' 0 32

/-- The poison bit. -/
def W40.poison (w : W40) : Bool := w.getLsbD 39

/-- How a read resolves (R375). -/
inductive EccRead where
  | clean (data : W32) (poison : Bool)
  | corrected (data : W32) (poison : Bool)
  | uncorrectable
  deriving DecidableEq, Repr

/-- R375. -/
def eccRead (w : W40) : EccRead :=
  let data := W40.data w
  let poison := W40.poison w
  let stored := (w.extractLsb' 32 6).toNat
  let s := bitsNat (eccLow data poison) ^^^ stored
  let p := xorAll ((List.range 40).map w.getLsbD)
  if s = 0 then (if p then .corrected data poison else .clean data poison)
  else if !p then .uncorrectable
  else
    match eccCodes.findIdx? (· == s) with
    | some 32 => .corrected data (!poison)
    | some j => .corrected (data ^^^ (1#32 <<< j)) poison
    | none => if popCount6 s = 1 then .corrected data poison else .uncorrectable

end Sys2Proof.Machine
end

