-- ==== Sys2Proof/Machine/Crypto.lean ====
section
/-! DEFINITION. SHA-384, ECDSA P-384, CRC-64/ECMA-182 and CRC-32C: the manual names them (03 R68, 21 R572, 17 R431,
16 R409) and does not write their algorithms; these are the published standards' (PRESUMED, log 7). -/

namespace Sys2Proof.Machine

/-- Round constants of SHA-384 and SHA-512, entries 0 to 9. -/
def shaK0 : List W64 := [
  0x428a2f98d728ae22#64, 0x7137449123ef65cd#64, 0xb5c0fbcfec4d3b2f#64, 0xe9b5dba58189dbbc#64,
  0x3956c25bf348b538#64, 0x59f111f1b605d019#64, 0x923f82a4af194f9b#64, 0xab1c5ed5da6d8118#64,
  0xd807aa98a3030242#64, 0x12835b0145706fbe#64]

/-- Round constants of SHA-384 and SHA-512, entries 10 to 19. -/
def shaK1 : List W64 := [
  0x243185be4ee4b28c#64, 0x550c7dc3d5ffb4e2#64, 0x72be5d74f27b896f#64, 0x80deb1fe3b1696b1#64,
  0x9bdc06a725c71235#64, 0xc19bf174cf692694#64, 0xe49b69c19ef14ad2#64, 0xefbe4786384f25e3#64,
  0x0fc19dc68b8cd5b5#64, 0x240ca1cc77ac9c65#64]

/-- Round constants of SHA-384 and SHA-512, entries 20 to 29. -/
def shaK2 : List W64 := [
  0x2de92c6f592b0275#64, 0x4a7484aa6ea6e483#64, 0x5cb0a9dcbd41fbd4#64, 0x76f988da831153b5#64,
  0x983e5152ee66dfab#64, 0xa831c66d2db43210#64, 0xb00327c898fb213f#64, 0xbf597fc7beef0ee4#64,
  0xc6e00bf33da88fc2#64, 0xd5a79147930aa725#64]

/-- Round constants of SHA-384 and SHA-512, entries 30 to 39. -/
def shaK3 : List W64 := [
  0x06ca6351e003826f#64, 0x142929670a0e6e70#64, 0x27b70a8546d22ffc#64, 0x2e1b21385c26c926#64,
  0x4d2c6dfc5ac42aed#64, 0x53380d139d95b3df#64, 0x650a73548baf63de#64, 0x766a0abb3c77b2a8#64,
  0x81c2c92e47edaee6#64, 0x92722c851482353b#64]

/-- Round constants of SHA-384 and SHA-512, entries 40 to 49. -/
def shaK4 : List W64 := [
  0xa2bfe8a14cf10364#64, 0xa81a664bbc423001#64, 0xc24b8b70d0f89791#64, 0xc76c51a30654be30#64,
  0xd192e819d6ef5218#64, 0xd69906245565a910#64, 0xf40e35855771202a#64, 0x106aa07032bbd1b8#64,
  0x19a4c116b8d2d0c8#64, 0x1e376c085141ab53#64]

/-- Round constants of SHA-384 and SHA-512, entries 50 to 59. -/
def shaK5 : List W64 := [
  0x2748774cdf8eeb99#64, 0x34b0bcb5e19b48a8#64, 0x391c0cb3c5c95a63#64, 0x4ed8aa4ae3418acb#64,
  0x5b9cca4f7763e373#64, 0x682e6ff3d6b2b8a3#64, 0x748f82ee5defb2fc#64, 0x78a5636f43172f60#64,
  0x84c87814a1f0ab72#64, 0x8cc702081a6439ec#64]

/-- Round constants of SHA-384 and SHA-512, entries 60 to 69. -/
def shaK6 : List W64 := [
  0x90befffa23631e28#64, 0xa4506cebde82bde9#64, 0xbef9a3f7b2c67915#64, 0xc67178f2e372532b#64,
  0xca273eceea26619c#64, 0xd186b8c721c0c207#64, 0xeada7dd6cde0eb1e#64, 0xf57d4f7fee6ed178#64,
  0x06f067aa72176fba#64, 0x0a637dc5a2c898a6#64]

/-- Round constants of SHA-384 and SHA-512, entries 70 to 79. -/
def shaK7 : List W64 := [
  0x113f9804bef90dae#64, 0x1b710b35131c471b#64, 0x28db77f523047d84#64, 0x32caab7b40c72493#64,
  0x3c9ebe0a15c9bebc#64, 0x431d67c49c100d4c#64, 0x4cc5d4becb3e42b6#64, 0x597f299cfc657e2a#64,
  0x5fcb6fab3ad6faec#64, 0x6c44198c4a475817#64]

/-- Round constants of SHA-384 and SHA-512. -/
def shaK : List W64 := shaK0 ++ shaK1 ++ shaK2 ++ shaK3 ++ shaK4 ++ shaK5 ++ shaK6 ++ shaK7

/-- Initial hash value of SHA-384. -/
def shaInit : List W64 := [
  0xcbbb9d5dc1059ed8#64, 0x629a292a367cd507#64, 0x9159015a3070dd17#64, 0x152fecd8f70e5939#64,
  0x67332667ffc00b31#64, 0x8eb44a8768581511#64, 0xdb0c2e0d64f98fa7#64, 0x47b5481dbefa4fa4#64]

/-- The big-endian 64-bit words of a block. -/
def shaWords : Nat → List Byte → List W64
  | 0, _ => []
  | n + 1, bs => BitVec.ofNat 64 (beNat (bs.take 8)) :: shaWords n (bs.drop 8)

/-- The message schedule, newest word first, extended by `n` words. -/
def shaExpand : Nat → List W64 → List W64
  | 0, ws => ws
  | n + 1, ws =>
    let w2 := ws.getD 1 0
    let w7 := ws.getD 6 0
    let w15 := ws.getD 14 0
    let w16 := ws.getD 15 0
    let s0 := w15.rotateRight 1 ^^^ w15.rotateRight 8 ^^^ (w15 >>> 7)
    let s1 := w2.rotateRight 19 ^^^ w2.rotateRight 61 ^^^ (w2 >>> 6)
    shaExpand n ((s1 + w7 + s0 + w16) :: ws)

/-- One round: the eight working variables, a round constant and a schedule word. -/
def shaRound (v : List W64) (kw : W64 × W64) : List W64 :=
  let a := v.getD 0 0
  let b := v.getD 1 0
  let c := v.getD 2 0
  let d := v.getD 3 0
  let e := v.getD 4 0
  let f := v.getD 5 0
  let g := v.getD 6 0
  let h := v.getD 7 0
  let s1 := e.rotateRight 14 ^^^ e.rotateRight 18 ^^^ e.rotateRight 41
  let ch := (e &&& f) ^^^ (~~~e &&& g)
  let t1 := h + s1 + ch + kw.1 + kw.2
  let s0 := a.rotateRight 28 ^^^ a.rotateRight 34 ^^^ a.rotateRight 39
  let maj := (a &&& b) ^^^ (a &&& c) ^^^ (b &&& c)
  [t1 + (s0 + maj), a, b, c, d + t1, e, f, g]

/-- One block of 128 bytes taken into the hash. -/
def shaBlock (h : List W64) (block : List Byte) : List W64 :=
  let ws := (shaExpand 64 (shaWords 16 block).reverse).reverse
  List.zipWith (· + ·) h ((shaK.zip ws).foldl shaRound h)

/-- The blocks of a padded message. -/
def shaBlocks : Nat → List W64 → List Byte → List W64
  | 0, h, _ => h
  | n + 1, h, bs => shaBlocks n (shaBlock h (bs.take 128)) (bs.drop 128)

/-- The padding: 0x80, zeros, and the bit length in 16 big-endian bytes. -/
def shaPad (bs : List Byte) : List Byte :=
  let z := (128 - (bs.length + 17) % 128) % 128
  bs ++ [0x80] ++ List.replicate z 0 ++ (toLe 16 (8 * bs.length)).reverse

/-- SHA-384: 48 bytes. -/
def sha384 (bs : List Byte) : List Byte :=
  let p := shaPad bs
  ((shaBlocks (p.length / 128) shaInit p).take 6).flatMap fun w => (toLe 8 w.toNat).reverse

/-- b^e mod m, over the `fuel` low bits of e. -/
def powMod (m : Nat) : Nat → Nat → Nat → Nat → Nat
  | 0, _, _, acc => acc
  | fuel + 1, b, e, acc => powMod m fuel (b * b % m) (e / 2) (if e % 2 = 1 then acc * b % m else acc)

/-- The field prime of P-384. -/
def p384P : Nat := 2 ^ 384 - 2 ^ 128 - 2 ^ 96 + 2 ^ 32 - 1

/-- The order of the base point. -/
def p384N : Nat :=
  0xFFFFFFFFFFFFFFFFFFFFFFFFFFFFFFFFFFFFFFFFFFFFFFFFC7634D81F4372DDF581A0DB248B0A77AECEC196ACCC52973

/-- The curve's constant term. -/
def p384B : Nat :=
  0xB3312FA7E23EE7E4988E056BE3F82D19181D9C6EFE8141120314088F5013875AC656398D8A2ED19D2A85C8EDD3EC2AEF

/-- The base point. -/
def p384G : Nat × Nat :=
  (0xAA87CA22BE8B05378EB1C71EF320AD746E1D3B628BA79B9859F741E082542A385502F25DBF55296C3A545E3872760AB7,
   0x3617DE4A96262C6F5D9E98BF9292DC29F8F41DBD289A147CE9DA3113B5F0B8C00A60B1CE1D7E819D7A431D7C90EA0E5F)

/-- Inverse modulo a prime. -/
def invMod (m a : Nat) : Nat := powMod m 384 (a % m) (m - 2) 1

/-- Sum of two points; none is the point at infinity. -/
def ecAdd : Option (Nat × Nat) → Option (Nat × Nat) → Option (Nat × Nat)
  | none, q => q
  | p, none => p
  | some (x1, y1), some (x2, y2) =>
    if x1 = x2 && (y1 + y2) % p384P = 0 then none else
    let lam := if x1 = x2 then (3 * x1 * x1 + (p384P - 3)) * invMod p384P (2 * y1) % p384P
      else (y2 + p384P - y1) * invMod p384P (x2 + p384P - x1) % p384P
    let x := (lam * lam + 2 * p384P - x1 - x2) % p384P
    some (x, (lam * (x1 + p384P - x) + p384P - y1) % p384P)

/-- k times a point, over the `fuel` low bits of k. -/
def ecMul : Nat → Nat → Option (Nat × Nat) → Option (Nat × Nat) → Option (Nat × Nat)
  | 0, _, _, acc => acc
  | fuel + 1, k, p, acc => ecMul fuel (k / 2) (ecAdd p p) (if k % 2 = 1 then ecAdd acc p else acc)

/-- Whether a public key lies on the curve. -/
def onCurve (q : Nat × Nat) : Bool :=
  decide (q.1 < p384P) && decide (q.2 < p384P) &&
  q.2 * q.2 % p384P == (q.1 * q.1 * q.1 + (p384P - 3) * q.1 + p384B) % p384P

/-- Verify the signature (r, s) by public key `q` over a SHA-384 digest. -/
def ecdsaVerify (q : Nat × Nat) (digest : List Byte) (r s : Nat) : Bool :=
  if !onCurve q || r = 0 || p384N ≤ r || s = 0 || p384N ≤ s then false else
  let w := invMod p384N s
  let u1 := beNat digest * w % p384N
  let u2 := r * w % p384N
  match ecAdd (ecMul 384 u1 (some p384G) none) (ecMul 384 u2 (some q) none) with
  | none => false
  | some (x, _) => x % p384N == r

/-- A bit-reflected check over bytes: `poly` reflected, all ones before and after. -/
def crcReflected (w : Nat) (poly : BitVec w) (bs : List Byte) : BitVec w :=
  let one (c : BitVec w) : BitVec w := if c.getLsbD 0 then (c >>> 1) ^^^ poly else c >>> 1
  ~~~bs.foldl (fun c b =>
    one (one (one (one (one (one (one (one (c ^^^ b.zeroExtend w))))))))) (BitVec.allOnes w)

/-- R431: CRC-64 with polynomial 0x42F0_E1EB_A9EA_3693, reflected. -/
def crc64 (bs : List Byte) : W64 := crcReflected 64 0xC96C5795D7870F42#64 bs

/-- CRC-32C (R409, R411): polynomial 0x1EDC_6F41, reflected (PRESUMED, log 7). -/
def crc32c (bs : List Byte) : W32 := crcReflected 32 0x82F63B78#32 bs

end Sys2Proof.Machine
end

