-- ==== Sys2Proof/Machine/Text.lean ====
section
/-! DEFINITION. The text engine: UTF-8, NFKC, lattice tokenizer, detokenizer, stop strings, grammar, packer (10). -/

namespace Sys2Proof.Machine

/-! ### Parsed items -/

/-- NORM_TABLES (R230): combining-class ranges, decompositions (already taken from the pool), composition pairs. -/
structure NormTables where
  unicode : Nat × Nat × Nat
  ccc : List (Nat × Nat × Nat)
  decomp : List (Nat × List Nat)
  comp : List (Nat × Nat × Nat)
  deriving DecidableEq, Repr

/-- LATTICE_PARAMS (R231); none is "not set". -/
structure LatticeParams where
  nfkc : Bool
  byteFallback : Bool
  addPrefixSpace : Bool
  spaceSub : Nat
  unkId : Nat
  unkScore : Int
  bosId : Option Nat
  eosId : Option Nat
  maxTokens : Nat
  deriving DecidableEq, Repr

/-- The kinds of a piece (R232). -/
inductive PieceKind where
  | normal
  | control
  | byte
  | unused
  deriving DecidableEq, Repr

/-- One VOCAB record (R232). -/
structure Piece where
  str : List Byte
  kind : PieceKind
  score : Int
  deriving DecidableEq, Repr

/-- A grammar transition (R242). -/
structure GramTrans where
  src : Nat
  cls : Nat
  /-- A symbol, or none for any top. -/
  top : Option Nat
  op : Nat
  sym : Nat
  dst : Nat
  deriving DecidableEq, Repr

/-- A grammar (R242). -/
structure Grammar where
  maxDepth : Nat
  start : Nat
  classes : List Nat
  accept : List Nat
  trans : List GramTrans
  deriving DecidableEq, Repr

/-- A configuration of the automaton (R243): state and stack, top first. -/
structure GramConfig where
  q : Nat
  stack : List Nat
  deriving DecidableEq, Repr

/-- A template segment (R244). -/
inductive Segment where
  | literal (toks : List Nat)
  | query
  | passages
  deriving DecidableEq, Repr

/-- A template (R244). -/
structure Template where
  budgetDefault : Nat
  maxPassages : Nat
  cut : Bool
  minTail : Nat
  passageMax : Nat
  segments : List Segment
  markers : List (List Nat)
  pre : List Nat
  post : List Nat
  deriving DecidableEq, Repr

/-! ### UTF-8 intake (R226, R227) -/

/-- What a lead byte asks for: continuation bytes, bounds of the first of them, and its own bits. -/
def utf8Lead (b : Nat) : Option (Nat × Nat × Nat × Nat) :=
  if 0xC2 ≤ b && b ≤ 0xDF then some (1, 0x80, 0xBF, b % 32)
  else if b = 0xE0 then some (2, 0xA0, 0xBF, 0)
  else if b = 0xED then some (2, 0x80, 0x9F, 13)
  else if 0xE1 ≤ b && b ≤ 0xEF then some (2, 0x80, 0xBF, b % 16)
  else if b = 0xF0 then some (3, 0x90, 0xBF, 0)
  else if 0xF1 ≤ b && b ≤ 0xF3 then some (3, 0x80, 0xBF, b % 8)
  else if b = 0xF4 then some (3, 0x80, 0x8F, 4)
  else none

/-- Continuation bytes taken: the code point if all came, and the bytes consumed. -/
def utf8Cont : Nat → Nat → Nat → Nat → Nat → List Nat → Option Nat × Nat
  | 0, _, _, acc, used, _ => (some acc, used)
  | _ + 1, _, _, _, used, [] => (none, used)
  | n + 1, lo, hi, acc, used, b :: bs =>
    if lo ≤ b && b ≤ hi then utf8Cont n 0x80 0xBF (acc * 64 + b % 64) (used + 1) bs else (none, used)

/-- The next character: its code point, or none for a maximal subpart of an ill-formed sequence; bytes consumed. -/
def utf8Next : List Nat → Option Nat × Nat
  | [] => (none, 0)
  | b :: bs =>
    if b < 0x80 then (some b, 1) else
    match utf8Lead b with
    | none => (none, 1)
    | some (n, lo, hi, acc) => utf8Cont n lo hi acc 1 bs

/-- The code points of a payload and the count of maximal subparts replaced by U+FFFD (R226, R227). -/
def utf8Decode : Nat → List Nat → List Nat × Nat
  | 0, _ => ([], 0)
  | fuel + 1, bs =>
    if bs.isEmpty then ([], 0) else
    let r := utf8Next bs
    let t := utf8Decode fuel (bs.drop r.2)
    match r.1 with
    | some c => (c :: t.1, t.2)
    | none => (0xFFFD :: t.1, t.2 + 1)

/-- A whole payload decoded. -/
def decodeText (bs : List Byte) : List Nat × Nat := utf8Decode bs.length (bs.map (·.toNat))

/-- The UTF-8 bytes of a code point. -/
def utf8Encode (c : Nat) : List Byte :=
  let b (n : Nat) : Byte := BitVec.ofNat 8 n
  if c < 0x80 then [b c]
  else if c < 0x800 then [b (0xC0 + c / 64), b (0x80 + c % 64)]
  else if c < 0x10000 then [b (0xE0 + c / 4096), b (0x80 + c / 64 % 64), b (0x80 + c % 64)]
  else [b (0xF0 + c / 262144), b (0x80 + c / 4096 % 64), b (0x80 + c / 64 % 64), b (0x80 + c % 64)]

/-- Whether bytes are well-formed UTF-8 (R232). -/
def utf8Valid (bs : List Byte) : Bool := (decodeText bs).2 == 0

/-- Whether bytes end inside a character: some tail of at most 3 bytes is a proper prefix of one (R238). -/
def endsInsideChar (bs : List Byte) : Bool :=
  [1, 2, 3].any fun n =>
    let t := (bs.drop (bs.length - n)).map (·.toNat)
    decide (n ≤ bs.length) &&
    match t with
    | [] => false
    | b :: r =>
      match utf8Lead b with
      | none => false
      | some (k, lo, hi, acc) =>
        let c := utf8Cont k lo hi acc 1 r
        c.1 == none && c.2 == t.length

/-! ### Normalization (R228) -/

/-- The canonical combining class of a code point (R230). -/
def NormTables.cccOf (t : NormTables) (c : Nat) : Nat :=
  match t.ccc.find? fun r => decide (r.1 ≤ c) && decide (c ≤ r.2.1) with
  | some r => r.2.2
  | none => 0

/-- Hangul syllable decomposition, as the Unicode Standard states (R228; PRESUMED constants, log 7). -/
def hangulDecomp (c : Nat) : Option (List Nat) :=
  if 0xAC00 ≤ c && c < 0xAC00 + 11172 then
    let s := c - 0xAC00
    let lv := [0x1100 + s / 588, 0x1161 + s % 588 / 28]
    some (if s % 28 = 0 then lv else lv ++ [0x11A7 + s % 28])
  else none

/-- Hangul composition of a pair. -/
def hangulComp (a b : Nat) : Option Nat :=
  if 0x1100 ≤ a && a < 0x1113 && 0x1161 ≤ b && b < 0x1176 then
    some (0xAC00 + ((a - 0x1100) * 21 + (b - 0x1161)) * 28)
  else if 0xAC00 ≤ a && a < 0xAC00 + 11172 && (a - 0xAC00) % 28 == 0 && 0x11A7 < b && b < 0x11C3 then
    some (a + (b - 0x11A7))
  else none

/-- Step 1: each character looked up once. -/
def NormTables.decompose (t : NormTables) (c : Nat) : List Nat :=
  match hangulDecomp c with
  | some d => d
  | none =>
    match t.decomp.find? fun e => e.1 == c with
    | some e => e.2
    | none => [c]

/-- Step 2: the Stream-Safe Text Format; the text and the U+034F inserted. -/
def NormTables.streamSafe (t : NormTables) : Nat → List Nat → List Nat × Nat
  | _, [] => ([], 0)
  | run, c :: cs =>
    if t.cccOf c = 0 then
      let r := t.streamSafe 0 cs
      (c :: r.1, r.2)
    else if run = 30 then
      let r := t.streamSafe 1 cs
      (0x034F :: c :: r.1, r.2 + 1)
    else
      let r := t.streamSafe (run + 1) cs
      (c :: r.1, r.2)

/-- Step 3: runs of non-starters in the order of their classes, equals in place. `run` is the run so far. -/
def NormTables.reorder (t : NormTables) : List Nat → List Nat → List Nat
  | run, [] => run
  | run, c :: cs =>
    if t.cccOf c = 0 then run ++ c :: t.reorder [] cs
    else t.reorder (insertBy (fun a b => decide (t.cccOf a ≤ t.cccOf b)) c run) cs

/-- The composition of a pair: Hangul, or a pair of the table. -/
def NormTables.pair (t : NormTables) (a b : Nat) : Option Nat :=
  match hangulComp a b with
  | some c => some c
  | none => (t.comp.find? fun e => e.1 == a && e.2.1 == b).map (·.2.2)

/-- Step 4: canonical composition. `st` is the last starter, `mid` what has followed it (in order), `last` the class of
the last character kept after it. -/
def NormTables.compose (t : NormTables) : Option Nat → List Nat → Nat → List Nat → List Nat
  | st, mid, _, [] => st.toList ++ mid
  | none, mid, _, c :: cs =>
    if t.cccOf c = 0 then mid ++ t.compose (some c) [] 0 cs else t.compose none (mid ++ [c]) (t.cccOf c) cs
  | some s, mid, last, c :: cs =>
    let cc := t.cccOf c
    let blocked := !mid.isEmpty && (last == 0 || decide (cc ≤ last))
    match (if blocked then none else t.pair s c) with
    | some d => t.compose (some d) mid last cs
    | none =>
      if cc = 0 then s :: mid ++ t.compose (some c) [] 0 cs
      else t.compose (some s) (mid ++ [c]) cc cs

/-- The whole of R228: the normalized code points and the U+034F inserted. -/
def normalizeText (t : NormTables) (p : LatticeParams) (cs : List Nat) : List Nat × Nat :=
  let n := if p.nfkc then
      let ss := t.streamSafe 0 (cs.flatMap t.decompose)
      (t.compose none [] 0 (t.reorder [] ss.1), ss.2)
    else (cs, 0)
  let pre := if p.addPrefixSpace && n.1.head? != some 0x20 then 0x20 :: n.1 else n.1
  (if p.spaceSub = 0 then pre else pre.map fun c => if c = 0x20 then p.spaceSub else c, n.2)

/-! ### The lattice (R233 to R235) -/

/-- An edge of the lattice: its bytes, its score, and its piece; no piece is an unknown edge. -/
structure Edge where
  len : Nat
  score : Int
  piece : Option Nat
  deriving DecidableEq, Repr

/-- The NORMAL piece that spells the bytes. -/
def findPiece (v : List Piece) (bs : List Byte) : Option (Nat × Piece) :=
  ((v.mapIdx fun i p => (i, p)).find? fun x => x.2.kind == .normal && x.2.str == bs)

/-- A node of the lattice: how many bytes lie before it, the best total, the chosen edge and its bytes, and the bytes of
the character that ends there. -/
structure LatNode where
  pos : Nat
  best : Int
  edge : Edge
  bytes : List Byte
  ch : List Byte
  deriving DecidableEq, Repr

/-- The better of two ways into a node: higher total, then the longer edge (R233). -/
def betterNode (a b : LatNode) : Bool :=
  decide (a.best < b.best) || (a.best == b.best && decide (a.edge.len < b.edge.len))

/-- Ways into the boundary after the character `ch`, from each earlier node, newest first: a piece that the bytes
between spell, or the unknown edge of a character that is no piece (R233, R234). `tail` holds those bytes. -/
def waysIn (v : List Piece) (unkScore : Int) (ch : List Byte) : List LatNode → List Byte → List LatNode
  | [], _ => []
  | n :: ns, tail =>
    let here : List LatNode :=
      match findPiece v tail with
      | some (i, p) => [⟨n.pos + tail.length, n.best + p.score, ⟨tail.length, p.score, some i⟩, tail, ch⟩]
      | none =>
        if tail.length = ch.length then
          [⟨n.pos + ch.length, n.best + unkScore, ⟨ch.length, unkScore, none⟩, ch, ch⟩]
        else []
    here ++ (if tail.length < 64 then waysIn v unkScore ch ns (n.ch ++ tail) else [])

/-- The nodes of the whole text, newest first. -/
def latticeRun (v : List Piece) (unkScore : Int) (nodes : List LatNode) (chs : List (List Byte)) : List LatNode :=
  chs.foldl (fun ns ch =>
    match waysIn v unkScore ch ns ch with
    | [] => ns
    | w :: ws => ws.foldl (fun a b => if betterNode a b then b else a) w :: ns) nodes

/-- The chosen edges traced back from position `pos`, put in text order. -/
def traceBack : List LatNode → Nat → List LatNode → List LatNode
  | [], _, acc => acc
  | n :: ns, pos, acc =>
    if n.pos = pos && n.edge.len != 0 then traceBack ns (pos - n.edge.len) (n :: acc) else traceBack ns pos acc

/-- The BYTE piece of a byte (R232). -/
def bytePiece (v : List Piece) (b : Byte) : Nat :=
  (v.findIdx? fun p => p.kind == .byte && p.str == [b]).getD 0

/-- The tokens an edge emits and the unknown edges counted (R234). -/
def edgeTokens (p : LatticeParams) (v : List Piece) (n : LatNode) : List Nat :=
  match n.edge.piece with
  | some i => [i]
  | none => if p.byteFallback then n.bytes.map (bytePiece v) else [p.unkId]

/-- What tokenizing a text gives: tokens (without bos and eos), and the events counted in TXT_COUNTS. -/
structure TokResult where
  tokens : List Nat
  utf8Invalid : Nat
  cgj : Nat
  unk : Nat
  /-- R235 refuses the text. -/
  refused : Bool
  deriving DecidableEq, Repr

/-- R226 to R235 on one payload. -/
def tokenizeText (t : NormTables) (p : LatticeParams) (v : List Piece) (payload : List Byte) : TokResult :=
  let d := decodeText payload
  let n := normalizeText t p d.1
  let chs := n.1.map utf8Encode
  let len := (chs.map List.length).sum
  if 262144 < len then ⟨[], d.2, n.2, 0, true⟩ else
  let nodes := latticeRun v p.unkScore [⟨0, 0, ⟨0, 0, none⟩, [], []⟩] chs
  let path := traceBack nodes len []
  let toks := path.flatMap (edgeTokens p v)
  ⟨toks, d.2, n.2, (path.filter fun x => x.edge.piece == none).length,
   toks.isEmpty || decide (p.maxTokens < toks.length)⟩

/-- Encoder input: bos, the tokens, eos, where set (R234). -/
def encoderInput (p : LatticeParams) (toks : List Nat) : List Nat := p.bosId.toList ++ toks ++ p.eosId.toList

/-! ### Detokenizing and stop strings (R237, R240, R241) -/

/-- Replace every appearance of `pat` (not empty) by one space, `fuel` bytes at most. -/
def replaceBytes (pat : List Byte) : Nat → List Byte → List Byte
  | 0, bs => bs
  | _, [] => []
  | fuel + 1, b :: bs =>
    if !pat.isEmpty && pat.isPrefixOf (b :: bs) then 0x20 :: replaceBytes pat fuel ((b :: bs).drop pat.length)
    else b :: replaceBytes pat fuel bs

/-- The bytes of one emitted token (R237). -/
def detokenize (p : LatticeParams) (v : List Piece) (id : Nat) : List Byte :=
  match v[id]? with
  | none => []
  | some q =>
    match q.kind with
    | .normal => if p.spaceSub = 0 then q.str else replaceBytes (utf8Encode p.spaceSub) q.str.length q.str
    | .byte => q.str
    | _ => []

/-- Where `pat` first occurs in `bs`, counted from `at0`. -/
def occursAt (pat : List Byte) : Nat → List Byte → Option Nat
  | n, [] => if pat.isEmpty then some n else none
  | n, b :: bs => if pat.isPrefixOf (b :: bs) then some n else occursAt pat (n + 1) bs

/-- The earliest occurrence of any stop string. -/
def earliestStop (stops : List (List Byte)) (h : List Byte) : Option Nat :=
  (stops.filterMap fun p => occursAt p 0 h).foldl (fun a b =>
    match a with
    | none => some b
    | some x => some (min x b)) none

/-- Whether `t` is a proper prefix of a stop string. -/
def properPrefix (stops : List (List Byte)) (t : List Byte) : Bool :=
  stops.any fun p => t.isPrefixOf p && decide (t.length < p.length)

/-- The length of the longest suffix of `h` that is a proper prefix of a stop string; the empty suffix always is. -/
def heldLen (stops : List (List Byte)) : List Byte → Nat
  | [] => 0
  | b :: bs => if properPrefix stops (b :: bs) then bs.length + 1 else heldLen stops bs

/-- R240 on the held buffer with the token's bytes appended: released bytes, bytes held, whether the request stops. -/
def holdBack (stops : List (List Byte)) (h : List Byte) : List Byte × List Byte × Bool :=
  match earliestStop stops h with
  | some s => (h.take s, [], true)
  | none => let k := h.length - heldLen stops h; (h.take k, h.drop k, false)

/-! ### Grammar (R243) -/

/-- Whether a transition can apply to a stack. -/
def GramTrans.applies (g : Grammar) (t : GramTrans) (stack : List Nat) : Bool :=
  if t.op = 1 then decide (stack.length < g.maxDepth) else if t.op = 2 then !stack.isEmpty else true

/-- The transition a token takes: an exact top is preferred over any top. -/
def Grammar.next (g : Grammar) (c : GramConfig) (tok : Nat) : Option GramTrans :=
  match g.classes[tok]? with
  | none => none
  | some cls =>
    let ok := g.trans.filter fun t => t.src == c.q && t.cls == cls && t.applies g c.stack
    match ok.find? fun t => t.top.isSome && t.top == c.stack.head? with
    | some t => some t
    | none => ok.find? fun t => t.top == none

/-- Whether a token is allowed; `eos` is the end-of-sequence token. -/
def Grammar.allows (g : Grammar) (eos : Option Nat) (c : GramConfig) (tok : Nat) : Bool :=
  if eos = some tok then g.accept.contains c.q && c.stack.isEmpty else (g.next c tok).isSome

/-- The configuration after a token is emitted. -/
def Grammar.step (g : Grammar) (c : GramConfig) (tok : Nat) : GramConfig :=
  match g.next c tok with
  | none => c
  | some t =>
    ⟨t.dst, if t.op = 1 then t.sym :: c.stack else if t.op = 2 then c.stack.drop 1 else c.stack⟩

/-! ### Packing (R245) -/

/-- A passage as the packer meets it. -/
inductive PackPassage where
  | ready (toks : List Nat)
  /-- It cannot be read, or is deleted. -/
  | skipped
  /-- R236: its digest differs. -/
  | mismatch
  deriving DecidableEq, Repr

/-- The running state of the packer. -/
structure PackState where
  used : Nat
  placed : List (W64 × List Nat)
  packSkip : Nat
  tokMismatch : Nat
  done : Bool
  deriving DecidableEq, Repr

/-- The tokens that passage number `i` becomes, around its own tokens (R245). -/
def Template.around (t : Template) (i : Nat) (toks : List Nat) : List Nat :=
  t.pre ++ (if t.markers.isEmpty then [] else t.markers.getD i []) ++ toks ++ t.post

/-- One turn of the loop of R245. -/
def packOne (t : Template) (budget : Nat) (s : PackState) (p : W64 × PackPassage) : PackState :=
  if s.done then s
  else if s.placed.length = t.maxPassages then { s with done := true }
  else
    match p.2 with
    | .skipped => { s with packSkip := s.packSkip + 1 }
    | .mismatch => { s with tokMismatch := s.tokMismatch + 1 }
    | .ready toks =>
      let ovh := t.pre.length + t.post.length +
        (if t.markers.isEmpty then 0 else (t.markers.getD s.placed.length []).length)
      let n := min toks.length t.passageMax
      if s.used + ovh + n ≤ budget then
        { s with used := s.used + ovh + n, placed := s.placed ++ [(p.1, toks.take n)] }
      else if t.cut && decide (s.used + ovh + t.minTail ≤ budget) then
        { s with used := budget, placed := s.placed ++ [(p.1, toks.take (budget - s.used - ovh))], done := true }
      else { s with done := true }

/-- Literal tokens of a template, and whether it holds a QUERY segment. -/
def Template.literals (t : Template) : Nat :=
  (t.segments.map fun s => match s with
    | .literal xs => xs.length
    | _ => 0).sum

/-- What packing gives: none where R245 refuses; else the tokens, the placed ids, and the counts. -/
structure PackResult where
  refused : Bool
  tokens : List Nat
  placed : List W64
  packSkip : Nat
  tokMismatch : Nat
  deriving DecidableEq, Repr

/-- R245. `query` holds the tokens of a QUERY segment: none for PACK. -/
def packPrompt (t : Template) (tokenBudget : Nat) (query : List Nat) (ps : List (W64 × PackPassage)) : PackResult :=
  let budget := if tokenBudget = 0 then t.budgetDefault else tokenBudget
  let used := t.literals + (if t.segments.contains .query then query.length else 0)
  if budget < used then ⟨true, [], [], 0, 0⟩ else
  let s := ps.foldl (packOne t budget) ⟨used, [], 0, 0, false⟩
  let body := (s.placed.mapIdx fun i p => t.around i p.2).flatten
  let toks := t.segments.flatMap fun g => match g with
    | .literal xs => xs
    | .query => query
    | .passages => body
  ⟨false, toks, s.placed.map (·.1), s.packSkip, s.tokMismatch⟩

end Sys2Proof.Machine
end

