-- ==== Sys2Proof/Machine/PlanImage.lean ====
section
/-! DEFINITION. Plan images: their layout, and how their records and bodies read (03 R39 to R67, and the bodies of 08 to
14 and 18). Every parsed record keeps `at`, its byte offset in the image, for R593. -/

namespace Sys2Proof.Machine

/-- Little-endian fields of the image. -/
def u8 (b : List Byte) (o : Nat) : Nat := fieldAt b o 1
def u16 (b : List Byte) (o : Nat) : Nat := fieldAt b o 2
def u24 (b : List Byte) (o : Nat) : Nat := fieldAt b o 3
def u32 (b : List Byte) (o : Nat) : Nat := fieldAt b o 4
def u64 (b : List Byte) (o : Nat) : Nat := fieldAt b o 8

/-- A 32-bit field as a word. -/
def w32At (b : List Byte) (o : Nat) : W32 := BitVec.ofNat 32 (u32 b o)

/-- A 32-bit field as a signed integer. -/
def i32At (b : List Byte) (o : Nat) : Int := (w32At b o).toInt

/-- A directory entry (R42). -/
structure SecEnt where
  off : Nat
  type : Nat
  required : Bool
  start : Nat
  length : Nat
  count : Nat
  recSize : Nat
  deriving DecidableEq, Repr

/-- A body descriptor of R62 with its body. `sec` is its section's type. -/
structure ItemDesc where
  sec : Nat
  off : Nat
  id : Nat
  kind : Nat
  bodyAt : Nat
  bodyLen : Nat
  body : List Byte
  deriving DecidableEq, Repr

/-- A stage record (R48). -/
structure Stage where
  off : Nat
  id : Nat
  kind : Nat
  beMin : Nat
  beMax : Nat
  place : Nat
  act : Nat
  wt : Nat
  scaleMode : Nat
  model : Nat
  microprog : Nat
  queueDepth : Nat
  batchMax : Nat
  coll : Nat
  deriving DecidableEq, Repr

/-- half_pref (R48): 0 ANY, 1 WEST, 2 EAST, 3 SPLIT. -/
def Stage.half (s : Stage) : Nat := s.place % 4
/-- shape (R48): 0 NORMAL, 1 WIDE. -/
def Stage.shape (s : Stage) : Nat := s.place / 4 % 4

/-- One hop of a route (R53). -/
structure Hop where
  stage : Nat
  par : Bool
  deriving DecidableEq, Repr

/-- A route record (R53). -/
structure Route where
  off : Nat
  id : Nat
  hopCount : Nat
  typeMask : Nat
  hops : List Hop
  deriving DecidableEq, Repr

/-- A placement record (R56). -/
structure Placement where
  off : Nat
  id : Nat
  kind : Nat
  tier : Nat
  tenant : Nat
  size : Nat
  spread : Nat
  resident : Bool
  coll : Nat
  model : Nat
  deriving DecidableEq, Repr

/-- A migration record (R58). -/
structure Migration where
  off : Nat
  point : Nat
  toTier : Nat
  object : Nat
  toSpread : Nat
  deriving DecidableEq, Repr

/-- A quota record (R59). -/
structure Quota where
  off : Nat
  tenant : Nat
  hbm : Nat
  ddr : Nat
  stk : Nat
  deriving DecidableEq, Repr

/-- A model record (R60). -/
structure Model where
  off : Nat
  ref : Nat
  wt : Nat
  scaleMode : Nat
  weights : Nat
  params : Nat
  layers : Nat
  hidden : Nat
  heads : Nat
  kvHeads : Nat
  headDim : Nat
  kvFormat : Nat
  vocab : Nat
  digest : Nat
  deriving DecidableEq, Repr

/-- A fallback entry (R63). -/
structure Fallback where
  fromStage : Nat
  action : Nat
  subStage : Nat
  trigger : Nat
  deriving DecidableEq, Repr

/-- A deadline policy (R63). -/
structure Policy where
  off : Nat
  id : Nat
  entryCount : Nat
  softUs : Nat
  hardUs : Nat
  entries : List Fallback
  deriving DecidableEq, Repr

/-- A SEARCH record (R66). -/
structure SearchRec where
  off : Nat
  id : Nat
  cls : Nat
  metric : Nat
  dims : Nat
  subspaces : Nat
  degree : Nat
  sflags : Nat
  beam : Nat
  expand : Nat
  refine : Nat
  kKeep : Nat
  kFinal : Nat
  deriving DecidableEq, Repr

/-- A TABLE_SPEC body (R251). `item` is the descriptor's offset. -/
structure TableSpec where
  off : Nat
  item : Nat
  table : Nat
  dir : Nat
  rows : Nat
  dims : Nat
  sliceFirst : Nat
  sliceWidth : Nat
  model : Nat
  outFormat : Nat
  remote : Bool
  deriving DecidableEq, Repr

/-- A COLL_SPEC body (R275). -/
structure CollSpec where
  off : Nat
  item : Nat
  coll : Nat
  vecFormat : Nat
  codes : Nat
  vectors : Nat
  adjacency : Nat
  scree : Nat
  passages : Nat
  slots : Nat
  shard : Nat
  deriving DecidableEq, Repr

/-- A FILTER_SPEC body (R290). -/
structure FilterSpec where
  off : Nat
  coll : Nat
  tenant : Nat
  require : Nat
  forbid : Nat
  deriving DecidableEq, Repr

/-- A RERANK_SPEC body (R335). -/
structure RerankSpec where
  off : Nat
  item : Nat
  model : Nat
  scoreCol : Nat
  sepId : Nat
  pairMax : Nat
  deriving DecidableEq, Repr

/-- A GEN_SPEC body (R341). -/
structure GenSpec where
  off : Nat
  item : Nat
  model : Nat
  pairing : Nat
  ctxMax : Nat
  idleMs : Nat
  deriving DecidableEq, Repr

/-- An EPILOGUE body (R216). -/
structure Epilogue where
  off : Nat
  model : Nat
  act : Nat
  tensor : Nat
  bias : Bool
  cscale : Bool
  deriving DecidableEq, Repr

/-- A NORM_SPEC body (R223). -/
structure NormSpec where
  off : Nat
  model : Nat
  kind : Nat
  tensor : Nat
  eps : W32
  deriving DecidableEq, Repr

/-- A CONV_GEOM body (R195). -/
structure ConvItem where
  off : Nat
  model : Nat
  tensor : Nat
  geom : ConvGeom
  deriving DecidableEq, Repr

/-- One entry of a SHARD_MAP body (R468). -/
structure ShardEnt where
  shard : Nat
  replicas : List Nat
  deriving DecidableEq, Repr

/-- A SHARD_MAP body (R468). -/
structure ShardMap where
  off : Nat
  item : Nat
  coll : Nat
  shards : List ShardEnt
  deriving DecidableEq, Repr

/-- A LEAD_SPEC body (R484): peers as (manager node, mirror node). -/
structure LeadSpec where
  off : Nat
  item : Nat
  coll : Nat
  peers : List (Nat × Nat)
  deriving DecidableEq, Repr

/-- A plan image read whole. -/
structure Plan where
  len : Nat
  major : Nat
  minor : Nat
  domainPlan : Bool
  planId : W64
  planGen : W32
  role : Nat
  caps : Nat
  minBench : Nat
  minHbm : Nat
  minDdr : Nat
  minStk : Nat
  minPorts : Nat
  minStore : Nat
  /-- Offset of the directory entry of a section type, by type; absent types are not listed. -/
  dirAt : List (Nat × Nat)
  stages : List Stage
  routes : List Route
  placements : List Placement
  quotas : List Quota
  models : List Model
  policies : List Policy
  searches : List SearchRec
  migrations : List Migration
  progs : List (Nat × SfuProg)
  epilogues : List Epilogue
  norms : List NormSpec
  convs : List ConvItem
  tables : List TableSpec
  colls : List CollSpec
  filters : List FilterSpec
  reranks : List RerankSpec
  gens : List GenSpec
  shardMaps : List ShardMap
  leads : List LeadSpec
  normTables : Option NormTables
  lattice : Option LatticeParams
  vocab : List Piece
  /-- R236: bytes [7:0] of SHA-384 over the VOCAB body. -/
  vocabDigest : W64
  stopSets : List (Nat × List (List Byte))
  grammars : List (Nat × Grammar)
  templates : List (Nat × Template)
  deriving DecidableEq, Repr

/-- Record size of each section type (R43); none for an unknown type. -/
def secRecSize : Nat → Option Nat
  | 1 => some 32
  | 2 => some 32
  | 3 => some 32
  | 4 => some 16
  | 5 => some 64
  | 6 => some 16
  | 7 => some 16
  | 8 => some 16
  | 9 => some 16
  | 10 => some 80
  | 11 => some 32
  | 12 => some 16
  | 13 => some 1
  | _ => none

/-- The directory (R39, R42). -/
def readDir (img : List Byte) (count : Nat) : List SecEnt :=
  (List.range count).map fun i =>
    let o := 256 + 32 * i
    ⟨o, u16 img o, u16 img (o + 2) % 2 == 1, u32 img (o + 4), u32 img (o + 8), u32 img (o + 12), u16 img (o + 16)⟩

/-- Offsets of the records of the first section of a type. -/
def recsOf (dir : List SecEnt) (t : Nat) : List Nat :=
  match dir.find? fun e => e.type == t, secRecSize t with
  | some e, some n => (List.range e.count).map fun i => e.start + n * i
  | _, _ => []

/-- Read a stage record. -/
def readStage (b : List Byte) (o : Nat) : Stage :=
  ⟨o, u8 b o, u8 b (o + 1), u16 b (o + 2), u16 b (o + 4), u8 b (o + 6), u8 b (o + 7), u8 b (o + 8), u8 b (o + 9),
   u16 b (o + 10), u16 b (o + 12), u16 b (o + 14), u16 b (o + 16), u16 b (o + 18)⟩

/-- Read a route record. -/
def readRoute (b : List Byte) (o : Nat) : Route :=
  let n := u8 b (o + 1)
  ⟨o, u8 b o, n, u16 b (o + 2), (List.range (min n 16)).map fun i =>
    let h := u8 b (o + 4 + i)
    ⟨h % 64, h.testBit 6⟩⟩

/-- Read a placement record. -/
def readPlacement (b : List Byte) (o : Nat) : Placement :=
  ⟨o, u32 b o, u8 b (o + 4), u8 b (o + 5), u16 b (o + 6), u32 b (o + 8), u16 b (o + 12), u8 b (o + 14) % 2 == 1,
   u16 b (o + 16), u16 b (o + 18)⟩

/-- Read a migration record. -/
def readMigration (b : List Byte) (o : Nat) : Migration := ⟨o, u16 b o, u8 b (o + 2), u32 b (o + 4), u16 b (o + 8)⟩

/-- Read a quota record. -/
def readQuota (b : List Byte) (o : Nat) : Quota := ⟨o, u16 b o, u32 b (o + 4), u32 b (o + 8), u32 b (o + 12)⟩

/-- Read a model record. -/
def readModel (b : List Byte) (o : Nat) : Model :=
  ⟨o, u16 b o, u8 b (o + 2), u8 b (o + 3), u32 b (o + 4), u64 b (o + 8), u16 b (o + 16), u16 b (o + 18), u16 b (o + 20),
   u16 b (o + 22), u16 b (o + 24), u8 b (o + 26), u32 b (o + 28), fieldAt b (o + 32) 16⟩

/-- Read a deadline policy. -/
def readPolicy (b : List Byte) (o : Nat) : Policy :=
  let n := u8 b (o + 1)
  ⟨o, u8 b o, n, u32 b (o + 4), u32 b (o + 8), (List.range (min n 8)).map fun i =>
    let e := o + 16 + 8 * i
    ⟨u8 b e, u8 b (e + 1), u8 b (e + 2), u32 b (e + 4)⟩⟩

/-- Read a SEARCH record. -/
def readSearch (b : List Byte) (o : Nat) : SearchRec :=
  ⟨o, u16 b o, u8 b (o + 2), u8 b (o + 3), u16 b (o + 4), u16 b (o + 6), u8 b (o + 8), u8 b (o + 9), u16 b (o + 10),
   u16 b (o + 12), u16 b (o + 14), u16 b (o + 16), u16 b (o + 18)⟩

/-- Read a body descriptor and its body (R62). -/
def readItem (sec : Nat) (b : List Byte) (o : Nat) : ItemDesc :=
  let at0 := u32 b (o + 4)
  let n := u32 b (o + 8)
  ⟨sec, o, u16 b o, u16 b (o + 2), at0, n, slice b at0 n⟩

/-- Every body descriptor, in the order of the sections MICROPROG, TOKENIZER, TEMPLATES, STOPS_GRAMMAR. -/
def readItems (b : List Byte) (dir : List SecEnt) : List ItemDesc :=
  [6, 7, 8, 9].flatMap fun t => (recsOf dir t).map (readItem t b)

/-! Bodies -/

/-- SFU_PROG (R211). -/
def readProg (x : List Byte) : SfuProg :=
  let n := u8 x 0
  let segs := u8 x 1
  let deg := u8 x 2
  { segs := segs, degree := deg, outFormat := u8 x 3, flushT := w32At x 4, atZero := w32At x 8, atNegInf := w32At x 12
    atPosInf := w32At x 16, negNan := (u8 x 20).testBit 0, odd := (u8 x 20).testBit 1
    steps := (List.range (min n 16)).map fun i =>
      let o := 32 + 16 * i
      ⟨u8 x o, u8 x (o + 1), w32At x (o + 4), w32At x (o + 8), w32At x (o + 12)⟩
    coef := (List.range (segs * (deg + 1))).map fun i => w32At x (0x120 + 4 * i) }

/-- EPILOGUE (R216). -/
def readEpilogue (d : ItemDesc) : Epilogue :=
  let x := d.body
  ⟨d.bodyAt, u16 x 0, u16 x 2, u32 x 4, (u8 x 8).testBit 0, (u8 x 8).testBit 1⟩

/-- NORM_SPEC (R223). -/
def readNorm (d : ItemDesc) : NormSpec :=
  let x := d.body
  ⟨d.bodyAt, u16 x 0, u8 x 2, u32 x 4, w32At x 8⟩

/-- CONV_GEOM (R195). -/
def readConv (d : ItemDesc) : ConvItem :=
  let x := d.body
  ⟨d.bodyAt, u16 x 0, u32 x 4,
   ⟨u16 x 8, u16 x 10, u32 x 12, u8 x 16, u8 x 17, u8 x 18, u8 x 19, u8 x 20, u8 x 21, u8 x 22, u8 x 23, u8 x 24, u8 x 25⟩⟩

/-- TABLE_SPEC (R251). -/
def readTable (d : ItemDesc) : TableSpec :=
  let x := d.body
  ⟨d.bodyAt, d.off, u32 x 0, u32 x 4, u32 x 8, u16 x 12, u16 x 14, u16 x 16, u16 x 18, u8 x 20, (u8 x 21).testBit 0⟩

/-- COLL_SPEC (R275). -/
def readColl (d : ItemDesc) : CollSpec :=
  let x := d.body
  ⟨d.bodyAt, d.off, u16 x 0, u8 x 2, u32 x 4, u32 x 8, u32 x 12, u32 x 16, u32 x 20, u32 x 24, u24 x 28⟩

/-- FILTER_SPEC (R290). -/
def readFilter (d : ItemDesc) : FilterSpec :=
  let x := d.body
  ⟨d.bodyAt, u16 x 0, u16 x 2, fieldAt x 4 6, fieldAt x 10 6⟩

/-- RERANK_SPEC (R335). -/
def readRerank (d : ItemDesc) : RerankSpec :=
  let x := d.body
  ⟨d.bodyAt, d.off, u16 x 0, u16 x 2, u32 x 4, u16 x 8⟩

/-- GEN_SPEC (R341). -/
def readGen (d : ItemDesc) : GenSpec :=
  let x := d.body
  ⟨d.bodyAt, d.off, u16 x 0, u8 x 2, u32 x 4, u32 x 8⟩

/-- SHARD_MAP (R468). -/
def readShardMap (d : ItemDesc) : ShardMap :=
  let x := d.body
  ⟨d.bodyAt, d.off, u16 x 0, (List.range (min (u32 x 4) 1022)).map fun i =>
    let o := 8 + 12 * i
    ⟨u32 x o, ((List.range 4).map fun k => u16 x (o + 4 + 2 * k)).filter (· != 0xFFFF)⟩⟩

/-- LEAD_SPEC (R484). -/
def readLead (d : ItemDesc) : LeadSpec :=
  let x := d.body
  ⟨d.bodyAt, d.off, u16 x 0, (List.range (min (u16 x 2) 47)).map fun i => (u16 x (4 + 4 * i), u16 x (6 + 4 * i))⟩

/-- NORM_TABLES (R230). -/
def readNormTables (x : List Byte) : NormTables :=
  let nc := u32 x 4
  let nd := u32 x 8
  let np := u32 x 12
  let d0 := 16 + 8 * nc
  let p0 := d0 + 8 * nd
  let pool := p0 + 12 * np
  { unicode := (u8 x 0, u8 x 1, u8 x 2)
    ccc := (List.range nc).map fun i => let o := 16 + 8 * i; (u32 x o, u24 x (o + 4), u8 x (o + 7))
    decomp := (List.range nd).map fun i =>
      let o := d0 + 8 * i
      (u32 x o, (List.range (u8 x (o + 4))).map fun k => u32 x (pool + 4 * (u24 x (o + 5) + k)))
    comp := (List.range np).map fun i => let o := p0 + 12 * i; (u32 x o, u32 x (o + 4), u32 x (o + 8)) }

/-- An id field in which 0xFFFF_FFFF stands for none. -/
def optId (n : Nat) : Option Nat := if n = 0xFFFFFFFF then none else some n

/-- LATTICE_PARAMS (R231). -/
def readLattice (x : List Byte) : LatticeParams :=
  { nfkc := u8 x 0 == 1, byteFallback := (u8 x 1).testBit 0, addPrefixSpace := (u8 x 1).testBit 1, spaceSub := u32 x 4
    unkId := u32 x 8, unkScore := i32At x 12, bosId := optId (u32 x 16), eosId := optId (u32 x 20)
    maxTokens := u32 x 24 }

/-- A piece kind (R232). -/
def pieceKind : Nat → PieceKind
  | 0 => .normal
  | 1 => .control
  | 2 => .byte
  | _ => .unused

/-- VOCAB (R232). -/
def readVocab (x : List Byte) : List Piece :=
  let n := min (u32 x 0) 262144
  let pool := 16 + 12 * n
  (List.range n).map fun i =>
    let o := 16 + 12 * i
    ⟨slice x (pool + u32 x o) (u8 x (o + 4)), pieceKind (u8 x (o + 5)), i32At x (o + 8)⟩

/-- STOP_SET (10, Stop strings). -/
def readStops (x : List Byte) : List (List Byte) :=
  (List.range (min (u8 x 0) 16)).map fun i => let o := 4 + 33 * i; slice x (o + 1) (u8 x o)

/-- GRAMMAR (R242). -/
def readGrammar (pieces : Nat) (x : List Byte) : Grammar :=
  let acc := u16 x 14
  let tr := u32 x 16
  let a0 := 32 + 2 * pieces
  let t0 := a0 + 4 * acc
  { maxDepth := u16 x 6, start := u32 x 8
    classes := (List.range pieces).map fun i => u16 x (32 + 2 * i)
    accept := (List.range acc).map fun i => u32 x (a0 + 4 * i)
    trans := (List.range tr).map fun i =>
      let o := t0 + 12 * i
      { src := u16 x o, cls := u16 x (o + 2), top := if u8 x (o + 4) = 255 then none else some (u8 x (o + 4))
        op := u8 x (o + 5), sym := u8 x (o + 6), dst := u16 x (o + 8) } }

/-- An array of token ids of a body. -/
def tokArray (x : List Byte) (off n : Nat) : List Nat := (List.range n).map fun i => u32 x (off + 4 * i)

/-- TEMPLATE (R244). -/
def readTemplate (x : List Byte) : Template :=
  let ns := u8 x 8
  let nm := u8 x 9
  let m0 := 32 + 8 * ns
  { budgetDefault := u16 x 0, maxPassages := u8 x 2, cut := u8 x 3 == 1, minTail := u16 x 4, passageMax := u16 x 6
    segments := (List.range (min ns 16)).map fun i =>
      let o := 32 + 8 * i
      match u8 x o with
      | 0 => .literal (tokArray x (u32 x (o + 4)) (u16 x (o + 2)))
      | 1 => .query
      | _ => .passages
    markers := (List.range (min nm 64)).map fun i =>
      let o := m0 + 36 * i
      tokArray x (o + 4) (min (u8 x o) 8)
    pre := tokArray x (u32 x 16) (u16 x 10)
    post := tokArray x (u32 x 20) (u16 x 12) }

/-- Items of a section and kind. -/
def itemsOf (ds : List ItemDesc) (sec kind : Nat) : List ItemDesc := ds.filter fun d => d.sec == sec && d.kind == kind

/-- The plan an image spells, its directory and its items. -/
def readPlan (b : List Byte) : Plan :=
  let dir := readDir b (min (u16 b 12) 64)
  let ds := readItems b dir
  let vb := ((itemsOf ds 7 0x22).head?.map (·.body)).getD []
  let vocab := readVocab vb
  { len := u32 b 8, major := u16 b 4, minor := u16 b 6, domainPlan := u16 b 14 % 2 == 1
    planId := BitVec.ofNat 64 (u64 b 0x10), planGen := w32At b 0x18, role := u8 b 0x1C, caps := fieldAt b 0x20 32
    minBench := u16 b 0x40, minHbm := u16 b 0x42, minDdr := u32 b 0x44, minStk := u16 b 0x48, minPorts := u8 b 0x4A
    minStore := u32 b 0x4C
    dirAt := dir.map fun e => (e.type, e.off)
    stages := (recsOf dir 1).map (readStage b), routes := (recsOf dir 2).map (readRoute b)
    placements := (recsOf dir 3).map (readPlacement b), quotas := (recsOf dir 4).map (readQuota b)
    models := (recsOf dir 5).map (readModel b), policies := (recsOf dir 10).map (readPolicy b)
    searches := (recsOf dir 11).map (readSearch b), migrations := (recsOf dir 12).map (readMigration b)
    progs := (itemsOf ds 6 1).map fun d => (d.id, readProg d.body)
    epilogues := (itemsOf ds 6 2).map readEpilogue, norms := (itemsOf ds 6 3).map readNorm
    convs := (itemsOf ds 6 0x10).map readConv, tables := (itemsOf ds 6 4).map readTable
    colls := (itemsOf ds 6 5).map readColl, filters := (itemsOf ds 6 6).map readFilter
    reranks := (itemsOf ds 6 7).map readRerank, gens := (itemsOf ds 6 8).map readGen
    shardMaps := (itemsOf ds 6 9).map readShardMap, leads := (itemsOf ds 6 10).map readLead
    normTables := (itemsOf ds 7 0x20).head?.map fun d => readNormTables d.body
    lattice := (itemsOf ds 7 0x21).head?.map fun d => readLattice d.body
    vocab := vocab, vocabDigest := BitVec.ofNat 64 (leNat ((sha384 vb).take 8))
    stopSets := (itemsOf ds 9 0x30).map fun d => (d.id, readStops d.body)
    grammars := (itemsOf ds 9 0x31).map fun d => (d.id, readGrammar vocab.length d.body)
    templates := (itemsOf ds 8 0x40).map fun d => (d.id, readTemplate d.body) }

/-! Lookups -/

def Plan.stage? (p : Plan) (id : Nat) : Option Stage := p.stages.find? (·.id == id)
def Plan.model? (p : Plan) (ref : Nat) : Option Model := p.models.find? (·.ref == ref)
def Plan.search? (p : Plan) (id : Nat) : Option SearchRec := p.searches.find? (·.id == id)
def Plan.place? (p : Plan) (id : Nat) : Option Placement := p.placements.find? (·.id == id)
def Plan.coll? (p : Plan) (id : Nat) : Option CollSpec := p.colls.find? (·.coll == id)
def Plan.policy? (p : Plan) (id : Nat) : Option Policy := p.policies.find? (·.id == id)
def Plan.rerank? (p : Plan) (m : Nat) : Option RerankSpec := p.reranks.find? (·.model == m)
def Plan.gen? (p : Plan) (m : Nat) : Option GenSpec := p.gens.find? (·.model == m)
def Plan.filter? (p : Plan) (tenant coll : Nat) : Option FilterSpec :=
  p.filters.find? fun f => f.tenant == tenant && f.coll == coll
def Plan.quota? (p : Plan) (tenant : Nat) : Option Quota := p.quotas.find? (·.tenant == tenant)
def Plan.prog? (p : Plan) (id : Nat) : Option SfuProg := (p.progs.find? (·.1 == id)).map (·.2)
def Plan.template? (p : Plan) (id : Nat) : Option Template := (p.templates.find? (·.1 == id)).map (·.2)
def Plan.stopSet? (p : Plan) (id : Nat) : Option (List (List Byte)) := (p.stopSets.find? (·.1 == id)).map (·.2)
def Plan.grammar? (p : Plan) (id : Nat) : Option Grammar := (p.grammars.find? (·.1 == id)).map (·.2)
def Plan.shardMap? (p : Plan) (id : Nat) : Option ShardMap := p.shardMaps.find? (·.coll == id)
def Plan.lead? (p : Plan) (id : Nat) : Option LeadSpec := p.leads.find? (·.coll == id)

/-- Whether capability `n` is set (R45, R76). -/
def Plan.hasCap (p : Plan) (n : Nat) : Bool := p.caps.testBit n

/-- The route of a request type, by its bit of `type_mask` (R53). -/
def Plan.route? (p : Plan) (type : Nat) : Option Route := p.routes.find? (·.typeMask.testBit type)

/-- The offset of a section's directory entry, or 0 where the image has none (R593). -/
def Plan.dirOff (p : Plan) (type : Nat) : Nat := ((p.dirAt.find? (·.1 == type)).map (·.2)).getD 0

end Sys2Proof.Machine
end

