-- ==== Sys2Proof/Machine/PlanCheck.lean ====
section
/-! DEFINITION. What Foreman checks of a plan image, step by step, and how it binds stages
(03 R39 to R76, R593 to R595, and the range rules of the bodies). -/

namespace Sys2Proof.Machine

/-- One failed check: the field at fault (R593), the result code and the detail (R73). -/
structure Reject where
  off : Nat
  code : Nat
  detail : Nat
  deriving DecidableEq, Repr

/-- The failure reported of one check: the lowest field at fault (R593). -/
def lowest (fs : List Reject) : Option Reject :=
  fs.foldl (fun a f =>
    match a with
    | none => some f
    | some g => if f.off < g.off then some f else a) none

/-- The first check that fails (R69, R593). -/
def firstFail (checks : List (List Reject)) : Option Reject := checks.findSome? lowest

/-- A failure of `code` at `off` unless `ok`. -/
def chk (code detail : Nat) (ok : Bool) (off : Nat) : List Reject := if ok then [] else [⟨off, code, detail⟩]

/-- A range failure (CFG_RANGE). -/
def rng (ok : Bool) (off : Nat) : List Reject := chk 8 0 ok off

/-- A record of a weight object's scale table (R175). -/
structure ScaleRec where
  tensor : Nat
  sW : W32
  sIn : W32
  sOut : W32
  deriving DecidableEq, Repr

/-- What a load needs of the device as it stands (R46, R57, R59, R61, R68, R252, R278). -/
structure LoadEnv where
  /-- `image_len` of CFG_LOAD_CMD (R570). -/
  cmdLen : Nat
  /-- Key slots: state (R571) and public key. -/
  slots : List (Nat × Nat × Nat)
  fenced : List Nat
  hbmGib : Nat
  ddrGib : Nat
  stkTib : Nat
  ports : Nat
  /-- DDR5 channels with a module. -/
  present : List Nat
  /-- Frames an image's new objects may take: (tier, unit, free frames) (R368, R78). -/
  room : List (Nat × Nat × Nat)
  /-- User blocks of the Stockpile that no object holds, and the bytes of a block (R394). -/
  stkRoom : Nat
  blockBytes : Nat
  /-- Resident objects that exist, as the placements that made them (R594). -/
  existing : List Placement
  /-- Placements of the active and retiring sets and resident objects, each object once (R383). -/
  held : List Placement
  /-- Record blocks of each tenant (R407). -/
  recBlocks : List (Nat × Nat)
  /-- Digests of weight objects written (R61). -/
  digests : List (Nat × Nat)
  /-- Scale tables of resident weight objects written (R175). -/
  scales : List (Nat × List ScaleRec)
  tables : List TableSpec
  colls : List CollSpec
  deriving DecidableEq, Repr

/-- bench_rating of this part: 1.000 in 8.8 fixed point (R568). -/
def benchRating : Nat := 0x0100

/-! ### Step 2 -/

/-- CFG_FORMAT (R40, R39, R75, R570). -/
def checkFormat (img : List Byte) (cmdLen : Nat) : List Reject :=
  let n := u32 img 8
  let f := chk 2 0
  f (u32 img 0 == 0x4C505141) 0 ++ f (u16 img 4 == 2) 4 ++ f (decide (u16 img 6 ≤ 1)) 6 ++
  f (n % 256 == 0 && decide (4096 ≤ n) && decide (n ≤ 268435456) && n == cmdLen) 8

/-! ### Step 3 -/

/-- CFG_SIGNATURE (R67, R68). -/
def checkSignature (img : List Byte) (n : Nat) (slots : List (Nat × Nat × Nat)) : List Reject :=
  let t := n - 128
  let ks := u8 img t
  let r := beNat (slice img (t + 16) 48)
  let s := beNat (slice img (t + 64) 48)
  match slots[ks]? with
  | some (1, x, y) =>
    if u8 img (t + 1) != 1 then [⟨t + 1, 3, ks⟩]
    else chk 3 ks (ecdsaVerify (x, y) (sha384 (img.take (n - 112))) r s) (t + 64)
  | _ => [⟨t, 3, ks⟩]

/-! ### Step 4 -/

/-- Whether two spans of bytes overlap; an empty span overlaps none. -/
def overlap (a la b lb : Nat) : Bool := decide (0 < la) && decide (0 < lb) && decide (a < b + lb) && decide (b < a + la)

/-- One directory entry against the layout rules (R39, R42), given the entries before it. -/
def checkEntry (n dend : Nat) (before : List SecEnt) (e : SecEnt) : List Reject :=
  let f := chk 4 e.type
  f (!before.any fun p => p.type == e.type) e.off ++
  f (match secRecSize e.type with
    | some k => e.recSize == k
    | none => true) (e.off + 16) ++
  f (e.length == e.count * e.recSize) (e.off + 16) ++
  f (e.start % 256 == 0 && decide (dend ≤ e.start)) (e.off + 4) ++
  f (decide (e.start + e.length ≤ n - 128)) (e.off + 8) ++
  f (!before.any fun p => overlap p.start p.length e.start e.length) (e.off + 8)

/-- Entries checked in order. -/
def checkEntries (n dend : Nat) : List SecEnt → List SecEnt → List Reject
  | _, [] => []
  | before, e :: es => checkEntry n dend before e ++ checkEntries n dend (before ++ [e]) es

/-- A missing mandatory type (R43); its offset is 0, since R593 names no field of an absent section. -/
def checkMandatory (dir : List SecEnt) : List Reject :=
  [1, 2, 3, 10].flatMap fun t => chk 4 t (dir.any fun e => e.type == t) 0

/-- Bodies inside the image, clear of everything else and of one another (R62). -/
def checkBodies (n dend : Nat) (dir : List SecEnt) : List (Nat × Nat) → List ItemDesc → List Reject
  | _, [] => []
  | taken, d :: ds =>
    let bad := decide (n < d.bodyAt + d.bodyLen) || overlap 0 dend d.bodyAt d.bodyLen ||
      overlap (n - 128) 128 d.bodyAt d.bodyLen ||
      (dir.any fun e => overlap e.start e.length d.bodyAt d.bodyLen) ||
      taken.any fun s => overlap s.1 s.2 d.bodyAt d.bodyLen
    chk 4 d.sec (!bad) (d.off + 4) ++ checkBodies n dend dir ((d.bodyAt, d.bodyLen) :: taken) ds

/-- Reserved parts of a fixed layout: field offset, length and the bits it may set (R5, R7). -/
abbrev Resv := List (Nat × Nat × Nat)

/-- Nonzero reserved parts of a layout placed at `o`. -/
def resvFails (b : List Byte) (o : Nat) (r : Resv) : List Reject :=
  r.flatMap fun (f, len, mask) =>
    let v := fieldAt b (o + f) len
    chk 6 0 (v &&& mask == v) (o + f)

/-- Reserved parts of the records of each section type. -/
def secResv : Nat → Resv
  | 1 => [(6, 1, 0x0F), (0x14, 12, 0)]
  | 2 => [(2, 2, 0x7F), (0x14, 12, 0)]
  | 3 => [(14, 1, 1), (15, 1, 0), (0x14, 12, 0)]
  | 4 => [(2, 2, 0)]
  | 5 => [(0x1B, 1, 0), (0x30, 16, 0)]
  | 6 => [(12, 4, 0)]
  | 7 => [(12, 4, 0)]
  | 8 => [(12, 4, 0)]
  | 9 => [(12, 4, 0)]
  | 10 => [(2, 2, 0), (12, 4, 0)] ++ (List.range 8).map fun i => (0x13 + 8 * i, 1, 0)
  | 11 => [(9, 1, 1), (0x14, 12, 0)]
  | 12 => [(3, 1, 0), (10, 6, 0)]
  | _ => []

/-- Reserved bits and bytes of a route's hops (R53). -/
def hopResv (b : List Byte) (o : Nat) : List Reject :=
  (List.range 16).flatMap fun i =>
    resvFails b o [(4 + i, 1, if i < u8 b (o + 1) then 0x7F else 0)]

/-- Bytes that no part covers are reserved (R39): the first nonzero one after each part. -/
def gapFails (b : List Byte) (n : Nat) (spans : List (Nat × Nat)) : List Reject :=
  let sorted := sortBy (fun x y => decide (x.1 ≤ y.1)) spans
  (sorted.foldl (fun (acc : Nat × List Reject) s =>
    let f := match firstNonzero b acc.1 (s.1 - acc.1) with
      | some o => [⟨o, 6, 0⟩]
      | none => []
    (max acc.1 (s.1 + s.2), acc.2 ++ f)) (0, [])).2.filter fun f => decide (f.off < n)

/-- Reserved bits of the header, the directory, the section records, the trailer and the bytes between (R7, R39). -/
def checkReserved (b : List Byte) (n : Nat) (dir : List SecEnt) (ds : List ItemDesc) : List Reject :=
  resvFails b 0 [(0x0E, 2, 1), (0x1D, 3, 0), (0x4B, 1, 0), (0x50, 16, 0), (0x60, 160, 0)] ++
  (dir.flatMap fun e => resvFails b e.off [(2, 2, 1), (0x12, 14, 0)]) ++
  (dir.flatMap fun e => (recsOf dir e.type).flatMap fun o => resvFails b o (secResv e.type)) ++
  ((recsOf dir 2).flatMap (hopResv b)) ++
  resvFails b (n - 128) [(2, 14, 0)] ++
  gapFails b n ((0, 256 + 32 * dir.length) :: (n - 128, 128) :: (dir.map fun e => (e.start, e.length)) ++
    ds.map fun d => (d.bodyAt, d.bodyLen))

/-- Step 4 whole: directory and bodies, unknown sections, reserved bits, in that order (R69). -/
def checkLayout (b : List Byte) (n : Nat) : Option Reject :=
  let count := u16 b 12
  let dend := 256 + 32 * count
  if count < 4 || 64 < count || n - 128 < dend then some ⟨12, 4, 0⟩ else
  let dir := readDir b count
  let ds := readItems b dir
  firstFail [checkEntries n dend [] dir, checkMandatory dir, checkBodies n dend dir [] ds,
    dir.flatMap fun e => chk 5 e.type ((secRecSize e.type).isSome || !e.required) e.off,
    checkReserved b n dir ds]

/-! ### Step 5 -/

/-- The minima: capability number, header offset, value, and whether the device offers it (R46). -/
def minima (p : Plan) (env : LoadEnv) : List (Nat × Nat × Bool) :=
  [(256, 0x40, decide (p.minBench * 256 ≤ (96 - env.fenced.length) * benchRating)),
   (257, 0x42, decide (p.minHbm ≤ env.hbmGib)), (258, 0x44, decide (p.minDdr ≤ env.ddrGib)),
   (259, 0x48, decide (p.minStk ≤ env.stkTib)), (260, 0x4A, decide (p.minPorts ≤ env.ports)),
   (261, 0x4C, decide (p.minStore ≤ 0x1800))]

/-- CFG_CAPABILITY at the first missing capability in ascending number (R47); 0 to 30 are offered (R45). -/
def checkCaps (p : Plan) (env : LoadEnv) : Option Reject :=
  match firstFrom (fun n => p.hasCap n) 225 31 with
  | some n => some ⟨0x20 + n / 8, 7, n⟩
  | none => ((minima p env).find? fun m => !m.2.2).map fun m => ⟨m.2.1, 7, m.1⟩

/-! ### Step 6: ranges -/

/-- A feature used at `off` needs its capability bit (R76). -/
def useCap (p : Plan) (n off : Nat) : List Reject := rng (p.hasCap n) off

/-- A key repeated within a list: each later copy fails at its offset (R593). -/
def uniq {α β : Type} [BEq β] (key : α → β) (off : α → Nat) : List β → List α → List Reject
  | _, [] => []
  | seen, x :: xs => rng (!seen.contains (key x)) (off x) ++ uniq key off (key x :: seen) xs

/-- Capabilities that a pairing needs (R45, R167). -/
def pairCaps (a w : Nat) : List Nat :=
  let f := fun c => if c = 4 then 3 else if c = 5 then 4 else if c = 6 then 5 else 6
  if a ≤ 1 && w ≤ 1 then [0] else if a ≤ 3 && 2 ≤ a then [1] else if a ≤ 1 then [2] else [f a, f w]

/-- The longest sequence of a stage by its kind (R219); `prev` is that of the hop before a GENERIC stage. -/
def stageSeq (p : Plan) (s : Stage) (prev : Nat) : Nat :=
  match s.kind with
  | 0 => ((p.lattice.map (·.maxTokens)).getD 0) + 2
  | 4 => ((p.rerank? s.model).map (·.pairMax)).getD 0
  | 5 => ((p.gen? s.model).map (·.ctxMax)).getD 0
  | 6 => ((p.gen? s.model).map (·.ctxMax)).getD 0
  | 7 => prev
  | _ => ((p.search? s.coll).map (·.dims)).getD 0

/-- The longest sequences of a route's hops, stage by stage (R219). -/
def routeSeqs (p : Plan) : Nat → List Hop → List (Nat × Nat)
  | _, [] => []
  | prev, h :: hs =>
    match p.stage? h.stage with
    | none => []
    | some s => let n := stageSeq p s prev; (s.id, n) :: routeSeqs p n hs

/-- The longest row of a stage (R219). -/
def longestRow (p : Plan) (s : Stage) : Nat :=
  let enc := ((p.lattice.map (·.maxTokens)).getD 0) + 2
  let rows := (p.routes.flatMap fun r => routeSeqs p enc r.hops).filter fun x => x.1 == s.id
  let own := if s.kind = 7 then 0 else stageSeq p s 0
  max (max own ((rows.map (·.2)).foldl max 0)) (((p.model? s.model).map (·.hidden)).getD 0)

/-- Stage records (R48 to R51, R167, R219, R321, R335, R341). -/
def checkStage (p : Plan) (s : Stage) : List Reject :=
  let o := s.off
  let inColl := (p.search? s.coll).isSome
  let row := longestRow p s
  rng (s.id ≤ 63) o ++ rng (s.kind ≤ 7) (o + 1) ++ rng (1 ≤ s.beMin) (o + 2) ++
  rng (s.beMin ≤ s.beMax && decide (s.beMax * 256 ≤ 96 * benchRating)) (o + 4) ++
  rng (s.shape ≤ 1) (o + 6) ++ (if s.shape = 1 then useCap p 9 (o + 6) else []) ++
  (if s.half = 3 then rng (s.beMin * 256 % (4 * benchRating) == 0) (o + 2) ++
    rng (s.beMax * 256 % (4 * benchRating) == 0) (o + 4) else []) ++
  rng (s.act ≤ 7) (o + 7) ++ rng (decide (s.wt ≤ 7) && (pairingValid s.act s.wt || decide (7 < s.act))) (o + 8) ++
  (if pairingValid s.act s.wt then (pairCaps s.act s.wt).flatMap fun c =>
    useCap p c (if c < 3 || pairCaps s.act s.act == [c, c] then o + 7 else o + 8) else []) ++
  rng (s.scaleMode ≤ 1) (o + 9) ++ (if s.scaleMode ≤ 1 then useCap p (7 + s.scaleMode) (o + 9) else []) ++
  rng (s.model == 0xFFFF || (p.model? s.model).isSome) (o + 10) ++
  rng (s.microprog == 0xFFFF || (p.prog? s.microprog).isSome) (o + 12) ++
  rng (1 ≤ s.queueDepth && s.queueDepth ≤ 4096) (o + 14) ++ rng (1 ≤ s.batchMax && s.batchMax ≤ 1024) (o + 16) ++
  rng (inColl || (s.coll == 0xFFFF && s.kind != 1 && s.kind != 2 && s.kind != 3)) (o + 18) ++
  rng (row ≤ 1048576) o ++ (if 65536 < row then useCap p 12 o else []) ++
  (if s.kind = 1 || s.kind = 2 || s.kind = 3 || s.kind = 4 || s.kind = 6 then useCap p 16 (o + 1) else []) ++
  (if s.kind = 4 then useCap p 26 (o + 1) ++ rng ((p.reranks.filter (·.model == s.model)).length == 1) (o + 10)
    else []) ++
  (if s.kind = 5 || s.kind = 6 then rng ((p.gens.filter (·.model == s.model)).length == 1) (o + 10) ++
    (match p.model? s.model with
      | some m => useCap p (if m.kvFormat = 4 then 24 else 25) (o + 1)
      | none => []) else []) ++
  (if s.kind = 6 then useCap p 18 (o + 1) ++ useCap p 23 (o + 1) else [])

/-- Route records (R53, R278). -/
def checkRoute (p : Plan) (r : Route) : List Reject :=
  rng (r.id ≤ 31) r.off ++ rng (r.hopCount ≤ 16) (r.off + 1) ++
  r.hops.flatMap fun h =>
    match p.stage? h.stage with
    | some s =>
      if s.kind = 2 then
        match p.search? s.coll with
        | some c => rng (c.degree != 0) (max (s.off + 18) (c.off + 8))
        | none => []
      else []
    | none => []

/-- Placement records (R56, R594). -/
def checkPlacement (p : Plan) (x : Placement) : List Reject :=
  let o := x.off
  rng (x.kind ≤ 11) (o + 4) ++ rng (x.tier ≤ 2) (o + 5) ++ rng (x.tenant ≤ 1023) (o + 6) ++ rng (1 ≤ x.size) (o + 8) ++
  rng ((x.tier == 0 && decide (0 < x.spread) && decide (x.spread < 4096)) || (x.tier == 1 && decide (0 < x.spread)) ||
    (x.tier == 2 && x.spread == 0)) (o + 12) ++
  rng (x.resident == x.id.testBit 31) (o + 14) ++
  rng (x.coll == 0xFFFF || (p.search? x.coll).isSome) (o + 16) ++
  rng (x.model == 0xFFFF || (p.model? x.model).isSome) (o + 18) ++
  (if x.tier = 2 then useCap p 26 (o + 5) else [])

/-- Model records (R60). -/
def checkModel (p : Plan) (m : Model) : List Reject :=
  let o := m.off
  rng (m.ref ≤ 511) o ++ rng (m.wt ≤ 7) (o + 2) ++ rng (m.scaleMode ≤ 1) (o + 3) ++
  rng ((p.place? m.weights).any fun x => x.kind == 4) (o + 4) ++ rng (1 ≤ m.layers && m.layers ≤ 512) (o + 16) ++
  rng (64 ≤ m.hidden && m.hidden ≤ 16384 && m.hidden % 64 == 0) (o + 18) ++ rng (1 ≤ m.heads && m.heads ≤ 256) (o + 20) ++
  rng (1 ≤ m.kvHeads && m.kvHeads ≤ m.heads && m.heads % m.kvHeads == 0) (o + 22) ++
  rng (32 ≤ m.headDim && m.headDim ≤ 256 && m.headDim % 32 == 0) (o + 24) ++
  rng (m.kvFormat == 4 || m.kvFormat == 6) (o + 26) ++ rng (1 ≤ m.vocab && m.vocab ≤ 262144) (o + 28)

/-- SEARCH records (R66, R321). -/
def checkSearch (p : Plan) (c : SearchRec) : List Reject :=
  let o := c.off
  rng (c.id ≤ 255) o ++ rng (c.cls ≤ 1) (o + 2) ++ rng (c.metric ≤ 2) (o + 3) ++ rng (1 ≤ c.dims && c.dims ≤ 4096) (o + 4) ++
  rng (if c.cls = 1 then 1 ≤ c.subspaces && c.subspaces ≤ 256 && c.dims % c.subspaces == 0 else c.subspaces == 0) (o + 6) ++
  rng (c.degree ≤ 64) (o + 8) ++ rng (if c.degree = 0 then c.beam == 0 else 1 ≤ c.beam && c.beam ≤ 1024) (o + 10) ++
  rng (c.beam ≤ c.expand && c.expand ≤ 4096) (o + 12) ++ rng (c.refine ≤ 4096) (o + 14) ++
  rng (c.kKeep ≤ c.refine) (o + 16) ++ rng (1 ≤ c.kKeep && c.kKeep ≤ 4096) (o + 16) ++
  rng (1 ≤ c.kFinal && c.kFinal ≤ c.kKeep) (o + 18) ++
  (if c.sflags % 2 = 1 then rng (c.kKeep ≤ 8) (o + 16) ++ useCap p 17 (o + 9) else []) ++
  (if 64 < c.refine then useCap p 18 (o + 14) else []) ++ (if 64 < c.kKeep then useCap p 18 (o + 16) else []) ++
  rng ((p.colls.filter (·.coll == c.id)).length == 1) o ++
  (if p.role = 0 || p.role = 1 then rng ((p.shardMaps.filter (·.coll == c.id)).length == 1) o else [])

/-- Deadline policies (R63, R65). -/
def checkPolicy (p : Plan) (d : Policy) : List Reject :=
  let o := d.off
  let inRoute := fun s => p.routes.any fun r => r.hops.any fun h => h.stage == s
  rng (d.id ≤ 15) o ++ rng (d.entryCount ≤ 8) (o + 1) ++ rng (1 ≤ d.softUs) (o + 4) ++
  rng (d.softUs < d.hardUs && d.hardUs ≤ 10000000) (o + 8) ++
  (d.entries.mapIdx fun i e =>
    let x := o + 16 + 8 * i
    let fs := p.stage? e.fromStage
    rng fs.isSome x ++ rng (e.action ≤ 1) (x + 1) ++
    (if e.action = 1 then
      rng ((match p.stage? e.subStage, fs with
        | some a, some b => a.kind == b.kind
        | _, _ => false) && inRoute e.subStage) (x + 2)
     else if e.action = 0 then
      rng (match fs with
        | some b => b.kind != 0 && b.kind != 1 && b.kind != 5
        | none => true) (x + 1)
     else [])).flatten

/-- Quotas and migrations (R58, R59). -/
def checkQuotas (p : Plan) : List Reject :=
  (p.quotas.flatMap fun q => rng (q.tenant ≤ 1023) q.off) ++ uniq (·.tenant) (·.off) [] p.quotas ++
  p.migrations.flatMap fun m =>
    rng (m.point ≤ 255) m.off ++ rng (m.toTier ≤ 1) (m.off + 2) ++ rng (p.place? m.object).isSome (m.off + 4) ++
    rng (decide (0 < m.toSpread) && (m.toTier != 0 || decide (m.toSpread < 4096))) (m.off + 8)

/-! Bodies -/

/-- The length a body must have (R195, R211, R595 and the bodies' own rules); none where only a least length holds. -/
def bodyLenOk (pieces : Nat) (d : ItemDesc) : Bool :=
  let x := d.body
  let n := d.bodyLen
  match d.sec, d.kind with
  | 6, 1 => n == 0x120 + 4 * u8 x 1 * (u8 x 2 + 1)
  | 6, 2 => n == 16
  | 6, 3 => n == 16
  | 6, 4 => n == 32
  | 6, 5 => n == 32
  | 6, 6 => n == 16
  | 6, 7 => n == 16
  | 6, 8 => n == 32
  | 6, 9 => decide (8 ≤ n) && n == 8 + 12 * u32 x 4
  | 6, 10 => decide (4 ≤ n) && n == 4 + 4 * u16 x 2
  | 6, 0x10 => n == 32
  | 7, 0x20 =>
    let e := 16 + 8 * u32 x 4 + 8 * u32 x 8 + 12 * u32 x 12
    decide (16 ≤ n) && decide (e ≤ n) && (n - e) % 4 == 0 &&
      (List.range (u32 x 8)).all fun i =>
        let o := 16 + 8 * u32 x 4 + 8 * i
        decide (4 * (u24 x (o + 5) + u8 x (o + 4)) ≤ n - e)
  | 7, 0x21 => n == 32
  | 7, 0x22 => decide (16 ≤ n) && n == 16 + 12 * u32 x 0 + u32 x 4
  | 9, 0x30 => decide (4 ≤ n) && n == 4 + 33 * u8 x 0
  | 9, 0x31 => decide (32 ≤ n) && n == 32 + 2 * pieces + 4 * u16 x 14 + 12 * u32 x 16
  | 8, 0x40 => decide (32 ≤ n) && decide (32 + 8 * u8 x 8 + 36 * u8 x 9 ≤ n)
  | _, _ => true

/-- Reserved parts of a body (R62, R211, R216, R223, R230 to R232, R242, R244, R251, R275, R335, R341, R468). -/
def bodyResv (pieces : Nat) (d : ItemDesc) : Resv :=
  let x := d.body
  match d.sec, d.kind with
  | 6, 1 => [(0x14, 1, 3), (0x15, 11, 0)] ++ ((List.range 16).map fun i =>
      if i < u8 x 0 then (0x22 + 16 * i, 2, 0) else (0x20 + 16 * i, 16, 0))
  | 6, 2 => [(8, 1, 3), (9, 7, 0)]
  | 6, 3 => [(3, 1, 0), (12, 4, 0)]
  | 6, 4 => [(0x15, 1, 1), (0x16, 10, 0)]
  | 6, 5 => [(3, 1, 0), (0x1F, 1, 0)]
  | 6, 7 => [(10, 6, 0)]
  | 6, 8 => [(3, 1, 0), (12, 20, 0)]
  | 6, 9 => [(2, 2, 0)]
  | 6, 0x10 => [(2, 2, 0), (0x1A, 6, 0)]
  | 7, 0x20 => [(3, 1, 0)]
  | 7, 0x21 => [(1, 1, 3), (2, 2, 0), (0x1C, 4, 0)]
  | 7, 0x22 => (8, 8, 0) :: (List.range (u32 x 0)).map fun i => (16 + 12 * i + 6, 2, 0)
  | 9, 0x30 => (1, 3, 0) :: (List.range (u8 x 0)).map fun i =>
      let o := 4 + 33 * i
      (o + 1 + u8 x o, 32 - u8 x o, 0)
  | 9, 0x31 =>
    let t0 := 32 + 2 * pieces + 4 * u16 x 14
    (20, 12, 0) :: (List.range (u32 x 16)).flatMap fun i => [(t0 + 12 * i + 7, 1, 0), (t0 + 12 * i + 10, 2, 0)]
  | 8, 0x40 =>
    let m0 := 32 + 8 * u8 x 8
    [(14, 2, 0), (0x18, 8, 0)] ++ ((List.range (u8 x 8)).map fun i => (32 + 8 * i + 1, 1, 0)) ++
    (List.range (u8 x 9)).flatMap fun i =>
      let o := m0 + 36 * i
      [(o + 1, 3, 0), (o + 4 + 4 * u8 x o, 32 - 4 * u8 x o, 0)]
  | _, _ => []

/-- SFU_PROG (R207, R211, R212). -/
def checkProg (o : Nat) (x : List Byte) : List Reject :=
  let g := readProg x
  let opOk := fun (s : SfuStep) =>
    (s.opcode == 1 && decide (s.mode ≤ 1)) || (s.opcode == 2 && decide (s.mode ≤ 1)) ||
    (s.opcode == 3 && decide (s.mode ≤ 1)) || (s.opcode == 4 && s.mode == 0) || (s.opcode == 5 && decide (s.mode ≤ 3))
  rng (1 ≤ u8 x 0 && u8 x 0 ≤ 16) o ++ rng (1 ≤ g.segs && g.segs ≤ 64) (o + 1) ++ rng (g.degree ≤ 7) (o + 2) ++
  rng (g.outFormat ≤ 7 || g.outFormat == 255) (o + 3) ++
  rng (f32IsFin g.flushT && f32Le (defaultFlushT g.outFormat) g.flushT) (o + 4) ++
  rng ((g.steps.any fun s => s.opcode == 3) || g.segs == 1) (o + 1) ++
  (g.steps.mapIdx fun i s =>
    let b := o + 0x20 + 16 * i
    rng (1 ≤ s.opcode && s.opcode ≤ 5) b ++ rng (opOk s || decide (s.opcode = 0) || decide (5 < s.opcode)) (b + 1) ++
    rng (f32IsFin s.c0) (b + 4) ++ rng (f32IsFin s.c1) (b + 8) ++ rng (f32IsFin s.c2) (b + 12)).flatten ++
  rng (sfuOrdered g.steps) (o + 0x20 + 16 * (g.steps.length - 1)) ++
  (g.coef.mapIdx fun i c => rng (f32IsFin c) (o + 0x120 + 4 * i)).flatten

/-- Whether a token id is a CONTROL piece, or is not set (R231, R335). -/
def controlOrNone (p : Plan) (id : Nat) : Bool :=
  id == 0xFFFFFFFF || (p.vocab[id]?).any fun q => q.kind == .control

/-- TABLE_SPEC (R251, R252). -/
def checkTable (p : Plan) (env : LoadEnv) (t : TableSpec) : List Reject :=
  let o := t.off
  let tab := p.place? t.table
  let dir := p.place? t.dir
  let okObj := fun (x : Option Placement) (k : Nat) => x.any fun y => y.kind == k && y.resident
  let sizeOff := fun (x : Option Placement) => (x.map (·.off + 8)).getD o
  useCap p 27 (t.item + 2) ++ (if t.remote || decide (t.sliceWidth < t.dims) then useCap p 30 (o + 16) else []) ++
  rng (okObj tab 5) o ++ rng (okObj dir 6) (o + 4) ++ rng (1 ≤ t.rows && t.rows ≤ 0xFFFFFFFE) (o + 8) ++
  rng (32 ≤ t.dims && t.dims ≤ 16384 && t.dims % 32 == 0) (o + 12) ++
  rng (if t.remote then t.sliceFirst == 0 else t.sliceFirst % 32 == 0 && decide (t.sliceFirst < t.dims)) (o + 14) ++
  rng (if t.remote then t.sliceWidth == 0
    else t.sliceWidth % 32 == 0 && decide (32 ≤ t.sliceWidth) && decide (t.sliceFirst + t.sliceWidth ≤ t.dims)) (o + 16) ++
  rng (t.model == 0xFFFF || (p.model? t.model).isSome) (o + 18) ++ rng (t.outFormat == 6 || t.outFormat == 255) (o + 20) ++
  rng (tab.all fun x => x.size % 2 == 0) (sizeOff tab) ++ rng (dir.all fun x => x.size % 2 == 0) (sizeOff dir) ++
  (if t.remote then rng (tab.all (·.size == 2)) (sizeOff tab) ++ rng (dir.all (·.size == 2)) (sizeOff dir)
   else rng (dir.all fun x => decide (12 * t.rows ≤ x.size * 1048576)) (max (sizeOff dir) (o + 8))) ++
  rng ((p.model? t.model).all fun m => decide (m.vocab ≤ t.rows)) (max (o + 18) (o + 8)) ++
  match env.tables.find? fun e => e.table == t.table with
  | none => []
  | some e => rng (e.rows == t.rows) (o + 8) ++ rng (e.dims == t.dims) (o + 12) ++
      rng (e.sliceFirst == t.sliceFirst) (o + 14) ++ rng (e.sliceWidth == t.sliceWidth) (o + 16)

/-- One mebi-page rounding: up to 2 MiB. -/
def toPage (n : Nat) : Nat := roundUp n 2097152

/-- Bytes of one vector element (R276). -/
def vecBytes (fmt : Nat) : Nat := if fmt = 255 then 4 else 2

/-- Bytes of one Scree entry (R293). -/
def screeEntry (m : Nat) : Nat := 16 * ceilDiv (8 + m) 16

/-- The objects a collection needs: id, body offset, kind, whether used, least bytes, tiers (R275 to R278, R406). -/
def collObjects (c : SearchRec) (s : CollSpec) : List (Nat × Nat × Nat × Bool × Nat × List Nat) :=
  let bulk := c.cls == 1
  let e := vecBytes s.vecFormat
  [(s.codes, 4, 0, bulk, toPage (toPage (1024 * c.dims) + 8 * s.slots) + c.subspaces * s.slots, [0]),
   (s.vectors, 8, 1, true,
     if bulk then s.slots * c.dims * e else toPage (8 * s.slots) + s.slots * c.dims * e, if bulk then [1] else [0, 1]),
   (s.adjacency, 12, 2, c.degree != 0, toPage (8 * s.slots * c.degree) + 2097152, [0, 1]),
   (s.scree, 16, 3, c.degree != 0, screeEntry c.subspaces, [0]),
   (s.passages, 20, 11, true, 16 * s.slots, [2])]

/-- COLL_SPEC (R275, R278). -/
def checkColl (p : Plan) (env : LoadEnv) (s : CollSpec) : List Reject :=
  let o := s.off
  match p.search? s.coll with
  | none => rng false o
  | some c =>
    useCap p 15 (s.item + 2) ++ (if c.cls = 1 then useCap p 13 (c.off + 2) else []) ++
    (if c.degree != 0 then useCap p 14 (c.off + 8) else []) ++
    (if s.vecFormat = 255 then useCap p 28 (o + 2) else []) ++
    rng (s.vecFormat == 6 || s.vecFormat == 7 || (s.vecFormat == 255 && c.cls == 0)) (o + 2) ++
    rng (1 ≤ s.slots) (o + 24) ++
    ((collObjects c s).flatMap fun (id, f, kind, used, bytes, _) =>
      if used then
        match p.place? id with
        | none => rng false (o + f)
        | some x => rng (x.kind == kind) (o + f) ++
            rng (decide (bytes ≤ x.size * (if kind = 11 then env.blockBytes else 2097152))) (max (x.off + 8) (o + 24))
      else rng (id == 0xFFFFFFFF) (o + f)) ++
    match env.colls.find? fun e => e.coll == s.coll with
    | none => []
    | some e =>
      rng (e.vecFormat == s.vecFormat) (o + 2) ++ rng (e.codes == s.codes) (o + 4) ++ rng (e.vectors == s.vectors) (o + 8) ++
      rng (e.adjacency == s.adjacency) (o + 12) ++ rng (e.scree == s.scree) (o + 16) ++
      rng (e.passages == s.passages) (o + 20) ++ rng (e.slots == s.slots) (o + 24) ++ rng (e.shard == s.shard) (o + 28)

/-- CONV_GEOM (R195, R196). -/
def checkConv (p : Plan) (item : Nat) (c : ConvItem) : List Reject :=
  let o := c.off
  let g := c.geom
  let inR := fun (lo hi v : Nat) => decide (lo ≤ v) && decide (v ≤ hi)
  useCap p 10 (item + 2) ++ rng (p.model? c.model).isSome o ++ rng (1 ≤ g.inH) (o + 8) ++ rng (1 ≤ g.inW) (o + 10) ++
  rng (inR 1 65536 g.channels) (o + 12) ++ rng (inR 1 16 g.kH) (o + 16) ++ rng (inR 1 16 g.kW) (o + 17) ++
  rng (inR 1 8 g.strideH) (o + 18) ++ rng (inR 1 8 g.strideW) (o + 19) ++ rng (inR 1 8 g.dilH) (o + 20) ++
  rng (inR 1 8 g.dilW) (o + 21) ++ rng (g.padTop ≤ 15) (o + 22) ++ rng (g.padLeft ≤ 15) (o + 23) ++
  rng (g.padBottom ≤ 15) (o + 24) ++ rng (g.padRight ≤ 15) (o + 25) ++
  rng (decide (g.dilH * (g.kH - 1) + 1 ≤ g.inH + g.padTop + g.padBottom)) (o + 24) ++
  rng (decide (g.dilW * (g.kW - 1) + 1 ≤ g.inW + g.padLeft + g.padRight)) (o + 25)

/-- NORM_TABLES (R230): keys ascending, ranges apart, code points in range. -/
def checkNormTables (o : Nat) (x : List Byte) : List Reject :=
  let t := readNormTables x
  let cp := fun (c : Nat) => decide (c ≤ 0x10FFFF)
  let d0 := 16 + 8 * t.ccc.length
  let p0 := d0 + 8 * t.decomp.length
  let pool := p0 + 12 * t.comp.length
  (t.ccc.mapIdx fun i r =>
    let b := o + 16 + 8 * i
    rng (cp r.1 && (i == 0 || (t.ccc[i - 1]?).all fun q => decide (q.2.1 < r.1))) b ++
    rng (cp r.2.1 && decide (r.1 ≤ r.2.1)) (b + 4)).flatten ++
  (t.decomp.mapIdx fun i e =>
    let b := o + d0 + 8 * i
    rng (cp e.1 && (i == 0 || (t.decomp[i - 1]?).all fun q => decide (q.1 < e.1))) b ++
    rng (1 ≤ e.2.length && e.2.length ≤ 18) (b + 4)).flatten ++
  (t.comp.mapIdx fun i e =>
    let b := o + p0 + 12 * i
    rng (cp e.1) b ++ rng (cp e.2.1 && (i == 0 || (t.comp[i - 1]?).all fun q =>
      decide (q.1 < e.1) || (q.1 == e.1 && decide (q.2.1 < e.2.1)))) (b + 4) ++ rng (cp e.2.2) (b + 8)).flatten ++
  (List.range ((x.length - pool) / 4)).flatMap fun i => rng (cp (u32 x (pool + 4 * i))) (o + pool + 4 * i)

/-- LATTICE_PARAMS (R231, R232). -/
def checkLattice (p : Plan) (o : Nat) (x : List Byte) : List Reject :=
  let isControl := fun id => (p.vocab[id]?).any fun q => q.kind == .control
  let sub := u32 x 4
  let bytes := (List.range 256).all fun b =>
    (p.vocab.filter fun q => q.kind == .byte && q.str == [BitVec.ofNat 8 b]).length == 1
  rng (u8 x 0 ≤ 1) o ++ (if u8 x 0 = 1 then useCap p 20 o else []) ++
  rng (!(u8 x 1).testBit 0 || bytes) (o + 1) ++
  rng (sub == 0 || (decide (0x21 ≤ sub) && decide (sub ≤ 0x10FFFF))) (o + 4) ++ rng (isControl (u32 x 8)) (o + 8) ++
  rng (decide (i32At x 12 ≤ 0)) (o + 12) ++ rng (controlOrNone p (u32 x 16)) (o + 16) ++
  rng (controlOrNone p (u32 x 20)) (o + 20) ++ rng (1 ≤ u32 x 24 && u32 x 24 ≤ 65536) (o + 24)

/-- VOCAB (R232). -/
def checkVocab (p : Plan) (item o : Nat) (x : List Byte) : List Reject :=
  let n := u32 x 0
  useCap p 19 (item + 2) ++ rng (1 ≤ n && n ≤ 262144) o ++
  ((List.range (min n 262144)).flatMap fun i =>
    let r := 16 + 12 * i
    let len := u8 x (r + 4)
    let k := u8 x (r + 5)
    rng (u32 x r + len ≤ u32 x 4) (o + r + (if u32 x 4 < u32 x r then 0 else 4)) ++
    rng (if k = 0 then 1 ≤ len && len ≤ 64 else if k = 2 then len == 1 else len == 0) (o + r + 5) ++
    rng (k ≤ 3) (o + r + 5) ++ rng (decide (i32At x (r + 8) ≤ 0)) (o + r + 8) ++
    rng (k != 0 || utf8Valid ((p.vocab.map (·.str)).getD i [])) (o + r)) ++
  uniq (fun (q : Nat × Piece) => q.2.str) (fun q => o + 16 + 12 * q.1) []
    ((p.vocab.mapIdx fun i q => (i, q)).filter fun q => q.2.kind == .normal)

/-- STOP_SET (10, Stop strings). -/
def checkStops (p : Plan) (item o : Nat) (x : List Byte) : List Reject :=
  useCap p 22 (item + 2) ++ rng (1 ≤ u8 x 0 && u8 x 0 ≤ 16) o ++
  (List.range (u8 x 0)).flatMap fun i => rng (1 ≤ u8 x (4 + 33 * i) && u8 x (4 + 33 * i) ≤ 32) (o + 4 + 33 * i)

/-- GRAMMAR (R242). -/
def checkGrammar (p : Plan) (item o : Nat) (x : List Byte) : List Reject :=
  let states := u32 x 0
  let syms := u16 x 4
  let classes := u16 x 12
  let n := p.vocab.length
  let a0 := 32 + 2 * n
  let t0 := a0 + 4 * u16 x 14
  let key := fun i => (u16 x (t0 + 12 * i), u16 x (t0 + 12 * i + 2), u8 x (t0 + 12 * i + 4))
  let lt := fun (a b : Nat × Nat × Nat) => decide (a.1 < b.1) || (a.1 == b.1 && (decide (a.2.1 < b.2.1) ||
    (a.2.1 == b.2.1 && decide (a.2.2 < b.2.2))))
  useCap p 21 (item + 2) ++ rng (1 ≤ states && states ≤ 65536) o ++ rng (1 ≤ syms && syms ≤ 255) (o + 4) ++
  rng (1 ≤ u16 x 6 && u16 x 6 ≤ 1024) (o + 6) ++ rng (u32 x 8 < states) (o + 8) ++
  rng (1 ≤ classes && classes ≤ 4096) (o + 12) ++ rng (1 ≤ u16 x 14 && u16 x 14 ≤ 4096) (o + 14) ++
  ((List.range n).flatMap fun i => rng (u16 x (32 + 2 * i) < classes) (o + 32 + 2 * i)) ++
  ((List.range (u16 x 14)).flatMap fun i => rng (u32 x (a0 + 4 * i) < states) (o + a0 + 4 * i)) ++
  (List.range (u32 x 16)).flatMap fun i =>
    let b := t0 + 12 * i
    rng (u16 x b < states) (o + b) ++ rng (u16 x (b + 2) < classes) (o + b + 2) ++
    rng ((u8 x (b + 4) == 255 || decide (u8 x (b + 4) < syms)) && (i == 0 || lt (key (i - 1)) (key i))) (o + b + 4) ++
    rng (u8 x (b + 5) ≤ 2) (o + b + 5) ++ rng (u8 x (b + 5) != 1 || decide (u8 x (b + 6) < syms)) (o + b + 6) ++
    rng (u16 x (b + 8) < states) (o + b + 8)

/-- TEMPLATE (R244, R342). -/
def checkTemplate (p : Plan) (o : Nat) (x : List Byte) : List Reject :=
  let n := x.length
  let ns := u8 x 8
  let nm := u8 x 9
  let m0 := 32 + 8 * ns
  let kinds := (List.range ns).map fun i => u8 x (32 + 8 * i)
  let arr := fun (off len fld : Nat) =>
    if off + 4 * len ≤ n then (List.range len).flatMap fun i => rng (u32 x (off + 4 * i) < p.vocab.length) (o + off + 4 * i)
    else rng false (o + fld)
  rng (1 ≤ u16 x 0 && p.gens.all fun g => decide (u16 x 0 < g.ctxMax)) o ++ rng (1 ≤ u8 x 2 && u8 x 2 ≤ 64) (o + 2) ++
  rng (u8 x 3 ≤ 1) (o + 3) ++ rng (1 ≤ u16 x 4) (o + 4) ++ rng (1 ≤ u16 x 6) (o + 6) ++ rng (1 ≤ ns && ns ≤ 16) (o + 8) ++
  rng (nm == 0 || (decide (u8 x 2 ≤ nm) && decide (nm ≤ 64))) (o + 9) ++ rng (u16 x 10 ≤ 256) (o + 10) ++
  rng (u16 x 12 ≤ 256) (o + 12) ++ arr (u32 x 16) (u16 x 10) 16 ++ arr (u32 x 20) (u16 x 12) 20 ++
  ((List.range ns).flatMap fun i =>
    let b := 32 + 8 * i
    rng (u8 x b ≤ 2) (o + b) ++
    (if u8 x b = 0 then rng (u16 x (b + 2) ≤ 4096) (o + b + 2) ++ arr (u32 x (b + 4)) (u16 x (b + 2)) (b + 4)
     else rng (u16 x (b + 2) == 0) (o + b + 2) ++ rng (u32 x (b + 4) == 0) (o + b + 4))) ++
  rng ((kinds.filter (· == 2)).length == 1 && decide ((kinds.filter (· == 1)).length ≤ 1)) (o + 32 + 8 * (ns - 1)) ++
  (List.range nm).flatMap fun i =>
    let b := m0 + 36 * i
    rng (1 ≤ u8 x b && u8 x b ≤ 8) (o + b) ++
    (List.range (min (u8 x b) 8)).flatMap fun k => rng (u32 x (b + 4 + 4 * k) < p.vocab.length) (o + b + 4 + 4 * k)

/-- SHARD_MAP (R468). -/
def checkShardMap (p : Plan) (o : Nat) (x : List Byte) : List Reject :=
  let n := u32 x 4
  rng (p.search? (u16 x 0)).isSome o ++ rng (1 ≤ n && n ≤ 1022) (o + 4) ++
  (List.range (min n 1022)).flatMap fun i =>
    let b := 8 + 12 * i
    let m := (List.range 4).map fun k => u16 x (b + 4 + 2 * k)
    let used := m.takeWhile (· != 0xFFFF)
    rng (u32 x b ≤ 0xFFFFFF && (i == 0 || decide (u32 x (b - 12) < u32 x b))) (o + b) ++
    rng (!used.isEmpty && (m.drop used.length).all (· == 0xFFFF) &&
      (List.range (used.length - 1)).all fun k => decide (used.getD k 0 < used.getD (k + 1) 0)) (o + b + 4)

/-- LEAD_SPEC (R484). -/
def checkLead (p : Plan) (o : Nat) (x : List Byte) : List Reject :=
  rng (p.search? (u16 x 0)).isSome o ++ rng (1 ≤ u16 x 2 && u16 x 2 ≤ 47) (o + 2)

/-- The range rules of one item's body; a body of the wrong length fails at `body_len` alone (R595, R212). -/
def checkItem (p : Plan) (env : LoadEnv) (d : ItemDesc) : List Reject :=
  let x := d.body
  let o := d.bodyAt
  if !bodyLenOk p.vocab.length d then rng false (d.off + 8) else
  match d.sec, d.kind with
  | 6, 1 => useCap p 11 (d.off + 2) ++ checkProg o x
  | 6, 2 =>
    let e := readEpilogue d
    rng (p.model? e.model).isSome o ++
    rng (e.act ≤ 8 || (decide (0x8000 ≤ e.act) && (p.prog? (e.act - 0x8000)).isSome)) (o + 2)
  | 6, 3 =>
    let e := readNorm d
    rng (p.model? e.model).isSome o ++ rng (e.kind ≤ 1) (o + 2) ++ rng (f32IsFin e.eps && f32Le 0 e.eps) (o + 8)
  | 6, 4 => checkTable p env (readTable d)
  | 6, 5 => checkColl p env (readColl d)
  | 6, 6 =>
    let f := readFilter d
    rng (p.search? f.coll).isSome o ++ rng (f.tenant ≤ 1023) (o + 2) ++ rng (f.require &&& f.forbid == 0) (o + 10)
  | 6, 7 =>
    let r := readRerank d
    rng (p.model? r.model).isSome o ++ rng (controlOrNone p r.sepId) (o + 4) ++
    rng (8 ≤ r.pairMax && r.pairMax ≤ 4096) (o + 8)
  | 6, 8 =>
    let g := readGen d
    rng (p.model? g.model).isSome o ++ rng (g.pairing ≤ 1) (o + 2) ++
    rng (128 ≤ g.ctxMax && g.ctxMax ≤ 262144 && g.ctxMax % 64 == 0) (o + 4) ++ rng (1 ≤ g.idleMs && g.idleMs ≤ 600000) (o + 8)
  | 6, 9 => checkShardMap p o x
  | 6, 10 => checkLead p o x
  | 6, 0x10 => checkConv p d.off (readConv d)
  | 7, 0x20 => checkNormTables o x
  | 7, 0x21 => checkLattice p o x
  | 7, 0x22 => checkVocab p d.off o x
  | 8, 0x40 => rng (d.bodyLen ≤ 65536) (d.off + 8) ++ checkTemplate p o x
  | 9, 0x30 => checkStops p d.off o x
  | 9, 0x31 => rng (d.bodyLen ≤ 1048576) (d.off + 8) ++ checkGrammar p d.off o x
  | _, _ => rng false (d.off + 2)

/-- Counts of items, each limit at the first descriptor past it (R62, R195, R216, R223, R229, R251, R290). -/
def checkCounts (ds : List ItemDesc) : List Reject :=
  [(6, 1, 64), (6, 2, 1024), (6, 3, 1024), (6, 4, 64), (6, 6, 1024), (6, 0x10, 256), (7, 0x20, 1), (7, 0x21, 1),
   (7, 0x22, 1), (8, 0x40, 64), (9, 0x30, 16), (9, 0x31, 16)].flatMap fun (sec, kind, n) =>
    match (itemsOf ds sec kind)[n]? with
    | some d => rng false (if sec = 7 then d.off + 2 else d.off)
    | none => []

/-- A tokenizer must be complete where a route or template asks for one (R229). -/
def checkTokenizer (p : Plan) (ds : List ItemDesc) : List Reject :=
  let needs := p.routes.any (fun r => r.typeMask.testBit 0 || r.typeMask.testBit 1 || r.typeMask.testBit 3) ||
    !(itemsOf ds 8 0x40).isEmpty
  if needs then [0x20, 0x21, 0x22].flatMap fun k => rng (!(itemsOf ds 7 k).isEmpty) (p.dirOff 7) else []

/-- The scale table of a model's weight object, once that is written (R175). -/
def scalesOf (p : Plan) (env : LoadEnv) (model : Nat) : Option (List ScaleRec) :=
  (p.model? model).bind fun m => (env.scales.find? (·.1 == m.weights)).map (·.2)

/-- A tensor that an item names has a scale record; before its object is written none can be looked for (R195, R216;
log 49). -/
def tensorKnown (p : Plan) (env : LoadEnv) (model tensor : Nat) : Bool :=
  (scalesOf p env model).all fun t => t.any (·.tensor == tensor)

/-- What a load checks of tensors: their combined scales and reciprocals, at the model's record, and the tensors that items
name (R177, R195, R216). -/
def checkTensors (p : Plan) (env : LoadEnv) : List Reject :=
  (p.models.flatMap fun m => rng ((scalesOf p env m.ref).all fun t => t.all fun r => boundScalesOk r.sW r.sIn r.sOut) m.off) ++
  (p.epilogues.flatMap fun e => rng (tensorKnown p env e.model e.tensor) (e.off + 4)) ++
  p.convs.flatMap fun c => rng (tensorKnown p env c.model c.tensor) (c.off + 4)

/-- Every range failure of an image (R69 step 6, CFG_RANGE). -/
def checkRanges (p : Plan) (env : LoadEnv) (ds : List ItemDesc) : List Reject :=
  rng (p.role ≤ 5) 0x1C ++ (if p.domainPlan then useCap p 29 0x0E else []) ++
  p.stages.flatMap (checkStage p) ++ uniq (·.id) (·.off) [] p.stages ++
  p.routes.flatMap (checkRoute p) ++ uniq (·.id) (·.off) [] p.routes ++
  p.placements.flatMap (checkPlacement p) ++ uniq (·.id) (·.off) [] p.placements ++
  p.models.flatMap (checkModel p) ++ uniq (·.ref) (·.off) [] p.models ++
  p.searches.flatMap (checkSearch p) ++ uniq (·.id) (·.off) [] p.searches ++
  p.policies.flatMap (checkPolicy p) ++ uniq (·.id) (·.off) [] p.policies ++
  rng (p.policy? 0).isSome (p.dirOff 10) ++ checkQuotas p ++
  checkTensors p env ++ ds.flatMap (checkItem p env) ++ checkCounts ds ++ checkTokenizer p ds ++
  ([6, 7, 8, 9].flatMap fun t => uniq (·.id) (·.off) [] (ds.filter fun d => d.sec == t)) ++
  uniq (fun (e : Epilogue) => (e.model, e.tensor)) (·.off + 4) [] p.epilogues ++
  uniq (fun (f : FilterSpec) => (f.coll, f.tenant)) (·.off + 2) [] p.filters ++
  uniq (·.coll) (·.off) [] p.colls ++ uniq (·.model) (·.off) [] p.reranks ++ uniq (·.model) (·.off) [] p.gens ++
  uniq (·.coll) (·.off) [] p.shardMaps ++ uniq (·.coll) (·.off) [] p.leads

/-- Reserved bits and bytes of every body (R62, CFG_RESERVED_BIT). -/
def checkBodyResv (p : Plan) (ds : List ItemDesc) : List Reject :=
  ds.flatMap fun d => resvFails d.body 0 (bodyResv p.vocab.length d) |>.map fun f => { f with off := d.bodyAt + f.off }

/-! ### Step 6: routes, placement, models, quotas -/

/-- The rank of a stage kind; a GENERIC stage takes the rank before it (R49). -/
def stageRank (prev : Option Nat) (kind : Nat) : Nat :=
  match kind with
  | 0 => 0
  | 1 => 1
  | 2 => 1
  | 3 => 2
  | 4 => 3
  | 5 => 4
  | 6 => 5
  | _ => prev.getD 0

/-- The hops of one route in order (R54): `i` is the hop's number. -/
def routeFails (p : Plan) (r : Route) : Nat → Option Nat → List Nat → List Hop → List Reject
  | _, _, _, [] => []
  | i, prev, seen, h :: hs =>
    let at' := r.off + 4 + i
    match p.stage? h.stage with
    | none => [⟨at', 9, r.id⟩]
    | some s =>
      let k := stageRank prev s.kind
      let bad := seen.contains h.stage || (prev.any fun q => decide (k < q)) || (h.par && prev != some k)
      if bad then [⟨at', 9, r.id⟩] else routeFails p r (i + 1) (some k) (h.stage :: seen) hs

/-- CFG_ROUTE_ORDER (R54). -/
def checkRoutes (p : Plan) : List Reject :=
  (p.routes.mapIdx fun i r =>
    let before := (p.routes.take i).foldl (fun m q => m ||| q.typeMask) 0
    chk 9 r.id (r.typeMask &&& before == 0) (r.off + 2) ++ routeFails p r 0 none [] r.hops).flatten

/-- The units of a spread, ascending (R368). -/
def spreadUnits (spread : Nat) : List Nat := (List.range 16).filter fun i => spread.testBit i

/-- How many pages each unit of a spread takes: the unit at position k holds ceil((size − k) ÷ n) (R368). -/
def spreadPages (size spread : Nat) : List (Nat × Nat) :=
  let us := spreadUnits spread
  us.mapIdx fun k u => (u, ceilDiv (size - k) us.length)

/-- Take pages from room: none where a unit has too few frames. -/
def takeRoom (tier : Nat) : List (Nat × Nat × Nat) → List (Nat × Nat) → Option (List (Nat × Nat × Nat))
  | room, [] => some room
  | room, (u, n) :: r =>
    match room.find? fun x => x.1 == tier && x.2.1 == u with
    | none => if n = 0 then takeRoom tier room r else none
    | some x =>
      if x.2.2 < n then none
      else takeRoom tier (room.map fun y => if y.1 == tier && y.2.1 == u then (y.1, y.2.1, y.2.2 - n) else y) r

/-- The first record, in record order, that runs past a capacity (R57). -/
def firstOver (existing : List Placement) : List (Nat × Nat × Nat) → Nat → List Placement → Option Nat
  | _, _, [] => none
  | room, blocks, x :: xs =>
    if existing.any fun e => e.id == x.id then firstOver existing room blocks xs
    else if x.tier = 2 then
      if blocks < x.size then some (x.off + 8) else firstOver existing room (blocks - x.size) xs
    else
      match takeRoom x.tier room (spreadPages x.size x.spread) with
      | none => some (x.off + 8)
      | some room' => firstOver existing room' blocks xs

/-- One placement against the object that exists (R57). -/
def differs (e x : Placement) : List Reject :=
  let f := chk 11 0
  f (e.kind == x.kind) (x.off + 4) ++ f (e.tier == x.tier) (x.off + 5) ++ f (e.tenant == x.tenant) (x.off + 6) ++
  f (e.size == x.size) (x.off + 8) ++ f (e.spread == x.spread) (x.off + 12)

/-- CFG_PLACEMENT (R57, R276). -/
def checkPlaces (p : Plan) (env : LoadEnv) : List Reject :=
  let f := chk 11 0
  let journals := p.placements.filter (·.kind == 10)
  let mgr := p.role == 0 || p.role == 1 || p.role == 5
  (match firstOver env.existing env.room env.stkRoom p.placements with
    | some o => f false o
    | none => []) ++
  (p.placements.flatMap fun x =>
    f (x.tier != 1 || (spreadUnits x.spread).all fun u => env.present.contains u) (x.off + 12) ++
    (match env.existing.find? fun e => e.id == x.id with
      | some e => differs e x
      | none => []) ++
    (if x.kind = 10 then f mgr (x.off + 4) ++ f (x.tier == 1) (x.off + 5) else [])) ++
  (if mgr then
    match journals with
    | [] => f false (p.dirOff 3)
    | [_] => []
    | _ :: y :: _ => f false (y.off + 4)
   else []) ++
  p.colls.flatMap fun s =>
    match p.search? s.coll with
    | none => []
    | some c => (collObjects c s).flatMap fun (id, _, _, used, _, tiers) =>
        match p.place? id with
        | some x => if used then f (tiers.contains x.tier) (x.off + 5) ++ f x.resident (x.off + 14) else []
        | none => []

/-- CFG_MODEL_MISMATCH (R61). -/
def checkDigests (p : Plan) (env : LoadEnv) : List Reject :=
  p.models.flatMap fun m =>
    match env.digests.find? fun d => d.1 == m.weights with
    | some d => if m.weights.testBit 31 then chk 13 m.ref (d.2 == m.digest) (m.off + 32) else []
    | none => []

/-- A tenant's use in a tier with this image as the shadow set (R383). -/
def imageUse (p : Plan) (env : LoadEnv) (tenant tier : Nat) : Nat :=
  let new := p.placements.filter fun x => !(x.resident && env.held.any fun e => e.id == x.id)
  let objs := (env.held ++ new).filter fun x => x.tenant == tenant && x.tier == tier
  let recs := if tier = 2 then ((env.recBlocks.filter fun r => r.1 == tenant).map (·.2)).sum else 0
  (objs.map (·.size)).sum + recs

/-- CFG_QUOTA_BELOW_USE (R59, R383). A tenant without a record has quota zero everywhere. -/
def checkQuotaUse (p : Plan) (env : LoadEnv) : List Reject :=
  let tenants := dedup ((p.placements.map (·.tenant)) ++ (env.held.map (·.tenant)) ++ (env.recBlocks.map (·.1)) ++
    p.quotas.map (·.tenant))
  tenants.flatMap fun t =>
    match p.quota? t with
    | some q =>
      chk 12 t (imageUse p env t 0 ≤ q.hbm) (q.off + 4) ++ chk 12 t (imageUse p env t 1 ≤ q.ddr) (q.off + 8) ++
      chk 12 t (imageUse p env t 2 ≤ q.stk) (q.off + 12)
    | none => chk 12 t (imageUse p env t 0 + imageUse p env t 1 + imageUse p env t 2 == 0) (p.dirOff 4)

/-- Step 6 whole (R69). -/
def checkStep6 (b : List Byte) (p : Plan) (env : LoadEnv) : Option Reject :=
  let ds := readItems b (readDir b (u16 b 12))
  firstFail [checkRanges p env ds, checkBodyResv p ds, checkRoutes p, checkPlaces p env, checkDigests p env,
    checkQuotaUse p env]

/-! ### Step 7: binding -/

/-- A stage's Benches: those reserved, in the order taken, and those it issues to (R52). -/
structure Binding where
  stage : Nat
  reserved : List Nat
  issue : List Nat
  deriving DecidableEq, Repr

/-- The lowest `n` free Benches of a list. -/
def takeFree (taken : List Nat) (n : Nat) (cands : List Nat) : List Nat :=
  (cands.filter fun b => !taken.contains b).take n

/-- Benches of a die, ascending. -/
def dieBenches (d : Nat) : List Nat := (List.range 24).map (24 * d + ·)

/-- The Benches a stage takes; none where it finds too few (R52). -/
def bindStage (taken : List Nat) (s : Stage) : Option Binding :=
  let need := ceilDiv (s.beMax * 256) benchRating
  let run := ceilDiv (s.beMin * 256) benchRating
  let got := if s.half = 3 then [0, 1, 2, 3].flatMap fun d => takeFree taken (need / 4) (dieBenches d)
    else takeFree taken need ((match s.half with
      | 1 => [0, 2]
      | 2 => [1, 3]
      | _ => [0, 1, 2, 3]).flatMap dieBenches)
  if got.length = need then some ⟨s.id, got, got.take run⟩ else none

/-- Stages bound in order; a stage that cannot be bound is reported at its `be_max`. -/
def bindAll : List Nat → List Stage → List Binding × Option Reject
  | _, [] => ([], none)
  | taken, s :: ss =>
    match bindStage taken s with
    | none => ([], some ⟨s.off + 4, 10, s.id⟩)
    | some b => let r := bindAll (taken ++ b.reserved) ss; (b :: r.1, r.2)

/-- R52, R79: the binding of a plan, a fenced Bench never free. -/
def bindPlan (fenced : List Nat) (p : Plan) : List Binding × Option Reject :=
  bindAll fenced (sortBy (fun a b => decide (a.id ≤ b.id)) p.stages)

end Sys2Proof.Machine
end

