-- ==== Sys2Proof/Machine/Search.lean ====
section
/-! DEFINITION. Scoring, the graph walk, the scans and edge selection (12 R279 to R304). -/

namespace Sys2Proof.Machine

/-- A slot state word (R279, R280). -/
structure SlotState where
  gen : Nat
  live : Bool
  tomb : Bool
  attr : Nat
  deriving DecidableEq, Repr

/-- Decode a slot state word. -/
def slotOfWord (w : Nat) : SlotState := ⟨w % 256, w.testBit 8, w.testBit 9, w / 65536 % 2 ^ 48⟩

/-- Encode a slot state word. -/
def SlotState.word (s : SlotState) : Nat :=
  s.gen % 256 + (if s.live then 256 else 0) + (if s.tomb then 512 else 0) + 65536 * (s.attr % 2 ^ 48)

/-- 0b00 FREE (R280). -/
def SlotState.isFree (s : SlotState) : Bool := !s.live && !s.tomb
/-- 0b01 LIVE. -/
def SlotState.isLive (s : SlotState) : Bool := s.live && !s.tomb
/-- 0b11 DELETED. -/
def SlotState.isDeleted (s : SlotState) : Bool := s.live && s.tomb
/-- LIVE or DELETED: the slot holds a passage. -/
def SlotState.holds (s : SlotState) : Bool := s.live

/-- The passage id of a slot (R281). -/
def passageId (gen shard slot : Nat) : W64 := BitVec.ofNat 64 (gen % 256 * 2 ^ 56 + shard % 2 ^ 24 * 2 ^ 32 + slot % 2 ^ 32)

/-- local_slot of a passage id. -/
def localSlot (id : W64) : Nat := id.toNat % 2 ^ 32
/-- shard of a passage id. -/
def shardOf (id : W64) : Nat := id.toNat / 2 ^ 32 % 2 ^ 24

/-- No edge (R276). -/
def noEdge : W64 := 0xFFFFFFFFFFFFFFFF#64

/-- The sum of R283 over paired elements: INNER and COSINE, or L2 (`l2`). -/
def scoreSum (l2 : Bool) : W32 → List (W32 × W32) → W32
  | acc, [] => acc
  | acc, (q, x) :: r =>
    if l2 then let t := f32Sub q x; scoreSum l2 (f32Fma t t acc) r else scoreSum l2 (f32Fma q x acc) r

/-- The exact score of R283 for a prepared query (metric 0 is L2). -/
def exactScore (metric : Nat) (q x : List W32) : W32 :=
  let a := scoreSum (metric == 0) 0 (q.zip x)
  if metric = 0 then f32Neg a else a

/-- The query as R283 prepares it: under COSINE it is scaled by RSQRT of its squared sum. Also the results flushed. -/
def prepareQuery (metric : Nat) (q : List W32) : List W32 × Nat :=
  if metric = 2 then
    let s := scoreSum false 0 (q.zip q)
    if fpIsZero (f32 s) then (q, 0) else
    let r := stat 4 s
    (q.map fun x => f32Mul x r.1, r.2)
  else (q, 0)

/-- Elements `m · n` to `m · n + n − 1` of a vector. -/
def subVec (n m : Nat) (x : List W32) : List W32 := (x.drop (m * n)).take n

/-- The FP16 distance table of R284 as FP32 values, row m of 256 entries, and what R181 counted. `centroid m c` is a
centroid of the codebook. -/
def distTable (metric dims subs : Nat) (centroid : Nat → Nat → List W32) (q : List W32) :
    List (List W32) × ConvCount :=
  let n := dims / subs
  let rows := (List.range subs).map fun m => (List.range 256).map fun c =>
    toFP16 (exactScore metric (subVec n m q) (centroid m c))
  (rows.map fun r => r.map fun e => widen32 fmtFP16 e.1,
   (rows.flatMap fun r => r.map (·.2)).foldl ConvCount.add {})
where
  /-- Conversion to FP16 by R181. -/
  toFP16 (v : W32) : Nat × ConvCount := convFloat fmtFP16 (f32 v)

/-- The approximate score of a slot's codes (R284). -/
def approxScore (table : List (List W32)) (codes : List Byte) : W32 :=
  ((table.zip codes).map fun (row, c) => row.getD c.toNat 0).foldl f32Add 0

/-- R299: the code of each subspace: the centroid of the largest L2 score, the lowest of equals. -/
def encodeVector (dims subs : Nat) (centroid : Nat → Nat → List W32) (x : List W32) : List Byte :=
  let n := dims / subs
  (List.range subs).map fun m =>
    let v := subVec n m x
    let best := (List.range 256).foldl (fun (a : Nat × W32) c =>
      let s := exactScore 0 v (centroid m c)
      if f32Lt a.2 s then (c, s) else a) (0, exactScore 0 v (centroid m 0))
    BitVec.ofNat 8 best.1

/-- Attribute masks of a filter (R290). -/
structure AttrFilter where
  require : Nat
  forbid : Nat
  deriving DecidableEq, Repr

/-- Whether attributes pass a filter; no filter passes all. -/
def attrPass (f : Option AttrFilter) (attr : Nat) : Bool :=
  match f with
  | none => true
  | some g => (attr &&& g.require) == g.require && (attr &&& g.forbid) == 0

/-- What a walk or scan reads: slots as visible to its step, edges at the pinned version, and scores. -/
structure SearchView where
  slots : Nat
  degree : Nat
  shard : Nat
  slot : Nat → SlotState
  edges : Nat → List W64
  score : Nat → W32

/-- What a walk counts (R287, R285). -/
structure WalkCounts where
  stale : Nat := 0
  cap : Nat := 0
  widen : Nat := 0
  nan : Bool := false
  deriving DecidableEq, Repr

/-- A walk in progress (R287): the list L with its expanded marks, in rank order. -/
structure Walk where
  b : Nat
  x : Nat
  list : List (Entry × Bool)
  visited : List W64
  /-- Nodes whose edges were read. -/
  expanded : List W64
  kept : List Entry
  counts : WalkCounts
  deriving DecidableEq, Repr

/-- The id an entry of slot `s` carries. -/
def SearchView.idOf (v : SearchView) (s : Nat) : W64 := passageId (v.slot s).gen v.shard s

/-- consider(e): not deleted and passing the filter, kept among the `need` best (R287). -/
def consider (v : SearchView) (f : Option AttrFilter) (need : Nat) (e : Entry) (kept : List Entry) : List Entry :=
  let s := v.slot (localSlot e.payload)
  if s.isLive && attrPass f s.attr then (insertBy (fun a b => decide (b.key ≤ a.key)) e kept).take need else kept

/-- An edge that the walk skips as stale (R287). -/
def SearchView.staleEdge (v : SearchView) (e : W64) : Bool :=
  let s := localSlot e
  decide (v.slots ≤ s) || !(v.slot s).holds || genOf e != (v.slot s).gen

/-- One edge of an expanded node (R287). -/
def walkEdge (v : SearchView) (f : Option AttrFilter) (need expand : Nat) (w : Walk) (e : W64) : Walk :=
  if e = noEdge then w
  else if v.staleEdge e then { w with counts := { w.counts with stale := w.counts.stale + 1 } }
  else if w.visited.contains e then w
  else
    let s := v.score (localSlot e)
    let w := { w with visited := e :: w.visited }
    if f32IsNan s then { w with counts := { w.counts with nan := true } }
    else
      let en : Entry := ⟨s, e⟩
      { w with
        list := (insertBy (fun a b => decide (b.1.key ≤ a.1.key)) (en, false) w.list).take expand
        kept := consider v f need en w.kept }

/-- Mark the first entry equal to `e` as expanded. -/
def markExpanded (e : Entry) : List (Entry × Bool) → List (Entry × Bool)
  | [] => []
  | p :: ps => if p.1 = e && !p.2 then (p.1, true) :: ps else p :: markExpanded e ps

/-- The walk's loop (R287): every turn expands a node, widens the beam, or returns. -/
def walkLoop (v : SearchView) (f : Option AttrFilter) (need expand : Nat) : Nat → Walk → Walk
  | 0, w => w
  | fuel + 1, w =>
    match (w.list.take w.b).find? fun p => !p.2 with
    | some p =>
      if 32768 ≤ w.x then { w with counts := { w.counts with cap := w.counts.cap + 1 } }
      else
        let w1 := { w with x := w.x + 1, list := markExpanded p.1 w.list, expanded := p.1.payload :: w.expanded }
        walkLoop v f need expand fuel ((v.edges (localSlot p.1.payload)).foldl (walkEdge v f need expand) w1)
    | none =>
      if need ≤ w.kept.length || f.isNone || expand ≤ w.b then w
      else walkLoop v f need expand fuel
        { w with b := min (2 * w.b) expand, counts := { w.counts with widen := w.counts.widen + 1 } }

/-- A whole walk from an entry (R287): the list R and the counts. At most 32,768 expansions and 12 widenings. -/
def walkFrom (v : SearchView) (f : Option AttrFilter) (need beam expand : Nat) (entry : Option W64) : Walk :=
  match entry with
  | none => ⟨beam, 0, [], [], [], [], {}⟩
  | some e =>
    let s0 := v.score (localSlot e)
    let bad := f32IsNan s0
    let en : Entry := ⟨if bad then f32Inf true else s0, e⟩
    walkLoop v f need expand 32800
      ⟨beam, 0, [(en, false)], [e], [], if bad then [] else consider v f need en [], { nan := bad }⟩

/-- Entries scored one by one through `consider` (R289, R294): candidates are passage ids whose slot holds them. -/
def scanSlots (v : SearchView) (f : Option AttrFilter) (need : Nat) (ids : List W64) : List Entry × Bool :=
  ids.foldl (fun (a : List Entry × Bool) id =>
    let s := v.slot (localSlot id)
    if decide (v.slots ≤ localSlot id) || !s.isLive || s.gen != genOf id || !attrPass f s.attr then a
    else
      let sc := v.score (localSlot id)
      if f32IsNan sc then (a.1, true) else (consider v f need ⟨sc, id⟩ a.1, a.2)) ([], false)

/-! ### Edge selection (R304) -/

/-- Rules 1 and 2 of R304: candidates with their scores against the node, in rank order. -/
def rankCandidates (v : SearchView) (score : Nat → Nat → W32) (n : W64) (cands : List W64) : List Entry :=
  keyDesc ((dedup (cands.filter fun c => c != n && c != noEdge && !v.staleEdge c)).filterMap fun c =>
    let s := score (localSlot c) (localSlot n)
    if f32IsNan s then none else some ⟨s, c⟩)

/-- Rule 3 of R304: candidates taken in rank order while they are closer to the node than to each edge taken. -/
def takeEdges (score : Nat → Nat → W32) (degree : Nat) : List Entry → List Entry → List Entry
  | taken, [] => taken
  | taken, c :: cs =>
    if degree ≤ taken.length then taken
    else if taken.all fun s => f32Le (score (localSlot c.payload) (localSlot s.payload)) c.score then
      takeEdges score degree (taken ++ [c]) cs
    else takeEdges score degree taken cs

/-- R304: the edges of a node, in the order taken; `score c n` is the score of c against n. -/
def selectEdges (v : SearchView) (score : Nat → Nat → W32) (n : W64) (cands : List W64) : List W64 :=
  let ranked := rankCandidates v score n cands
  let taken := takeEdges score v.degree [] ranked
  let rest := ranked.filter fun c => !taken.contains c
  ((taken ++ rest).take v.degree).map (·.payload)

/-- Edges padded with no edge (R304). -/
def padEdges (degree : Nat) (es : List W64) : List W64 := es ++ List.replicate (degree - es.length) noEdge

/-! ### Sampling (R356, R357) -/

/-- R357: the draw u for the token of index `t`. -/
def drawU (seed : W64) (t : Nat) : W32 :=
  let z0 : W64 := seed + BitVec.ofNat 64 (t + 1) * 0x9E3779B97F4A7C15#64
  let z1 := (z0 ^^^ (z0 >>> 30)) * 0xBF58476D1CE4E5B9#64
  let z2 := (z1 ^^^ (z1 >>> 27)) * 0x94D049BB133111EB#64
  let z3 := z2 ^^^ (z2 >>> 31)
  f32Round false ⟨(z3 >>> 40).toNat, -24⟩

/-- The sampling parameters of a DECODE (R356). -/
structure Sampling where
  seed : W64
  temperature : W32
  topP : W32
  topK : Nat
  repetition : W32
  presence : W32
  frequency : W32
  deriving DecidableEq, Repr

/-- The penalties of R356 on one logit. -/
def penalize (p : Sampling) (count : Nat) (l : W32) : W32 :=
  if count = 0 then l else
  let l1 := if f32Lt 0 l then f32Div l p.repetition else f32Mul l p.repetition
  let l2 := f32Sub l1 p.presence
  f32Sub l2 (f32Mul p.frequency (f32OfInt count))

/-- Cumulative sums, one RNE each (R356). -/
def cumSums : W32 → List W32 → List W32
  | _, [] => []
  | acc, p :: ps => let c := f32Add acc p; c :: cumSums c ps

/-- The token chosen from the logits, none for NO_TOKEN (R356); NaNs dropped by the Screen and SFU flushes. -/
def sampleToken (p : Sampling) (tokIndex : Nat) (allowed : Nat → Bool) (tally : Nat → Nat) (logits : List W32) :
    Option Nat × Nat × Nat :=
  let scores := logits.mapIdx fun v l => penalize p (tally v) (if allowed v then l else f32Inf true)
  if scores.all fun s => f32IsNan s || s == f32Inf true then (none, 0, 0)
  else if fpIsZero (f32 p.temperature) then let r := indexMax scores; (r.1, r.2, 0)
  else
    let ents : List Entry := scores.mapIdx fun v s => ⟨f32Div s p.temperature, BitVec.ofNat 64 v⟩
    let sel := selectBest false (if p.topK = 0 then 4096 else p.topK) ents
    let soft := softmaxRow (sel.1.map (·.score))
    let cum := cumSums 0 soft.1
    let j := (cum.findIdx? fun c => f32Le p.topP c).getD (cum.length - 1)
    let target := f32Mul (drawU p.seed tokIndex) (cum.getD j 0)
    let i := ((cum.take (j + 1)).findIdx? fun c => f32Lt target c).getD j
    ((sel.1[i]?).map fun e => e.payload.toNat, sel.2.nan, soft.2)

end Sys2Proof.Machine
end

