-- ==== Sys2Proof/Machine/State.lean ====
section
/-! DEFINITION. The state of the device as plain data, with its reset. Default values are the reset values: those the
manual gives, and otherwise the ones logs 4 to 6 name. -/

namespace Sys2Proof.Machine

/-! ### Transactions the device sends (R446, R473) -/

/-- Body of a transaction the device sends, one constructor for each operation of R446 it originates. -/
inductive Msg where
  | mresp (offset data : W64) (status : Nat)
  | mwrite (offset data : W64)
  | intakeAck (tag : W64) (outcome : Nat)
  | fetchResp (status segOff : Nat) (data : List Byte)
  | workFwd (h : FwdHead) (desc input : List Byte)
  | answer (a : Answer)
  | rerankFwd (h : FwdHead) (desc : List Byte) (tokens : List Nat) (ids : List W64)
  | prompt (h : FwdHead) (desc : List Byte) (decodeNode : Node) (tokens : List Nat)
  | gatherReq (table version hardLeft : Nat) (index : List Nat)
  | gatherAns (table version count sliceFirst sliceWidth : Nat) (rows : List Byte)
  | mirrorEntry (e : JEntry)
  | mirrorAck (pos : W64) (superseded : Bool)
  | streamRec (record : List Byte)
  | heartbeat (kind : Nat) (h : Heartbeat)
  | enum (kind domain slot : Nat) (node : Node) (uid : W64) (entries : List (Nat × Nat))
  | prepare (epoch : Nat)
  | prepared (code detail : Nat) (slices : List Slice)
  | commit (epoch : Nat) (point : Ticket)
  | abort (epoch : Nat)
  | publishPrep (table version : Nat)
  | ready (table code : Nat)
  | publishCommit (table version : Nat)
  | retire (table version : Nat)
  | cancelFwd (expired : Bool)
  | cacheOpen (promptLen lastToken kvFormat layers : Nat)
  | opened (handle : W64)
  | noRoom
  | kvBlock (h : KvHead) (segOff : Nat) (data : List Byte)
  | kvAck (handle : W64) (layer index : Nat)
  | prefillDone (handle : W64)
  | kvLost (handle : W64)
  | cacheDrop (handle : W64)
  | wr (addr : Nat) (data : List Byte)
  | rdData (status : Nat) (data : List Byte)
  | wrAck (status : Nat)
  deriving DecidableEq, Repr

/-- A transaction with its header's addresses, `txn_id` and ticket (R444). -/
structure Txn where
  dst : Node
  src : Node
  txn : W16
  ticket : Ticket
  msg : Msg
  deriving DecidableEq, Repr

/-! ### Plan sets, loads and swaps (03, 04) -/

/-- A bound plan (04): `serial` tells its job-context objects from another set's (R594). -/
structure PlanSet where
  plan : Plan
  binding : List Binding
  epoch : Nat
  serial : Nat
  deriving DecidableEq, Repr

/-- A plan load in progress (R69, R70): `step` is the next step to run. -/
structure Load where
  began : Nat
  cmdLen : Nat
  step : Nat
  image : List Byte
  binding : List Binding
  rebound : Bool
  deriving DecidableEq, Repr

/-- A swap between steps 2 and 5 (R82); `point` is the domain swap point of R94. -/
structure Swap where
  ticket : Ticket
  began : Nat
  first : Nat
  count : Nat
  installed : List Nat
  point : Option Ticket
  deriving DecidableEq, Repr

/-- A prepared domain swap (R94, R98). -/
structure PreparedSwap where
  epoch : Nat
  since : Nat
  waited : Bool
  deriving DecidableEq, Repr

/-- The manager's domain swap while it collects answers (R94): (node, code, detail, slices). -/
structure DomSwap where
  ticket : Ticket
  epoch : Nat
  since : Nat
  first : Nat
  count : Nat
  members : List Node
  answers : List (Node × Nat × Nat × List Slice)
  /-- The domain swap point and its SWAP_COMMIT entry's position, once stamped. -/
  point : Option (Ticket × W64)
  deriving DecidableEq, Repr

structure Cfg where
  active : Option PlanSet := none
  shadow : Option PlanSet := none
  retiring : Option PlanSet := none
  load : Option Load := none
  loadCode : Byte := 0
  loadDetail : W16 := 0
  rejectOffset : W32 := 0
  swap : Option Swap := none
  swapCode : Byte := 0
  swapDetail : W16 := 0
  setEpoch : W16 := 0
  swapTicket : Ticket := 0
  prepared : Option PreparedSwap := none
  lateEpoch : Option Nat := none
  domSwap : Option DomSwap := none
  /-- Slices that the members of the present set reported (R262). -/
  slices : List (Node × List Slice) := []
  serial : Nat := 0
  stepping : Byte := 1
  deriving DecidableEq, Repr

structure Sec where
  slots : List (Nat × Nat × Nat) := [(0, 0, 0), (0, 0, 0), (0, 0, 0), (0, 0, 0)]
  rollbackMin : W32 := 0
  rollbackImage : W32 := 0
  sigFailPlan : W16 := 0
  sigFailFw : W16 := 0
  sigFailClear : W16 := 0
  deriving DecidableEq, Repr

/-! ### Weighbridge (06) -/

/-- A ring the host reads (R151, R159, R160): `pass` is the phase of the current pass. -/
structure Ring where
  log2 : BitVec 4 := 0
  head : W16 := 0
  tail : W16 := 0
  enable : Bool := false
  pass : Bool := true
  fullSince : Option Nat := none
  deriving DecidableEq, Repr

/-- A completion (R112) with its result bytes; `pos` is its COMPLETE entry's journal position once written, `phase` the
ring pass in which it was last posted. -/
structure Comp where
  ticket : Ticket
  tag : W64
  status : Nat
  filterShort : Bool
  nanSeen : Bool
  shortK : Bool
  degraded : Nat
  endReason : Nat
  detail : Nat
  cookie : W64
  result0 : W64
  node : Node
  nValid : Nat
  elapsedUs : Nat
  indexVersion : Nat
  result : List Byte
  pos : Option W64
  phase : Bool := false
  deriving DecidableEq, Repr

/-- A work descriptor's 128 bytes (R107). -/
abbrev Desc := List Byte

/-- A submission whose payload is still arriving (R449). -/
structure Sub where
  src : Node
  txn : W16
  desc : Desc
  data : List Byte
  last : Nat
  deriving DecidableEq, Repr

structure Wb where
  powerCycles : W32 := 0
  seq : BitVec 48 := 1
  mirrorOk : Bool := false
  solo : Bool := false
  seqWarn : Bool := false
  seqStop : Bool := false
  cqStalled : Bool := false
  /-- `high_seq` of the streams that have one (R138). -/
  streams : List (Nat × Nat) := []
  held : List (W64 × Ticket) := []
  journal : List JEntry := []
  journalPos : W64 := 0
  /-- Bytes of the journal not yet in the Stockpile (R144). -/
  tail : Nat := 0
  /-- Entries sent to the mirror: position, time sent, retry made (R140, R142). -/
  mirrorWait : List (W64 × Nat × Bool) := []
  holdback : List Comp := []
  posted : List Comp := []
  subs : List Sub := []
  cqBase : W64 := 0
  cq : Ring := {}
  dupSubmit : W16 := 0
  dupAnswer : W16 := 0
  reissued : W16 := 0
  orderReject : Byte := 0
  releaseMiss : Byte := 0
  deriving DecidableEq, Repr

/-! ### Jobs and requests (05, 02) -/

/-- Where a request is on its path (R29, R31, R36). -/
inductive Place where
  /-- Stamped, its journal entry at this position not yet mirrored (R140, R141); `reject` is the offset of R109 with
  which it completes once accepted; `txn` is the SUBMIT's. -/
  | acceptance (pos : W64) (src : Node) (txn : W16) (reject : Option Nat)
  | text
  /-- In the input queue of the first stage of its agenda. -/
  | queue
  /-- Held upstream because that queue is full (R31). -/
  | held
  | running
  /-- Waiting for workers' answers: false for step 9, true for step 12 (R33). -/
  | answers (rerank : Bool)
  | pack
  /-- On a manager: the prompt is with a prefill device, its cache on a decode device (R349). -/
  | prefill (device decode : Node)
  /-- On a prefill device: waiting for an OPENED answer, or moving blocks. -/
  | move
  /-- On a manager: forwarded whole to another member. -/
  | away
  /-- Its set is not the active one yet: it waits for the swap boundary (R80). -/
  | epoch
  | mutation
  | fold
  | publish
  deriving DecidableEq, Repr

/-- Decode state of a DECODE on its device (R354 to R360). -/
structure Decoding where
  handle : W64
  emitted : List Nat
  gram : Option GramConfig
  tally : List (Nat × Nat)
  spilled : Bool
  heldBytes : List Byte
  released : List Byte
  ended : Option Nat
  deriving DecidableEq, Repr

/-- A request in flight on this device. -/
structure Req where
  ticket : Ticket
  mgr : Ticket
  /-- Who gets the outcome: the manager's node, or none when this device accepted it. -/
  boss : Option Node
  shard : Nat
  desc : Desc
  payload : List Byte
  epoch : Nat
  start : Nat
  soft : Nat
  hard : Nat
  softPassed : Bool
  hardPassed : Bool
  /-- It has entered its first stage here (R111). -/
  begun : Bool
  /-- What it does here: 0 encode, 1 search, 2 rerank, 3 prefill, 4 decode, 5 no stage. -/
  phase : Nat
  place : Place
  /-- Step groups still to run here, each a list of stages (R30). -/
  agenda : List (List Nat)
  tokens : List Nat
  vector : List W32
  list : List Entry
  merged : List Entry
  passages : List (W64 × List Nat)
  placed : List W64
  packed : List Nat
  answers : List Answer
  waitFor : List (Nat × Node)
  degraded : Nat
  filterShort : Bool
  nanSeen : Bool
  indexVersion : Nat
  /-- Index versions it holds (R296). -/
  holds : List (Nat × Nat)
  /-- Pages drawn on demand: (object, page) (R384). -/
  drawn : List (Nat × Nat)
  dec : Option Decoding
  decodeNode : Node
  /-- The mutation has gone to a replica (R597). -/
  sent : Bool
  owed : Bool
  /-- Held by R480: no replica of its shard is UP. -/
  heldForReplica : Bool
  /-- Its rerank stage has run (R340). -/
  reranked : Bool
  /-- It ends with this status once the device that runs it answers (R118, R121); 0 for none. -/
  ending : Nat
  /-- It runs again after a takeover or a restart (R146, R149). -/
  again : Bool
  deriving DecidableEq, Repr

/-- What a running step will deliver to one request at its end, computed from what the step pinned. -/
structure StepOut where
  ticket : Ticket
  list : List Entry
  /-- Passages a rerank step fetched (R337). -/
  passages : List (W64 × List Nat)
  /-- Pairs it scores (R336). -/
  pairs : List (W64 × List Nat)
  /-- Tokens a model reads in this step. -/
  tokens : List Nat
  nanSeen : Bool
  filterShort : Bool
  indexVersion : Nat
  deriving DecidableEq, Repr

/-- A batch step in progress (R104, R105). -/
structure Step where
  stages : List Nat
  epoch : Nat
  start : Ticket
  began : Nat
  batch : List Ticket
  outs : List StepOut
  /-- Masked at an issue boundary: the step's output for them is discarded (R119). -/
  dropped : List Ticket
  /-- Collection versions and table versions it pins. -/
  pins : List (Nat × Nat)
  tablePins : List (Nat × Nat)
  /-- Rows gathered at the pinned versions: (table, index, row) (R258). -/
  rows : List (Nat × Nat × List W32)
  /-- Positions to count at the end of the step: (table, index, request) (R261). -/
  counts : List (Nat × Nat × Ticket)
  deriving DecidableEq, Repr

structure Job where
  phase : BitVec 2 := 0
  aborting : Bool := false
  cmdCode : Byte := 0
  faultCause : Byte := 0
  jobId : W32 := 0
  reqs : List Req := []
  steps : List Step := []
  outSat : W16 := 0
  outNan : W16 := 0
  intAccSat : W16 := 0
  kalbaClamp : Byte := 0
  sfuFlush : Byte := 0
  deriving DecidableEq, Repr

structure Dlm where
  softPassed : W16 := 0
  hardPassed : W16 := 0
  cancelMiss : W16 := 0
  intakeFull : W16 := 0
  deriving DecidableEq, Repr

/-! ### Faults, recorder (08, 19) -/

/-- A Bench's entry of the spare map, and the physical Slab at each logical position (R185, R205). -/
structure Bench where
  retired : BitVec 9 := 0
  fenced : Bool := false
  logical : List Nat := [0, 1, 2, 3, 4, 5, 6, 7]
  deriving DecidableEq, Repr

/-- An event record before it is written (R501, R503). -/
structure Rec where
  sev : Nat
  type : Nat
  hours : Nat
  ticket : Ticket
  kind : Nat
  unit : Nat
  sub : Nat
  code : Nat
  attempts : Nat
  action : Nat
  aux : W64
  extra : List Byte
  deriving DecidableEq, Repr

structure Flt where
  benches : List Bench := List.replicate 96 {}
  /-- Tiles in their second attempt: (Bench, logical position, tile's step ticket) (R200). -/
  retrying : List (Nat × Nat × Ticket) := []
  /-- Accumulator files and Bench stores, as bytes (R185). -/
  accs : List Host.Cell := []
  store : List Host.Cell := []
  assayTransient : W16 := 0
  slabRetired : Byte := 0
  benchFenced : Byte := 0
  assaySkip : W32 := 0
  alertBase : W64 := 0
  alert : Ring := {}
  minSeverity : BitVec 2 := 2
  alertLost : W32 := 0
  deriving DecidableEq, Repr

/-- A clear of the recorder between steps 3 and 5 of R516. -/
structure LogClearing where
  ticket : Ticket
  scope : Nat
  discarded : Nat
  since : Nat
  deriving DecidableEq, Repr

structure Log where
  flash : List Host.Cell := []
  queue : List Rec := []
  presPoint : Nat := 0x03000000
  ringPoint : Nat := 0x03100000
  mounted : Bool := false
  presFull : Bool := false
  flashFault : Bool := false
  dropCount : W32 := 0
  clear : Option LogClearing := none
  clearCode : Byte := 0
  nonce : W64 := 0
  token : List W64 := List.replicate 16 0
  sig : List W64 := List.replicate 6 0
  /-- The first record's read-back has differed once (R514). -/
  retry : Bool := false
  hours : Nat := 0
  hoursFlash : Nat := 0
  deriving DecidableEq, Repr

/-! ### Clocks, power, reset (20) -/

structure Clk where
  fallback : List Nat := []
  badWindow : List Nat := []
  halted : List Nat := []
  lastFailed : BitVec 12 := 0
  outFast : Bool := false
  ringBad : Bool := false
  srcBad : Bool := false
  transient : W16 := 0
  outCfg : W64 := 0x80
  fallbackFailed : Bool := false
  noRefclk : Bool := false
  deriving DecidableEq, Repr

structure Pwr where
  state : Nat := 0
  /-- A transition running: its target and when its present hop began (R534). -/
  move : Option (Nat × Nat) := none
  capBad : Bool := false
  capUnmet : Bool := false
  throttle : Bool := false
  avsFault : Bool := false
  code : Byte := 0
  issueFrac : Nat := 64
  cap : BitVec 12 := 0
  /-- The last 100 samples, newest first: (mV, mA) (R536). -/
  samples : List (Nat × Nat) := []
  inputMv : W16 := 0
  tmax : BitVec 10 := 0
  setpoint : Nat := 1800
  avsRetry : Bool := false
  deriving DecidableEq, Repr

structure Rst where
  lastReset : BitVec 3 := 0
  stagingAbsent : Bool := false
  /-- A firmware load running: its start and image (R552). -/
  fwLoad : Option (Nat × List Byte) := none
  fwCode : Byte := 0
  buildId : W64 := 0
  deriving DecidableEq, Repr

/-! ### Domain (18) and link (17) -/

/-- Member states, numbered as R489. -/
inductive MemberState where
  | absent | up | suspect | lost | excluded | removed
  deriving DecidableEq, Repr

structure Member where
  node : Node
  uid : W64
  state : MemberState := .up
  role : Nat := 7
  heard : Nat := 0
  beat : Option Heartbeat := none
  probed : Bool := false
  /-- It runs the domain's job (R471). -/
  inJob : Bool := false
  restoring : Bool := false
  deriving DecidableEq, Repr

/-- An enumeration this device runs (R464): HERE answers (uid, slot), then assignments not answered yet
(uid, node, sent twice, when). -/
structure Enum where
  domain : Nat
  since : Nat
  answers : List (W64 × Nat) := []
  assigned : Bool := false
  waiting : List (W64 × Node × Bool × Nat) := []
  deriving DecidableEq, Repr

structure Dom where
  override : Option Nat := none
  straps : BitVec 16 := 0
  uid : W64 := 0
  strapBad : Bool := false
  claimClash : Bool := false
  mgrEpoch : W32 := 0
  mgrNode : Option Node := none
  mirrorNode : Option Node := none
  members : List Member := []
  enum : Option Enum := none
  swapFail : Nat × Nat := (0, 0)
  /-- Replicas still to answer a mutation: (ticket, shard, node) (R477). -/
  owed : List (Ticket × Nat × Node) := []
  superseded : Bool := false
  sinceMgr : Nat := 0
  hbProbeOk : W16 := 0
  memberLost : Byte := 0
  takeovers : Byte := 0
  owedDropped : Byte := 0
  enumOverflow : Byte := 0
  staleEpoch : Byte := 0
  deriving DecidableEq, Repr

structure PortCfg where
  split : BitVec 2 := 0
  enable : Bool := true
  laneOff : Byte := 0
  deriving DecidableEq, Repr

/-- Sub-port states, numbered as R458. -/
inductive SubState where
  | down | training | up | laneChg
  deriving DecidableEq, Repr

/-- A DATA flit the device has sent or will send: its channel and payload with `sop` and `eop` (R430), and the
transaction it is part of, for R438; `first` marks that transaction's first flit. -/
structure DataFlit where
  vc : Nat
  sop : Bool
  eop : Bool
  first : Bool
  payload : List Byte
  txn : Txn
  deriving DecidableEq, Repr

structure SubPort where
  state : SubState := .down
  lanes : Byte := 0
  farKind : BitVec 2 := 0
  farBad : Bool := false
  creditStall : Bool := false
  farNode : Node := 0
  began : Nat := 0
  keepSeq : Bool := false
  sendSeq : W16 := 0
  expect : W16 := 0
  /-- Sent, not yet acknowledged, oldest first (R435). -/
  replay : List DataFlit := []
  waiting : List DataFlit := []
  farBuf : List Nat := [0, 0, 0, 0]
  farCount : List W16 := [0, 0, 0, 0]
  sentCount : List W16 := [0, 0, 0, 0]
  recvCount : List W16 := [0, 0, 0, 0]
  nakSent : Bool := false
  /-- A flit failed its check since the last one accepted, with these lanes flagged (R437). -/
  gapFailed : Bool := false
  flagged : Byte := 0
  /-- NAKs and timeouts that have named the oldest unacknowledged flit (R436, R454). -/
  naks : Nat := 0
  timeouts : Nat := 0
  /-- When `ack_seq` last advanced, and when a flit last left with an `ack_seq`, and which. -/
  ackSince : Nat := 0
  ackSent : Nat := 0
  ackedTo : W16 := 0
  stallSince : List (Option Nat) := [none, none, none, none]
  /-- Bytes of the transaction arriving on each channel (R430). -/
  arriving : List (List Byte) := [[], [], [], []]
  dropped : Byte := 0
  /-- Lanes that the training running may use. -/
  allowed : Byte := 0
  /-- Retrain once the lane change ends (R454). -/
  after : Bool := false
  crcFail : W32 := 0
  replayOk : W16 := 0
  laneDropped : Byte := 0
  portDown : Byte := 0
  deriving DecidableEq, Repr

structure Lnk where
  ports : List PortCfg := List.replicate 12 {}
  subs : List SubPort := List.replicate 48 {}
  node : Option Node := none
  /-- Transactions received whole, as bytes, not yet taken as commands (log 10). -/
  delivered : List (List Byte) := []
  /-- Flits the device has put on its lanes, oldest first: (sub-port, flit) (log 10). -/
  wire : List (Nat × List Byte) := []
  misroute : W16 := 0
  unreachable : Byte := 0
  badTxn : Byte := 0
  subIncomplete : Byte := 0
  reasmDrop : Byte := 0
  mgmtDenied : Byte := 0
  mgmtDup : Byte := 0
  deriving DecidableEq, Repr

/-- Answers kept for repeats (R448) and the banks of the select registers, newest use first (R563). -/
structure Mgmt where
  answers : List (Node × W16 × Txn) := []
  banks : List (Nat × List (Node × W64)) := []
  deriving DecidableEq, Repr

/-! ### Memory tiers and Haul (15) -/

/-- A placed object (R56, R366). `owner` is the plan set's serial of a job-context object, none for a resident one. Of a
weight object, `filled` lists the ranges of its bytes that have been written, and `digest` is recorded once all have been
(R61). -/
structure Obj where
  place : Placement
  owner : Option Nat
  page : Nat
  digest : Option Nat := none
  filled : List (Nat × Nat) := []
  deriving DecidableEq, Repr

/-- A directory entry (R367). -/
structure Page where
  page : Nat
  tier : Nat
  unit : Nat
  frame : Nat
  motion : Bool
  deriving DecidableEq, Repr

structure Mem where
  cells : List Host.Cell := []
  stacksFailed : List Nat := []
  modules : List (Option Module) := List.replicate 16 none
  objs : List Obj := []
  pages : List Page := []
  /-- HBM remap: (stack, 8 KiB block, spare unit) (R495). -/
  remap : List (Nat × Nat × Nat) := []
  /-- DDR5 rows awaiting hPPR: (channel, row address, module serial) (R496). -/
  ppr : List (Nat × Nat × Nat) := []
  eccCorrected : W16 := 0
  eccUncorrected : Byte := 0
  rowSpared : Byte := 0
  motionWaits : W16 := 0
  haulAbort : Byte := 0
  quotaHit : Byte := 0
  deriving DecidableEq, Repr

/-- A page move between its motion-start and switch tickets, and the accesses that wait for it (R379, R380). -/
structure Move where
  engine : Nat
  page : Nat
  tier : Nat
  unit : Nat
  frame : Nat
  since : Nat
  waiting : List Instr
  deriving DecidableEq, Repr

structure Haul where
  pointId : Byte := 0
  /-- Points still to run after the present one, with the records they perform. -/
  points : List (Nat × List Migration) := []
  running : Option (Nat × List Migration) := none
  /-- Pages of the running point not moved yet: (page, tier, unit). -/
  todo : List (Nat × Nat × Nat) := []
  moves : List Move := []
  resumed : Bool := false
  deriving DecidableEq, Repr

/-! ### Stockpile (16) -/

/-- What a write-buffer entry holds (R397). -/
inductive BufKind where
  | record | directory | log | journal | checkpoint | foldJournal | map | moved
  deriving DecidableEq, Repr

/-- A write-buffer entry: `lblock`/`page` is its logical place; `target` the block its program runs in. -/
structure BufEnt where
  id : Nat
  kind : BufKind
  lblock : Nat
  page : Nat
  bytes : Nat
  target : Option Nat
  deriving DecidableEq, Repr

/-- A log block and the page offsets its pages record (R399). -/
structure LogBlock where
  block : Nat
  lblock : Option Nat
  pages : List Nat
  last : Nat
  deriving DecidableEq, Repr

/-- A Stockpile block's use (R394, R395). -/
inductive BlockUse where
  | free | toErase | data | record | log | slc | flush | system | retired
  deriving DecidableEq, Repr

structure StkBlock where
  no : Nat
  lun : Nat
  use : BlockUse
  failMark : Bool
  eraseTried : Bool
  lblock : Option Nat
  deriving DecidableEq, Repr

structure Ctrl where
  buf : List BufEnt := []
  nextId : Nat := 0
  capMib : Nat := 0
  boundUs : Nat := 0
  rateMbs : Nat := 0
  slcTarget : Nat := 0
  slcHeld : List BufEnt := []
  /-- Programmed, with their map change still in the delta log (R400). -/
  fresh : List BufEnt := []
  deltas : Nat := 0
  deltaAt : Nat := 0
  deltaPrograms : Nat := 0
  fullImages : Nat := 0
  logs : List LogBlock := []
  blocks : List StkBlock := []
  lastWrite : Nat := 0
  slcAt : Nat := 0
  flushed : Bool := false
  deriving DecidableEq, Repr

/-- A passage record in the Stockpile and its directory entry (R405, R406). -/
structure PassRec where
  coll : Nat
  slot : Nat
  gen : Nat
  block : Nat
  off : Nat
  bytes : List Byte
  poisoned : Bool
  deriving DecidableEq, Repr

/-- A record block of a (collection, tenant) pair (R407). -/
structure RecBlock where
  id : Nat
  ctrl : Nat
  coll : Nat
  tenant : Nat
  openNow : Bool
  used : Nat
  deriving DecidableEq, Repr

/-- A collection-log entry (R408): kind 0 INSERT, 1 DELETE, 2 RELEASE. -/
structure CollLog where
  coll : Nat
  kind : Nat
  ticket : Ticket
  /-- The worker's own append ticket, which R409 compares with C. -/
  stamped : Ticket
  id : W64
  pos : Nat
  vector : List Byte
  attr : Nat
  state : SlotState
  deriving DecidableEq, Repr

/-- A fold-journal entry (R411): kind 1 BEGIN, 2 UNIT, 3 PUBLISH, 4 DONE. -/
structure FoldEnt where
  coll : Nat
  kind : Nat
  unitKind : Nat
  fold : Ticket
  number : Nat
  records : List (Nat × List W64)
  eprime : Nat
  base : Nat
  version : Nat
  count : Nat
  entry : W64
  deriving DecidableEq, Repr

/-- An index checkpoint (R409): the collection's bytes by object offset, and its scalar parts. -/
structure Checkpoint where
  coll : Nat
  start : Ticket
  version : Nat
  committed : Bool
  objects : List (Nat × List Host.Cell)
  screeBase : Nat
  screeTail : Nat
  entry : Option W64
  recorded : List (Ticket × Nat × W64)
  deriving DecidableEq, Repr

/-- What the last power-fail flush left (R414, R416). -/
structure Flush where
  thermal : Bool
  records : List Rec
  journal : List JEntry
  committed : List Bool
  deriving DecidableEq, Repr

structure Stk where
  pop : Option NandPop := none
  ready : Bool := false
  mediaBad : Bool := false
  pfReplayed : Bool := false
  pfIncomplete : Bool := false
  formatting : Option Nat := none
  formatted : Option Nat := none
  cmdCode : Byte := 0
  ctrls : List Ctrl := [{}, {}]
  records : List PassRec := []
  recBlocks : List RecBlock := []
  nextBlock : Nat := 0
  logs : List CollLog := []
  foldJournal : List FoldEnt := []
  checkpoints : List Checkpoint := []
  journalCopy : List JEntry := []
  flush : Option Flush := none
  rdRetryOk : W16 := 0
  rdFail : Byte := 0
  blkRetired : Byte := 0
  peFail : Byte := 0
  mergesFull : W16 := 0
  stkFull : Byte := 0
  deriving DecidableEq, Repr

/-! ### Collections (12), tables (11) -/

/-- A slot change waiting in the pending table (R295). -/
structure Pending where
  ticket : Ticket
  slot : Nat
  state : SlotState
  deriving DecidableEq, Repr

/-- A fold in progress or stopped (R303): `step` is the next of R303's steps, `done` the next unit's place in it. -/
structure Fold where
  ticket : Ticket
  request : Ticket
  eEnd : Nat
  step : Nat
  next : Nat
  units : Nat
  repair : List Nat
  deleted : List Nat
  records : List (Nat × List W64)
  running : Bool
  committed : Bool
  deriving DecidableEq, Repr

/-- The version a publication replaced, until it retires (R306). -/
structure OldVersion where
  version : Nat
  screeBase : Nat
  entry : Option W64
  deleted : List Nat
  fold : Ticket
  deriving DecidableEq, Repr

structure Coll where
  id : Nat
  spec : CollSpec
  par : SearchRec
  version : Nat := 0
  entry : Option W64 := none
  screeBase : Nat := 0
  screeTail : Nat := 0
  old : Option OldVersion := none
  overlay : List (Nat × List W64) := []
  compacting : Bool := false
  fold : Option Fold := none
  pending : List Pending := []
  /-- Manager tickets recorded with their outcome: (ticket, status, result0) (R148). -/
  recorded : List (Ticket × Nat × W64) := []
  folded : Bool := false
  restoring : Bool := false
  deriving DecidableEq, Repr

/-- Region states, numbered as R273. -/
inductive Region where
  | free | build | live | retiring
  deriving DecidableEq, Repr

structure Table where
  spec : TableSpec
  region0 : Region := .free
  region1 : Region := .free
  version : Nat := 0
  /-- The OPEN (false) or CLONE (true) that is moving data (R266). -/
  busy : Option Bool := none
  cmdCode : Byte := 0
  failMember : BitVec 10 := 0
  retireSeen : Bool := false
  /-- A publication prepared here: request ticket and version (R269). -/
  prepared : Option (Ticket × Nat) := none
  committed : Bool := false
  recorded : List (Ticket × Nat) := []
  deriving DecidableEq, Repr

/-- A publication the manager runs (R269). -/
structure Publication where
  ticket : Ticket
  table : Nat
  version : Nat
  since : Nat
  members : List Node
  answers : List (Node × Nat)
  committed : Bool
  /-- Journal position of its COMPLETE entry, until mirrored. -/
  pos : Option W64
  deriving DecidableEq, Repr

/-- A remote gather waiting for slices (R263): the passes still to serve, the first of them sent, and the slices that
have come for it as (first column, width, rows). -/
structure Gather where
  ticket : Ticket
  step : Ticket
  table : Nat
  version : Nat
  passes : List (List Nat)
  members : List Node
  slices : List (Nat × Nat × List Byte)
  deriving DecidableEq, Repr

structure Srch where
  colls : List Coll := []
  edgeStale : W16 := 0
  walkCap : Byte := 0
  filterShort : Byte := 0
  widenRounds : W16 := 0
  candDeleted : Byte := 0
  insFull : Byte := 0
  deriving DecidableEq, Repr

structure Gth where
  tables : List Table := []
  pubs : List Publication := []
  gathers : List Gather := []
  fetchSaved : W32 := 0
  idxRange : Byte := 0
  dirBad : Byte := 0
  cntSat : Byte := 0
  pubFail : Byte := 0
  deriving DecidableEq, Repr

structure Scr where
  nanDropped : W16 := 0
  mergeDup : W16 := 0
  genSuperseded : W16 := 0
  mergeConflict : Byte := 0
  shortLists : Byte := 0
  conflictId : W64 := 0
  conflictTicket : W64 := 0
  deriving DecidableEq, Repr

structure Txt where
  utf8Invalid : W16 := 0
  textTooLong : Byte := 0
  cgjInserted : Byte := 0
  unkPieces : W16 := 0
  packSkip : Byte := 0
  tokMismatch : Byte := 0
  srBase : W64 := 0
  sr : Ring := {}
  srWaiting : List (List Byte) := []
  deriving DecidableEq, Repr

structure Rrk where
  pairs : W32 := 0
  fetchSkip : W16 := 0
  trunc : W16 := 0
  deriving DecidableEq, Repr

/-! ### Prefill and decode (14) -/

/-- An open cache on this device (R344, R349 to R353): blocks written with their data by (layer, index). -/
structure Cache where
  handle : W64
  ticket : Ticket
  promptLen : Nat
  lastToken : Nat
  kvFormat : Nat
  layers : Nat
  reserved : Nat
  written : List (Nat × Nat × KvHead × List Byte)
  /-- Bytes of blocks whose segments are still arriving: (layer, index, offset, data). -/
  segments : List (Nat × Nat × Nat × List Byte)
  tokens : List Nat
  claimed : Option Ticket
  openedAt : Nat
  deriving DecidableEq, Repr

/-- A prompt's move on the prefill device (R349): blocks sent (layer, index, time, resent) and acknowledged. -/
structure PfMove where
  ticket : Ticket
  mgr : Ticket
  decode : Node
  handle : Option W64
  tokens : List Nat
  layersDone : Nat
  sent : List (Nat × Nat × Nat × Bool)
  acked : List (Nat × Nat)
  /-- Blocks sent and not acknowledged. -/
  blocks : List (KvHead × List Byte)
  retryAt : Option Nat
  stopped : Bool
  deriving DecidableEq, Repr

structure Dec where
  caches : List Cache := []
  nextSlot : Nat := 1
  /-- Answers of decodes that ended, by claiming ticket (R352). -/
  ended : List (Ticket × W64 × Answer) := []
  moves : List PfMove := []
  kvResend : W16 := 0
  kvDup : W16 := 0
  idleFreed : Byte := 0
  tallySat : Byte := 0
  tallySpill : Byte := 0
  noToken : Byte := 0
  deriving DecidableEq, Repr

structure Lands where
  thermtrip : Bool := false
  /-- What CLKOUT drives: domain and divisor less 1. -/
  clkout : Option (Nat × Nat) := none
  i3cAddr : Option (BitVec 7) := none
  i3cIndex : Nat := 0
  i3cBusy : Option Nat := none
  i3cSent : List Byte := []
  tap : TapOp := .idcode
  deriving DecidableEq, Repr

/-! ### The whole device -/

/-- The life of the device (R414, R542, R550, R551). -/
inductive Life where
  /-- In power-on reset: nothing runs until BOOT. -/
  | held
  | ready
  | recovery
  /-- Steps 2 to 5 of R414. -/
  | flushing
  /-- Step 6 of R414. -/
  | halted
  deriving DecidableEq, Repr

/-- The device. The queue of commands, `now`, `free` and `out` are the model's own (logs 3, 8, 10). -/
structure State where
  life : Life := .held
  now : Nat := 0
  free : Nat := 0
  pending : List Instr := []
  out : List (Nat × Txn) := []
  cfg : Cfg := {}
  sec : Sec := {}
  wb : Wb := {}
  job : Job := {}
  dlm : Dlm := {}
  flt : Flt := {}
  log : Log := {}
  clk : Clk := {}
  pwr : Pwr := {}
  rst : Rst := {}
  dom : Dom := {}
  lnk : Lnk := {}
  mgmt : Mgmt := {}
  mem : Mem := {}
  haul : Haul := {}
  stk : Stk := {}
  srch : Srch := {}
  gth : Gth := {}
  scr : Scr := {}
  txt : Txt := {}
  rrk : Rrk := {}
  dec : Dec := {}
  lands : Lands := {}
  deriving DecidableEq, Repr

/-- The device in power-on reset, before BOOT (R544; log 4). -/
def State.reset : State := {}

/-- Why the device stops. -/
inductive Fault where
  /-- Raised by SUPPLY_MONITOR_TRIP when VIN passes its absolute maximum: R581 does not specify the device above it.
  Safe: the model claims nothing there. -/
  | aboveAbsoluteMaximum
  deriving DecidableEq, Repr

/-- Why a command has no meaning. -/
inductive Refusal where
  /-- Raised by the dispatch of a command that has no meaning yet. Safe: the model claims nothing there. -/
  | notModelled (mnemonic : String)
  deriving DecidableEq, Repr

end Sys2Proof.Machine
end

