-- ==== Sys2Proof/Machine/Flags.lean ====
section
/-! DEFINITION. Counters and status fields that a command raises: each RC count saturates (R130, R161, R183, R204,
R248, R274, R315, R333, R361, R362, R391, R423, R461, R492, R574). -/

namespace Sys2Proof.Machine

/-- Counts of one merge or selection (R317, R323, R324), with the conflict registers of R334. -/
def countMerge (t : Ticket) (m : MergeCounts) (s : State) : State :=
  let s := { s with scr.nanDropped := satAdd s.scr.nanDropped m.nan, scr.mergeDup := satAdd s.scr.mergeDup m.dup,
                    scr.genSuperseded := satAdd s.scr.genSuperseded m.superseded,
                    scr.mergeConflict := satAdd s.scr.mergeConflict m.conflicts.length }
  match m.conflicts.getLast? with
  | some p => { s with scr.conflictId := p, scr.conflictTicket := t }
  | none => s

/-- Counts of one walk (R315). -/
def countWalk (c : WalkCounts) (s : State) : State :=
  { s with srch.edgeStale := satAdd s.srch.edgeStale c.stale, srch.walkCap := satAdd s.srch.walkCap c.cap,
           srch.widenRounds := satAdd s.srch.widenRounds c.widen }

/-- JOB_ARITH_COUNTS (R183). -/
def countArith (c : ArithCounts) (s : State) : State :=
  { s with job.outSat := satAdd s.job.outSat c.sat, job.outNan := satAdd s.job.outNan c.nan,
           job.kalbaClamp := satAdd s.job.kalbaClamp c.kalba, job.sfuFlush := satAdd s.job.sfuFlush c.flush }

/-- TXT_COUNTS for one tokenized text (R248). -/
def countText (r : TokResult) (s : State) : State :=
  { s with txt.utf8Invalid := satAdd s.txt.utf8Invalid r.utf8Invalid, txt.cgjInserted := satAdd s.txt.cgjInserted r.cgj,
           txt.unkPieces := satAdd s.txt.unkPieces r.unk,
           txt.textTooLong := if r.refused then satInc s.txt.textTooLong else s.txt.textTooLong }

/-- A cancellation that found no request (R120, R597). -/
def cancelMissed (s : State) : State := { s with dlm.cancelMiss := satInc s.dlm.cancelMiss }

end Sys2Proof.Machine
end

