-- ==== Sys2Proof/Machine/Operands.lean ====
section
/-! DEFINITION. Fields of the operands that arrive as bytes: work descriptors (R107, R108), ring and base registers
(R158, R159), link addresses (R440), and what a register write's value says. -/

namespace Sys2Proof.Machine

/-! ### The work descriptor (R107) -/

def Desc.type (d : Desc) : Nat := u8 d 0
def Desc.streams (d : Desc) : Bool := (u8 d 1).testBit 0
def Desc.noDegrade (d : Desc) : Bool := (u8 d 1).testBit 1
def Desc.policy (d : Desc) : Nat := u8 d 2
def Desc.template (d : Desc) : Nat := u8 d 3
def Desc.tenant (d : Desc) : Nat := u16 d 4
def Desc.coll (d : Desc) : Nat := u16 d 6
def Desc.tag (d : Desc) : W64 := BitVec.ofNat 64 (u64 d 8)
def Desc.stream (d : Desc) : Nat := bitsOf (u64 d 8) 0 12
def Desc.seq (d : Desc) : Nat := bitsOf (u64 d 8) 12 36
def Desc.softUs (d : Desc) : Nat := u32 d 0x10
def Desc.hardUs (d : Desc) : Nat := u32 d 0x14
def Desc.k (d : Desc) : Nat := u16 d 0x18
def Desc.budget (d : Desc) : Nat := u16 d 0x1A
def Desc.stopSet (d : Desc) : Nat := u8 d 0x1C
def Desc.grammar (d : Desc) : Nat := u8 d 0x1D
def Desc.payloadLen (d : Desc) : Nat := u32 d 0x20
def Desc.textLen (d : Desc) : Nat := u32 d 0x24
def Desc.object (d : Desc) : Nat := u64 d 0x28
def Desc.sampling (d : Desc) : Sampling :=
  ⟨BitVec.ofNat 64 (u64 d 0x30), w32At d 0x40, w32At d 0x44, u8 d 0x48, w32At d 0x4C, w32At d 0x50, w32At d 0x54⟩
def Desc.cookie (d : Desc) : W64 := BitVec.ofNat 64 (u64 d 0x60)

/-- Stream and sequence of a tag (R107). -/
def tagStream (t : W64) : Nat := regBits t 0 12
def tagSeq (t : W64) : Nat := regBits t 12 36

/-- Request types that change resident objects (R125). -/
def isMutation (type : Nat) : Bool := type == 7 || type == 8

/-- Size of an element of a stored vector (R276). -/
def elemBytes (fmt : Nat) : Nat := if fmt = 255 then 4 else 2

/-- A vector's elements, widened exactly to FP32 (R283). -/
def vecOf (fmt : Nat) (b : List Byte) : List W32 :=
  (List.range (b.length / elemBytes fmt)).map fun i =>
    if fmt = 255 then w32At b (4 * i) else fpRound32 (elemDecode fmt (u16 b (2 * i)))

/-- Passage ids that follow a 4-byte count (R108). -/
def idsOf (b : List Byte) : List W64 := (List.range (u32 b 0)).map fun i => BitVec.ofNat 64 (u64 b (4 + 8 * i))

/-- Token ids of 4 bytes each (R108). -/
def tokensOf (b : List Byte) : List Nat := (List.range (b.length / 4)).map fun i => u32 b (4 * i)

def tokensBytes (ts : List Nat) : List Byte := ts.flatMap (toLe 4)

/-- Owner and byte address of a ring's base register (R158). -/
def baseNode (v : W64) : Node := v.extractLsb' 0 16
def baseAddr (v : W64) : Nat := regBits v 16 48 * 64

/-- Domain and member of a node address (R440). -/
def nodeDomain (n : Node) : Nat := n.toNat / 1024
def nodeMember (n : Node) : Nat := n.toNat % 1024
def nodeOf (domain member : Nat) : Node := BitVec.ofNat 16 (domain * 1024 + member)
def localNode : Node := 0xFFFE
def broadcastNode : Node := 0xFFFF
/-- A host adapter (R440). -/
def isAdapter (n : Node) : Bool := decide (0xC000 ≤ n.toNat) && decide (n.toNat ≤ 0xFBFF)

/-- The order of tickets (R133). -/
def ticketLt (a b : Ticket) : Bool :=
  let pa := a.extractLsb' 48 16
  let pb := b.extractLsb' 48 16
  if pa = pb then (a.extractLsb' 0 48).ult (b.extractLsb' 0 48) else (pa - pb).msb

def ticketLe (a b : Ticket) : Bool := a == b || ticketLt a b

end Sys2Proof.Machine
end

