-- ==== Sys2Proof/Machine/Memory.lean ====
section
/-! DEFINITION. The cells of HBM, DDR5 and the configuration flash, physical words (15 R369, R370, R373 to R376), the
page directory and objects (R364 to R368). -/

namespace Sys2Proof.Machine

/-! ### Cells in canonical form -/

/-- What a cell reads as; an unlisted one reads `dflt`. -/
def cellGet (dflt : Byte) : List Host.Cell → Nat → Byte
  | [], _ => dflt
  | c :: cs, a => if c.1 = a then c.2 else cellGet dflt cs a

/-- Write one cell, keeping addresses rising and no cell equal to what an unlisted one reads as. -/
def cellPut (dflt : Byte) (a : Nat) (v : Byte) : List Host.Cell → List Host.Cell
  | [] => if v = dflt then [] else [(a, v)]
  | c :: cs =>
    if c.1 < a then c :: cellPut dflt a v cs
    else if c.1 = a then (if v = dflt then cs else (a, v) :: cs)
    else if v = dflt then c :: cs else (a, v) :: c :: cs

/-- The canonical form: addresses strictly rise, and no cell holds what an unlisted one reads as. -/
def cellsWf (dflt : Byte) : List Host.Cell → Bool
  | [] => true
  | [c] => c.2 != dflt
  | c :: d :: cs => c.2 != dflt && decide (c.1 < d.1) && cellsWf dflt (d :: cs)

/-- An unlisted byte of HBM, DDR5, a Bench store or an accumulator file (log 6). -/
def unwritten : Byte := 0

/-- An erased flash byte (R502). -/
def erased : Byte := 0xFF

def cellsGet (dflt : Byte) (cs : List Host.Cell) (a n : Nat) : List Byte := (List.range n).map fun i => cellGet dflt cs (a + i)

/-- The `n` bytes from `a` of cells whose addresses rise from `a` on. -/
def cellsWalk (dflt : Byte) : Nat → Nat → List Host.Cell → List Byte
  | 0, _, _ => []
  | n + 1, a, [] => dflt :: cellsWalk dflt n (a + 1) []
  | n + 1, a, c :: cs => if c.1 = a then c.2 :: cellsWalk dflt n (a + 1) cs else dflt :: cellsWalk dflt n (a + 1) (c :: cs)

/-- A long run of bytes, read in one pass. -/
def cellsRun (dflt : Byte) (cs : List Host.Cell) (a n : Nat) : List Byte := cellsWalk dflt n a (cs.dropWhile fun c => c.1 < a)

def cellsPut (dflt : Byte) (a : Nat) : List Byte → List Host.Cell → List Host.Cell
  | [], cs => cs
  | b :: bs, cs => cellsPut dflt (a + 1) bs (cellPut dflt a b cs)

/-- Set `n` bytes at `a` to what unlisted bytes read as (an erase; R502). -/
def cellsClear (a n : Nat) (cs : List Host.Cell) : List Host.Cell := cs.filter fun c => c.1 < a || a + n ≤ c.1

/-- The state's memory in canonical form. -/
abbrev Memory.wf (s : State) : Prop :=
  cellsWf unwritten s.mem.cells = true ∧ cellsWf erased s.log.flash = true ∧
  cellsWf unwritten s.flt.accs = true ∧ cellsWf unwritten s.flt.store = true

/-! ### Physical words -/

/-- Where the stack's or channel's bytes stand in the cells: stack u at u·2^36, channel c at 2^41 + c·2^39 (log 6). -/
def unitBase (tier unit : Nat) : Nat := if tier = 0 then unit * 2 ^ 36 else 2 ^ 41 + unit * 2 ^ 39

/-- The spare unit that serves an 8 KiB block of a stack (R495). -/
def spareOf (s : State) (stack blk : Nat) : Option Nat :=
  (s.mem.remap.find? fun r => r.1 == stack && r.2.1 == blk).map (·.2.2)

/-- Cell of a word's data and of its check byte (R369, R370, R495). -/
def wordCells (s : State) (tier unit off : Nat) : Nat × Nat :=
  let base := unitBase tier unit
  if tier = 0 then
    match spareOf s unit (off / 8192) with
    | some k => (base + 0xF00000000 + k * 10240 + off % 8192, base + 0xF00000000 + k * 10240 + 8192 + off % 8192 / 4)
    | none => (base + off, base + 0xC00000000 + off / 4)
  else (base + off, base + 2 ^ 38 + off / 4)

/-- Whether the unit serves accesses: a failed stack's and an absent channel's words read as poisoned (R371, R529). -/
def unitUp (s : State) (tier unit : Nat) : Bool :=
  if tier = 0 then unit < 12 && !s.mem.stacksFailed.contains unit
  else ((s.mem.modules.getD unit none).isSome)

/-- The stored W40 word (R373). -/
def rawWord (s : State) (tier unit off : Nat) : W40 :=
  let c := wordCells s tier unit off
  let data : W32 := BitVec.ofNat 32 (leNat (cellsGet unwritten s.mem.cells c.1 4))
  cellGet unwritten s.mem.cells c.2 ++ data

/-- Store a W40 word (R373). -/
def putWord (tier unit off : Nat) (w : W40) (s : State) : State :=
  let c := wordCells s tier unit off
  { s with mem.cells := cellPut unwritten c.2 (w.extractLsb' 32 8) (cellsPut unwritten c.1 (toLe 4 (W40.data w).toNat) s.mem.cells) }

/-- Data and poison of a word as a read delivers them, without what the read repairs (R375). -/
def peekWord (s : State) (tier unit off : Nat) : W32 × Bool :=
  if unitUp s tier unit then
    match eccRead (rawWord s tier unit off) with
    | .clean d p => (d, p)
    | .corrected d p => (d, p)
    | .uncorrectable => (W40.data (rawWord s tier unit off), true)
  else (0, true)

/-! ### The page directory -/

def pageBytes : Nat := 2097152

def stagingPage : Nat := 0x7FFFFF80

/-- The home of a page (R364, R367, R370): staging page p lies on DC(p mod 8) in frame floor(p ÷ 8). -/
def pageHome (s : State) (page : Nat) : Option (Nat × Nat × Nat) :=
  if stagingPage ≤ page then
    let p := page - stagingPage
    if page < 0x80000000 && unitUp s 1 (p % 8) then some (1, p % 8, p / 8) else none
  else (s.mem.pages.find? (·.page == page)).map fun p => (p.tier, p.unit, p.frame)

/-- Physical place of a device address (R364). -/
def locate (s : State) (addr : Nat) : Option (Nat × Nat × Nat) :=
  (pageHome s (addr / pageBytes)).map fun h => (h.1, h.2.1, pageBytes * h.2.2 + addr % pageBytes)

/-- One byte at a device address and whether its word is poisoned (R376); an unmapped byte reads as poisoned. -/
def peekByte (s : State) (addr : Nat) : Byte × Bool :=
  match locate s (addr / 4 * 4) with
  | some p => let w := peekWord s p.1 p.2.1 p.2.2; (BitVec.ofNat 8 (w.1.toNat / 256 ^ (addr % 4)), w.2)
  | none => (0, true)

/-- Bytes at a device address, and whether any word of them is poisoned. -/
def peekBytes (s : State) (addr n : Nat) : List Byte × Bool :=
  let bs := (List.range n).map fun i => peekByte s (addr + i)
  (bs.map (·.1), bs.any (·.2))

/-- Write one byte through its word, clearing poison (R376: a write of a whole word clears it). -/
def pokeByte (addr : Nat) (v : Byte) (s : State) : State :=
  match locate s (addr / 4 * 4) with
  | some p =>
    let d := toLe 4 (peekWord s p.1 p.2.1 p.2.2).1.toNat
    putWord p.1 p.2.1 p.2.2 (w40 (BitVec.ofNat 32 (leNat (d.set (addr % 4) v))) false) s
  | none => s

def pokeBytes (addr : Nat) : List Byte → State → State
  | [], s => s
  | b :: bs, s => pokeBytes (addr + 1) bs (pokeByte addr b s)

/-- Every page of a range is mapped (R365). -/
def rangeMapped (s : State) (addr n : Nat) : Bool :=
  (List.range ((addr + n - 1) / pageBytes - addr / pageBytes + 1)).all fun i => (pageHome s (addr / pageBytes + i)).isSome

/-! ### Frames and placement -/

/-- Populated channels of a Stockpile controller, which manages its own hub die's (16 intro, R20). -/
def ctrlChannels (s : State) (ctrl : Nat) : List Nat :=
  (List.range 8).map (8 * ctrl + ·) |>.filter fun c => (s.mem.modules.getD c none).isSome

/-- Stockpile map frames on a channel (R396). -/
def mapFrames (s : State) (c : Nat) : Nat :=
  let chs := ctrlChannels s (c / 8)
  if chs.contains c then 1024 / chs.length + (if chs.findIdx (· == c) < 1024 % chs.length then 1 else 0) else 0

/-- Frames of a unit that user pages may not take: staging and Stockpile map (R370). -/
def deviceFrames (s : State) (tier unit : Nat) : Nat :=
  if tier = 0 then 0 else (if unit < 8 then 16 else 0) + mapFrames s unit

/-- Frames of a unit (R369, R370). -/
def unitFrames (s : State) (tier unit : Nat) : Nat :=
  if !unitUp s tier unit then 0
  else if tier = 0 then 24576 else ((s.mem.modules.getD unit none).map (·.gib * 512)).getD 0

/-- Frames that pages or moves hold on a unit. -/
def framesHeld (s : State) (tier unit : Nat) : List Nat :=
  (s.mem.pages.filter fun p => p.tier == tier && p.unit == unit).map (·.frame) ++
  (s.haul.moves.filter fun m => m.tier == tier && m.unit == unit).map (·.frame)

/-- Free frames of a unit (R388). -/
def freeFrames (s : State) (tier unit : Nat) : Nat :=
  unitFrames s tier unit - deviceFrames s tier unit - (framesHeld s tier unit).length

/-- The lowest free frame of a unit (R368, R379). -/
def lowestFrame (s : State) (tier unit : Nat) : Option Nat :=
  let held := framesHeld s tier unit
  (firstFrom (fun f => !held.contains f) (held.length + 1) (deviceFrames s tier unit)).filter
    (· < unitFrames s tier unit)

/-- The lowest page number from which `n` pages hold no object (R366). -/
def lowestRun (s : State) (n : Nat) : Nat :=
  let runs := (s.mem.objs.filter fun o => o.place.tier < 2).map fun o => (o.page, o.place.size)
  let ok := fun p => runs.all fun r => decide (p + n ≤ r.1) || decide (r.1 + r.2 ≤ p)
  let starts := sortBy (fun a b => decide (a ≤ b)) (1 :: runs.map fun r => r.1 + r.2)
  (starts.find? ok).getD 1

/-- Give each page of a new object its home (R368). -/
def homePages (tier first : Nat) (units : List Nat) : Nat → Nat → State → State
  | 0, _, s => s
  | n + 1, i, s =>
    let u := units.getD (i % units.length) 0
    let f := (lowestFrame s tier u).getD 0
    homePages tier first units n (i + 1) { s with mem.pages := s.mem.pages ++ [⟨first + i, tier, u, f, false⟩] }

/-- Place one record: a resident object that exists keeps its run (R366, R594). -/
def placeObject (serial : Nat) (x : Placement) (s : State) : State :=
  if x.resident && s.mem.objs.any (fun o => o.owner.isNone && o.place.id == x.id) then s
  else
    let owner := if x.resident then none else some serial
    if x.tier = 2 then { s with mem.objs := s.mem.objs ++ [{ place := x, owner := owner, page := 0 }] }
    else
      let first := lowestRun s x.size
      let s := { s with mem.objs := s.mem.objs ++ [{ place := x, owner := owner, page := first }] }
      homePages x.tier first (spreadUnits x.spread) x.size 0 s

/-- Place an image's objects in ascending `object_id` (R366). -/
def placeAll (serial : Nat) (p : Plan) (s : State) : State :=
  (sortBy (fun a b => decide (a.id ≤ b.id)) p.placements).foldl (fun s x => placeObject serial x s) s

/-- Free the job-context objects of a plan set (R87, R101, R594); a move that runs completes (R382). -/
def freeObjects (serial : Nat) (s : State) : State :=
  let gone := s.mem.objs.filter fun o => o.owner == some serial
  let inRun := fun p => gone.any fun o => decide (o.place.tier < 2) && decide (o.page ≤ p) && decide (p < o.page + o.place.size)
  { s with mem.objs := s.mem.objs.filter fun o => o.owner != some serial,
           mem.pages := s.mem.pages.filter fun p => !inRun p.page,
           haul.todo := s.haul.todo.filter fun t => !inRun t.1 }

/-- An object by id: a plan set's own, else the resident one (R594). -/
def objOf (s : State) (serial id : Nat) : Option Obj :=
  (s.mem.objs.find? fun o => o.place.id == id && o.owner == some serial).or
    (s.mem.objs.find? fun o => o.place.id == id && o.owner.isNone)

/-- The resident object of an id. -/
def residentObj (s : State) (id : Nat) : Option Obj := s.mem.objs.find? fun o => o.place.id == id && o.owner.isNone

/-- Device address of byte `off` of an object. -/
def Obj.addr (o : Obj) (off : Nat) : Nat := pageBytes * o.page + off

/-- Bytes of a resident object, and whether they hold poison. -/
def objBytes (s : State) (id off n : Nat) : List Byte × Bool :=
  match residentObj s id with
  | some o => peekBytes s (o.addr off) n
  | none => (List.replicate n 0, true)

def objPut (id off : Nat) (bs : List Byte) (s : State) : State :=
  match residentObj s id with
  | some o => pokeBytes (o.addr off) bs s
  | none => s

/-- The object a page belongs to. -/
def pageObj (s : State) (page : Nat) : Option Obj :=
  s.mem.objs.find? fun o => decide (o.place.tier < 2) && decide (o.page ≤ page) && decide (page < o.page + o.place.size)

end Sys2Proof.Machine
end

