-- ==== Sys2Proof/Machine/Ops.lean ====
section
/-! DEFINITION. Operations the commands share: roles, sending, event records and alerts (19), the journal (06), the end
of a request (05, 14), job teardown (R124), stamping (R131 to R135). -/

namespace Sys2Proof.Machine

/-! ### Who and where -/

/-- Acting role (R41, R463): 7 for none. -/
def role (s : State) : Nat :=
  match s.dom.override with
  | some r => r
  | none => (s.cfg.active.map (·.plan.role)).getD 7

def isManager (s : State) : Bool := role s == 0

/-- The device accepts work from the host (R562). -/
def accepts (s : State) : Bool := role s == 0 || role s == 5

/-- This device's source address (R441). -/
def myNode (s : State) : Node := s.lnk.node.getD localNode

/-- Commands act: the device is ready, out of PS4, and still stamps tickets (R135, R532, R550). -/
def serving (s : State) : Bool := s.life == .ready && s.pwr.state != 4 && !s.wb.seqStop

/-- Guard of every command that needs a serving device; elsewhere nothing happens (log 2). -/
def whenServing (s : State) (f : State → State) : State := if serving s then f s else s

/-- Microseconds of device time between two times in ns. -/
def usSince (s : State) (t : Nat) : Nat := (s.now - t) / 1000

/-- Whether a bound in ns that began at `t` has passed. -/
def past (s : State) (t bound : Nat) : Bool := decide (t + bound ≤ s.now)

/-- Hand a transaction to the link (R442; log 10). -/
def send (dst : Node) (txn : W16) (t : Ticket) (m : Msg) (s : State) : State :=
  { s with out := s.out ++ [(s.now, ⟨dst, myNode s, txn, t, m⟩)] }

def sendEach (dsts : List Node) (t : Ticket) (m : Msg) (s : State) : State := dsts.foldl (fun s d => send d 0 t m s) s

/-! ### Rings (R151, R152, R160) -/

def Ring.size (r : Ring) : Nat := 2 ^ r.log2.toNat

/-- R152. -/
def Ring.full (r : Ring) : Bool := (r.tail.toNat + r.size - r.head.toNat % r.size) % r.size == r.size - 1

def Ring.open (r : Ring) : Bool := r.enable && !r.full

/-- The ring after one more entry (R151). -/
def Ring.next (r : Ring) : Ring :=
  if r.tail.toNat + 1 = r.size then { r with tail := 0, pass := !r.pass } else { r with tail := r.tail + 1 }

/-- Write a 64-byte entry at the ring's tail, in the owner's memory (R151, R452). -/
def ringWrite (base : W64) (r : Ring) (entry : List Byte) (s : State) : State :=
  send (baseNode base) 0 0 (.wr (baseAddr base + 64 * r.tail.toNat) entry) s

/-- A write to a ring's control register (R159, R160): none where it is ignored. -/
def Ring.control (r : Ring) (v : W64) : Option Ring :=
  let log2 : BitVec 4 := v.extractLsb' 0 4
  let on := regBit v 48
  if on then
    if log2.toNat < 8 then none
    else if r.enable then (if log2 = r.log2 then some { r with head := v.extractLsb' 16 16 } else none)
    else some { log2 := log2, head := 0, tail := 0, enable := true, pass := true, fullSince := none }
  else some { r with log2 := log2, enable := false, fullSince := none,
                     head := v.extractLsb' 16 16 }

/-! ### Event records and alerts (R500 to R508) -/

/-- Severity of a record type (R506). -/
def recSeverity (type : Nat) : Nat :=
  if [0x01, 0x22, 0x33, 0x40, 0x50, 0x55, 0x63, 0x64, 0x70].contains type then 1
  else if [0x60, 0x61].contains type then 0
  else if [0x71, 0x72, 0x73].contains type then 3 else 2

/-- Bytes of a record with the given `mark` (R501, R503). -/
def Rec.bytes (mark : Byte) (r : Rec) : List Byte :=
  let body := toLe 4 (r.kind * 2 ^ 28 + r.unit % 4096 * 65536 + r.sub % 65536) ++ toLe 2 r.code ++ toLe 1 r.attempts ++
    toLe 1 r.action ++ toLe 8 r.aux.toNat ++ r.extra
  let units := ceilDiv (16 + body.length) 16
  padTo (16 * units) (mark :: (toLe 1 (units - 1 + 32 * r.sev) ++ toLe 2 r.type ++ toLe 4 r.hours ++ toLe 8 r.ticket.toNat ++ body))

/-- Post a record's alert (R500). -/
def postAlert (r : Rec) (s : State) : State :=
  if r.sev < s.flt.minSeverity.toNat && r.sev != 3 then s
  else if s.flt.alert.open then
    let phase : Byte := if s.flt.alert.pass then 1 else 0
    let s := ringWrite s.flt.alertBase s.flt.alert (padTo 64 ((Rec.bytes phase r).take 64)) s
    { s with flt.alert := s.flt.alert.next }
  else { s with flt.alertLost := satInc s.flt.alertLost }

/-- Remove the newest queued record of lower severity (R508). -/
def displace (sev : Nat) (q : List Rec) : Option (List Rec) :=
  match q.reverse.findIdx? (·.sev < sev) with
  | some i => some ((q.reverse.eraseIdx i).reverse)
  | none => none

/-- Queue a record (R508) and post its alert (R500). -/
def queueRec (r : Rec) (s : State) : State :=
  let s := postAlert r s
  if s.log.queue.length < 1024 then { s with log.queue := s.log.queue ++ [r] }
  else
    match displace r.sev s.log.queue with
    | some q => { s with log.queue := q ++ [r], log.dropCount := satInc s.log.dropCount }
    | none => { s with log.dropCount := satInc s.log.dropCount }

/-- Where a record points (R504). -/
structure Loc where
  kind : Nat := 0
  unit : Nat := 0
  sub : Nat := 0

/-- Record an event (R506). -/
def event (t : Ticket) (type : Nat) (l : Loc) (code attempts action : Nat) (aux : W64) (extra : List Byte) (s : State) : State :=
  queueRec ⟨recSeverity type, type, min s.log.hours 0xFFFFFFFF, t, l.kind, l.unit, l.sub, code, attempts, action, aux, extra⟩ s

def devLoc : Loc := { kind := 8 }
def peerLoc (n : Node) : Loc := { kind := 6, sub := n.toNat }
def benchLoc (b slab : Nat) : Loc := { kind := 1, unit := b, sub := slab }
def clockLoc (d : Nat) : Loc := { kind := 7, unit := d }
def linkLoc (port sub lane : Nat) : Loc := { kind := 4, unit := port, sub := sub * 256 + lane }

/-! ### Plan sets -/

/-- The plan set of an epoch (R80). -/
def planSet (s : State) (epoch : Nat) : Option PlanSet :=
  (s.cfg.active.filter (·.epoch == epoch)).or (s.cfg.retiring.filter (·.epoch == epoch))

def activePlan (s : State) : Option Plan := s.cfg.active.map (·.plan)

/-- The plan a request runs under. -/
def Req.plan (r : Req) (s : State) : Option Plan := (planSet s r.epoch).map (·.plan)

def findReq (s : State) (t : Ticket) : Option Req := s.job.reqs.find? (·.ticket == t)

/-- A request by the manager's ticket (R121). -/
def findByMgr (s : State) (t : Ticket) : Option Req := s.job.reqs.find? (·.mgr == t)

def setReq (r : Req) (s : State) : State :=
  { s with job.reqs := s.job.reqs.map fun q => if q.ticket = r.ticket then r else q }

def dropReq (t : Ticket) (s : State) : State := { s with job.reqs := s.job.reqs.filter (·.ticket != t) }

def findColl (s : State) (id : Nat) : Option Coll := s.srch.colls.find? (·.id == id)

def setColl (c : Coll) (s : State) : State :=
  { s with srch.colls := s.srch.colls.map fun d => if d.id = c.id then c else d }

def findTable (s : State) (t : Nat) : Option Table := s.gth.tables.find? (·.spec.table == t)

def setTable (t : Table) (s : State) : State :=
  { s with gth.tables := s.gth.tables.map fun d => if d.spec.table = t.spec.table then t else d }

/-! ### The intake journal (R140, R143, R144) -/

/-- Bytes of a journal entry (R143). -/
def entryLen (e : JEntry) : Nat := roundUp (32 + e.body.length) 64

def mib : Nat := 1048576

/-- Capacity of the journal object (R57, R144). -/
def journalSize (s : State) : Nat :=
  ((s.mem.objs.find? (·.place.kind == 10)).map fun o => pageBytes * o.place.size).getD 0

def journalUsed (s : State) : Nat := (s.wb.journal.map entryLen).sum

/-- R144 refuses intake. -/
def journalFull (s : State) : Bool :=
  decide (32 * mib ≤ s.wb.tail) || decide (journalSize s < journalUsed s + 64 * mib)

/-- Acknowledgements wait for the mirror (R140, R142, R145). -/
def mirrored (s : State) : Bool := isManager s && !s.wb.solo

/-- Append an entry and send it to the mirror (R140 steps 2 and 3). -/
def journal (kind : Nat) (t : Ticket) (tag : W64) (body : List Byte) (s : State) : State × W64 :=
  let e : JEntry := ⟨kind, t, tag, s.wb.journalPos, body⟩
  let s := { s with wb.journal := s.wb.journal ++ [e], wb.journalPos := s.wb.journalPos + 1, wb.tail := s.wb.tail + entryLen e }
  let s := if mirrored s then
      let s := { s with wb.mirrorWait := s.wb.mirrorWait ++ [(e.pos, s.now, false)] }
      match s.dom.mirrorNode with
      | some n => send n 0 t (.mirrorEntry e) s
      | none => s
    else s
  (s, e.pos)

/-! ### How a request ends -/

/-- Completion record bytes (R112). -/
def Comp.bytes (phase : Bool) (c : Comp) : List Byte :=
  let flags := (if phase then 1 else 0) + (if c.result.isEmpty then 0 else 2) + (if c.filterShort then 4 else 0) +
    (if c.nanSeen then 8 else 0) + (if c.shortK then 16 else 0)
  toLe 8 c.ticket.toNat ++ toLe 8 c.tag.toNat ++ toLe 1 c.status ++ toLe 1 flags ++ toLe 1 c.degraded ++ toLe 1 c.endReason ++
  toLe 4 c.detail ++ toLe 8 c.cookie.toNat ++ toLe 8 c.result0.toNat ++ toLe 2 c.node.toNat ++ toLe 2 c.nValid ++
  toLe 4 c.elapsedUs ++ toLe 4 c.result.length ++ toLe 4 c.indexVersion ++ List.replicate 8 0

/-- What a request ends with, beside what it holds. -/
structure Outcome where
  status : Nat
  detail : Nat := 0
  result0 : W64 := 0
  node : Node := 0
  list : List Entry := []
  result : List Byte := []
  nValid : Nat := 0
  shortK : Bool := false
  endReason : Nat := 0
  passages : List (W64 × List Nat) := []

/-- Stream record bytes (R238). -/
def streamRec (t : Ticket) (tag : W64) (idx tok part : Nat) (more cont held final : Bool) (text : List Byte) : List Byte :=
  toLe 8 t.toNat ++ toLe 8 tag.toNat ++ toLe 4 idx ++ toLe 4 tok ++ toLe 1 part ++ toLe 1 text.length ++
  toLe 1 ((if more then 2 else 0) + (if cont then 4 else 0) + (if held then 8 else 0) + (if final then 16 else 0)) ++
  List.replicate 5 0 ++ padTo 32 text

/-- The parts of one step's release (R238): 32 bytes to a part; an empty release still writes one. -/
def streamParts (t : Ticket) (tag : W64) (idx tok : Nat) (before text : List Byte) (held final : Bool) : List (List Byte) :=
  let parts := if text.isEmpty then [[]] else chunks 32 (text.length / 32 + 1) text
  parts.mapIdx fun i p =>
    let last := i + 1 == parts.length
    streamRec t tag idx tok i (!last) (endsInsideChar (before ++ text.take (32 * i + p.length))) (held && last) (final && last) p

/-- Put stream records on their way: to the manager, or to the ring (R239). -/
def deliverStream (r : Req) (recs : List (List Byte)) (s : State) : State :=
  match r.boss with
  | some n => recs.foldl (fun s b => send n 0 r.mgr (.streamRec b) s) s
  | none => { s with txt.srWaiting := s.txt.srWaiting ++ recs }

/-- Write waiting stream records while the ring takes them (R239, R250). -/
def pumpStream : Nat → State → State
  | 0, s => s
  | n + 1, s =>
    match s.txt.srWaiting with
    | [] => s
    | b :: bs =>
      if s.txt.sr.open then
        let flags := b.getD 26 0 ||| (if s.txt.sr.pass then 1 else 0)
        let s := ringWrite s.txt.srBase s.txt.sr (b.set 26 flags) s
        pumpStream n { s with txt.sr := s.txt.sr.next, txt.srWaiting := bs }
      else s

def pumpStreams (s : State) : State := pumpStream s.txt.srWaiting.length s

/-- Tell the other devices that hold the request (R35, R118, R121). -/
def holders (r : Req) : List Node :=
  let w := r.waitFor.map (·.2)
  match r.place with
  | .prefill d c => dedup (w ++ [d] ++ (if c = 0 then [] else [c]))
  | _ => dedup w

/-- Free the caches of a ticket that no DECODE has claimed, or that `claim` claims (R35, R353). -/
def freeCaches (p : Cache → Bool) (s : State) : State := { s with dec.caches := s.dec.caches.filter fun c => !p c }

/-- The end reason of a DECODE that did not end itself (R360). -/
def endReasonOf (status : Nat) : Nat :=
  if status = 3 then 7 else if status = 2 then 8 else if status = 7 then 9 else if status = 4 then 10 else 0

/-- Close a DECODE: its held bytes leave in the final record, its cache is freed (R241, R353, R360). -/
def closeDecode (r : Req) (o : Outcome) (s : State) : State × Outcome :=
  match r.dec with
  | none => (s, o)
  | some d =>
    let reason := d.ended.getD (endReasonOf o.status)
    let stepped := d.ended.isSome && (reason ≤ 4 || reason == 9)
    let s := if r.desc.streams && !stepped then
        deliverStream r [streamRec r.mgr r.desc.tag d.emitted.length 0xFFFFFFFF 0 false
          (endsInsideChar (d.released ++ d.heldBytes)) false true d.heldBytes] s
      else s
    let text := d.released ++ d.heldBytes
    let o := { o with result0 := BitVec.ofNat 64 d.emitted.length, endReason := reason,
                      result := if r.desc.streams then [] else text }
    let s := freeCaches (·.handle == d.handle) s
    (s, o)

/-- Answer a request's manager (R473; log 23). -/
def answerOf (r : Req) (o : Outcome) : Answer :=
  { ticket := r.mgr, shard := r.shard, status := o.status, filterShort := r.filterShort, nanSeen := r.nanSeen,
    degraded := r.degraded, indexVersion := r.indexVersion,
    result0 := o.result0, detail := o.detail, endReason := o.endReason,
    list := o.list, passages := o.passages, bytes := o.result }

/-- Complete a request: its pages, holds and moves end with it (R296, R384), an unclaimed cache of one that did not end
well is freed (R35, R351), and its outcome goes to the manager, or
into the hold-back queue (R150). A request that has ended already does not end again. -/
def finish (r : Req) (o : Outcome) (s : State) : State :=
  if (findReq s r.ticket).isNone then s else
  let (s, o) := closeDecode r o s
  let s := dropReq r.ticket s
  let s := if 1 < o.status then freeCaches (fun c => c.ticket == r.mgr && c.claimed.isNone) s else s
  let s := { s with dec.moves := s.dec.moves.filter (·.ticket != r.ticket),
                    mem.quotaHit := if o.status = 7 && o.detail != 2 then satInc s.mem.quotaHit else s.mem.quotaHit,
                    scr.shortLists := if o.shortK && r.boss.isNone then satInc s.scr.shortLists else s.scr.shortLists }
  match r.boss with
  | some n =>
    let a := answerOf r o
    let s := match r.dec with
      | some d => { s with dec.ended := s.dec.ended ++ [(r.mgr, d.handle, a)] }
      | none => s
    send n 0 r.mgr (.answer a) s
  | none =>
    let c : Comp := {
      ticket := r.ticket, tag := r.desc.tag, status := o.status, filterShort := r.filterShort,
      nanSeen := r.nanSeen, shortK := o.shortK, degraded := r.degraded, endReason := o.endReason, detail := o.detail,
      cookie := r.desc.cookie, result0 := o.result0, node := o.node, nValid := o.nValid,
      elapsedUs := min (usSince s r.start) 0xFFFFFFFF, indexVersion := r.indexVersion, result := o.result, pos := none }
    { s with wb.holdback := s.wb.holdback ++ [c] }

/-- Send cancellations to the devices that hold a request (R118, R121); none for a mutation already sent (R597). -/
def cancelAway (r : Req) (expired : Bool) (s : State) : State :=
  if r.sent && isMutation r.desc.type then s else sendEach ((holders r).filter (· != 0)) r.mgr (.cancelFwd expired) s

/-- End a request with its job (R103, R124, R125): one whose acceptance has not completed ends with it, and a mutation
that a replica has applied ends well (log 29). -/
def endReq (status detail : Nat) (r : Req) (s : State) : State :=
  match r.place with
  | .acceptance .. => setReq { r with ending := status } s
  | _ =>
    match r.answers.find? fun a => isMutation r.desc.type && a.status == 0 with
    | some a => finish r { status := 0, result0 := a.result0 } s
    | none => finish r { status := status, detail := detail } (cancelAway r false s)

/-- End every request in flight, in ticket order. -/
def endAll (status detail : Nat) (s : State) : State :=
  (sortBy (fun a b => ticketLe a.ticket b.ticket) s.job.reqs).foldl (fun s r => endReq status detail r s) s

/-- The status of a request that ended well (R113). -/
def okStatus (r : Req) : Nat := if r.degraded = 0 then 0 else 1

/-! ### Job teardown (R124, R125) -/

/-- Jobs end: the sets and their objects and caches go (R87, R101); the shadow stays. -/
def discardSets (s : State) : State :=
  let s := (s.cfg.active.toList ++ s.cfg.retiring.toList).foldl (fun s p => freeObjects p.serial s) s
  { s with cfg.active := none, cfg.retiring := none, dec.caches := [], dec.moves := [], dec.nextSlot := 1, dom.override := none,
           job.steps := [], gth.gathers := [] }

/-- Running folds stop at their last committed unit (R125, R308). -/
def stopFold (c : Coll) : Coll := { c with fold := c.fold.map fun f => { f with running := false } }

def stopFolds (s : State) : State := { s with srch.colls := s.srch.colls.map stopFold }

/-- Steps 1 to 5 of teardown with the fault ticket `t`. -/
def teardown (cause : Nat) (t : Ticket) (s : State) : State :=
  if s.job.phase = 0 then s else
  let s := { s with job.phase := 3, job.faultCause := BitVec.ofNat 8 cause }
  let s := endAll 4 cause s
  let s := match s.cfg.swap with
    | some _ => { s with cfg.swap := none, cfg.swapCode := 0x17, cfg.swapDetail := 0 }
    | none => s
  let s := stopFolds (discardSets { s with gth.pubs := s.gth.pubs.filter (·.committed) })
  let s := event t 0x62 devLoc cause 1 0 (s.job.jobId.zeroExtend 64) [] s
  let s := { s with job.phase := 0, job.aborting := false, cfg.prepared := none }
  let inJob := (s.dom.members.filter (·.inJob)).map (·.node)
  let s := inJob.foldl (fun s n => send n 0 0 (.mwrite 0x30000 3) s) s
  { s with dom.members := s.dom.members.map fun m => { m with inJob := false } }

/-! ### Tickets (R131 to R135) -/

/-- The next ticket (R158). -/
def ticketNext (s : State) : Ticket := s.wb.powerCycles.extractLsb' 0 16 ++ s.wb.seq

/-- Stamp an event. Crossing the limits of R135 sets `seq_warn` with its record, and declares the job fault. -/
def stamp (s : State) : State × Ticket :=
  let t := ticketNext s
  let s := { s with wb.seq := s.wb.seq + 1 }
  let n := t.toNat % 2 ^ 48
  let s := if 0xFFF000000000 ≤ n && !s.wb.seqWarn then event t 0x63 devLoc 0 1 0 0 [] { s with wb.seqWarn := true } else s
  let s := if 0xFFFFFFFF0000 ≤ n && !s.wb.seqStop then { teardown 6 t s with wb.seqStop := true } else s
  (s, t)

/-- Stamp an event and act on its ticket. -/
def stamped (s : State) (f : State → Ticket → State) : State := let (s, t) := stamp s; f s t

/-- The ticket of an event while nothing is stamped (R501). -/
def unstamped (s : State) : Ticket := s.wb.powerCycles.extractLsb' 0 16 ++ (0 : BitVec 48)

/-- Stamp an event where the Weighbridge stamps. -/
def stampedIf (s : State) (f : State → Ticket → State) : State := if serving s then stamped s f else f s (unstamped s)

/-- A job fault at a ticket of its own (R123). -/
def jobFault (cause : Nat) (s : State) : State := stamped s (fun s t => teardown cause t s)

end Sys2Proof.Machine
end

