-- ==== Sys2Proof/Machine/Management.lean ====
section
/-! DEFINITION. Management accesses: which pages answer (21 R561, R566), repeats (17 R448), refusals (R447), stamping
(R565), and the banked select registers (R563). -/

namespace Sys2Proof.Machine

/-- How a page answers (R566). -/
inductive PageMode where
  /-- No answer at all. -/
  | silent
  | noPage
  /-- Reads zero, ignores writes. -/
  | quiet
  | live
  deriving DecidableEq, Repr

/-- R566. -/
def pageMode (s : State) (offset : W64) : PageMode :=
  let page := regBits offset 16 8
  match s.life with
  | .held | .halted | .flushing => .silent
  | .recovery => if page = 0x09 || page = 0x0A then .live else .noPage
  | .ready =>
    if 0x15 ≤ page then .noPage
    else if s.pwr.state = 4 then (if page = 0x01 || page = 0x08 || page = 0x09 then .live else .quiet)
    else .live

/-- Sources that may use the window (R447). -/
def mayManage (s : State) (src : Node) : Bool :=
  isAdapter src || s.dom.mgrNode == some src || s.dom.mirrorNode == some src

/-- `offset` is a multiple of 8 with its reserved bits clear (R447). -/
def aligned (offset : W64) : Bool := regBits offset 0 3 == 0 && regBits offset 24 40 == 0

/-- Record an answer (R448: the last 64 of each source) and send it. -/
def answerMgmt (c : Cmd) (m : Msg) (s : State) : State :=
  let t : Txn := ⟨c.src, myNode s, c.txn, 0, m⟩
  let mine := (s.mgmt.answers.filter (·.1 == c.src)).take 63
  let others := s.mgmt.answers.filter (·.1 != c.src)
  send c.src c.txn 0 m { s with mgmt.answers := (c.src, c.txn, t) :: mine ++ others }

/-- The recorded answer to a repeat (R448). -/
def recordedAnswer (s : State) (c : Cmd) : Option Txn :=
  (s.mgmt.answers.find? fun a => a.1 == c.src && a.2.1 == c.txn).map (·.2.2)

/-- A management request: repeats are answered from the record, refusals and quiet pages have no effect, and a live
page runs `act`, which gives the value answered. -/
def manage (c : Cmd) (offset data : W64) (act : State → State × W64) (s : State) : State :=
  match pageMode s offset with
  | .silent => s
  | mode =>
    match recordedAnswer s c with
    | some t => send c.src c.txn 0 t.msg { s with lnk.mgmtDup := satInc s.lnk.mgmtDup }
    | none =>
      if mode = .noPage then answerMgmt c (.mresp offset 0 1) s
      else if !mayManage s c.src then answerMgmt c (.mresp offset 0 2) { s with lnk.mgmtDenied := satInc s.lnk.mgmtDenied }
      else if !aligned offset then answerMgmt c (.mresp offset 0 3) s
      else if mode = .quiet then answerMgmt c (.mresp offset data 0) s
      else let r := act s; answerMgmt c (.mresp offset r.2 0) r.1

/-- A write: stamped at HOST priority while the Weighbridge stamps (R135, R535, R565); then it takes effect. The answer
is recorded before the effect, so that a reset it causes keeps the record (R565). -/
def mgmtWrite (c : Cmd) (offset data : W64) (effect : Ticket → State → State) (s : State) : State :=
  match pageMode s offset with
  | .live =>
    if (recordedAnswer s c).isSome || !mayManage s c.src || !aligned offset then manage c offset data (fun s => (s, data)) s
    else
      let s := manage c offset data (fun s => (s, data)) s
      if serving s then stamped s (fun s t => effect t s)
      else if s.life == .ready && s.wb.seqStop && regBits offset 16 8 != 9 then s
      else effect 0 s
  | _ => manage c offset data (fun s => (s, data)) s

/-! ### Select registers (R563) -/

/-- The value a source's bank of a select register holds; a source without a bank has the reset value. -/
def bankGet (s : State) (reg : Nat) (src : Node) : W64 :=
  (((s.mgmt.banks.find? (·.1 == reg)).map (·.2)).bind fun bs => (bs.find? (·.1 == src)).map (·.2)).getD 0

/-- Use a source's bank, setting it: the newest use stands first, and the ninth source takes the least recent. -/
def bankSet (reg : Nat) (src : Node) (v : W64) (s : State) : State :=
  let old := ((s.mgmt.banks.find? (·.1 == reg)).map (·.2)).getD []
  let bank := ((src, v) :: old.filter (·.1 != src)).take 8
  { s with mgmt.banks := upsert (·.1 == reg) (reg, bank) s.mgmt.banks }

/-- A view's read uses the reading source's bank. -/
def bankTouch (reg : Nat) (src : Node) (s : State) : State := bankSet reg src (bankGet s reg src) s

/-! ### Register offsets (R578) -/

def rCfgLoad : W64 := 0x40
def rCfgSwap : W64 := 0x60
def rJobCmd : W64 := 0x30000
def rCancelTicket : W64 := 0x30040
def rCancelTag : W64 := 0x30048
def rRelease : W64 := 0x20040
def rStreamReset : W64 := 0x20048
def rCqCtrl : W64 := 0x20088
def rSrCtrl : W64 := 0x120010
def rAlertCtrl : W64 := 0x50208
def rLogData : W64 := 0x60018
def rLogClear : W64 := 0x60028
def rGthCmd : W64 := 0x100000
def rStkCmd : W64 := 0xE0040
def rPortCmd : W64 := 0xB0080
def rEnumCmd : W64 := 0xA0040
def rMemberCmd : W64 := 0xA0058
def rClkOut : W64 := 0x70008
def rPwrCmd : W64 := 0x80000
def rPwrCap : W64 := 0x80008
def rRstCmd : W64 := 0x90000
def rFwCmd : W64 := 0x90008

/-- A 32-bit value in a register's upper half. -/
def hi32 (v : W32) : W64 := atBit 32 v

end Sys2Proof.Machine
end

