-- ==== Sys2Proof/Machine/Weights.lean ====
section
/-! DEFINITION. Weight objects as the host writes them: scale tables and digests (03 R61; 07 R175, R176). -/

namespace Sys2Proof.Machine

/-! ### What has been written -/

/-- Two ranges of bytes meet or touch. -/
def rangesTouch (a b : Nat × Nat) : Bool := decide (a.1 ≤ b.2) && decide (b.1 ≤ a.2)

/-- Ranges that lie apart, in ascending order, with one more. -/
def addRange (x : Nat × Nat) (rs : List (Nat × Nat)) : List (Nat × Nat) :=
  let near := rs.filter (rangesTouch x)
  insertBy (fun a b => decide (a.1 ≤ b.1)) ((near.map (·.1)).foldl min x.1, (near.map (·.2)).foldl max x.2)
    (rs.filter fun r => !rangesTouch x r)

def Obj.bytes (o : Obj) : Nat := pageBytes * o.place.size

/-- Every byte of the object has been written. -/
def Obj.whole (o : Obj) : Bool := o.filled == [(0, o.bytes)]

/-- The object's contents are lost: it counts as not written. -/
def Obj.forget (o : Obj) : Obj := { o with filled := [], digest := none }

/-! ### Scale tables (R175, R176) -/

/-- The records of the scale table with which an object's bytes begin. -/
def scaleRecs (b : List Byte) : List ScaleRec :=
  (List.range (u32 b 0)).map fun i =>
    let o := 16 + 16 * i
    ⟨u32 b o, BitVec.ofNat 32 (u32 b (o + 4)), BitVec.ofNat 32 (u32 b (o + 8)), BitVec.ofNat 32 (u32 b (o + 12))⟩

/-- Tensor numbers ascend and are unique. -/
def scalesRise : List ScaleRec → Bool
  | a :: b :: rs => decide (a.tensor < b.tensor) && scalesRise (b :: rs)
  | _ => true

/-- The scale table of an object, with as many bytes as it can have. -/
def scaleBytes (s : State) (o : Obj) : List Byte :=
  let n := u32 (peekBytes s (o.addr 0) 16).1 0
  if 1 ≤ n && n ≤ 65536 then (peekBytes s (o.addr 0) (16 + 16 * n)).1 else []

/-- The scale table passes its check: its count, its reserved bytes, its order, and every scale positive normal (R176). -/
def scaleTableOk (s : State) (o : Obj) : Bool :=
  let b := scaleBytes s o
  !b.isEmpty && zeroAt b 4 12 && scalesRise (scaleRecs b) &&
    (scaleRecs b).all fun r => f32PosNormal r.sW && f32PosNormal r.sIn && f32PosNormal r.sOut

/-! ### Writing (R61, R176) -/

/-- Bytes [15:0] of SHA-384 over an object's contents (R60). -/
def contentDigest (s : State) (o : Obj) : Nat := leNat ((sha384 (peekBytes s (o.addr 0) o.bytes).1).take 16)

/-- Digests that the plan sets on the device give an object (R61). -/
def namedDigests (s : State) (o : Obj) : List Nat :=
  (s.cfg.active.toList ++ s.cfg.retiring.toList ++ s.cfg.shadow.toList).flatMap fun p =>
    if o.owner.isNone || o.owner == some p.serial then (p.plan.models.filter (·.weights == o.place.id)).map (·.digest) else []

/-- A weight object after bytes of it were written; none where the write fails. Once every byte has been written, each
write checks the scale table and the digest, and records the digest (R61, R176; log 49). -/
def writtenObj (s : State) (x : Nat × Nat) (o : Obj) : Option Obj :=
  let o := { o with filled := addRange x o.filled }
  if !o.whole then some o
  else if scaleTableOk s o && (namedDigests s o).all (· == contentDigest s o) then some { o with digest := some (contentDigest s o) }
  else none

/-- The bytes of a weight object that a range of addresses meets. -/
def meetsWeights (a n : Nat) (o : Obj) : Option (Nat × Nat) :=
  if o.place.kind = 4 && decide (o.place.tier < 2) && decide (a < o.addr o.bytes) && decide (o.addr 0 < a + n) then
    some (a - o.addr 0, min (a + n - o.addr 0) o.bytes)
  else none

/-- Objects after a write of `n` bytes at `a`. -/
def writtenObjs (s : State) (a n : Nat) : List Obj → Option (List Obj)
  | [] => some []
  | o :: os =>
    match writtenObjs s a n os with
    | none => none
    | some rest =>
      match meetsWeights a n o with
      | none => some (o :: rest)
      | some x => (writtenObj s x o).map (· :: rest)

/-- Note a write whose bytes stand in the state; none where it fails. -/
def noteWrite (a n : Nat) (s : State) : Option State := (writtenObjs s a n s.mem.objs).map fun os => { s with mem.objs := os }

/-- Scale tables of the resident weight objects that are written, for a load. -/
def loadScales (s : State) : List (Nat × List ScaleRec) :=
  (s.mem.objs.filter fun o => o.owner.isNone && o.digest.isSome).map fun o => (o.place.id, scaleRecs (scaleBytes s o))

end Sys2Proof.Machine
end

