-- ==== Sys2Proof/Machine/Plans.lean ====
section
/-! DEFINITION. Plan loads (03 R69 to R74). -/

namespace Sys2Proof.Machine

/-! ### Loading -/

def stagingAddr : Nat := pageBytes * stagingPage

def fencedBenches (s : State) : List Nat := (List.range 96).filter fun b => (s.flt.benches.getD b {}).fenced

/-- Device-frame capacity of DDR5 in GiB (R568). -/
def ddrGib (s : State) : Nat :=
  let present := (List.range 16).filter fun c => unitUp s 1 c
  let total := (present.map fun c => ((s.mem.modules.getD c none).map (·.gib)).getD 0).sum
  total - ceilDiv ((present.map (deviceFrames s 1)).sum) 512

def hbmGib (s : State) : Nat := 48 * (12 - s.mem.stacksFailed.length)

/-- Raw NAND capacity in TiB while mounted (R568). -/
def stkTib (s : State) : Nat :=
  if s.stk.ready then ((s.stk.pop.map fun p => p.targets.sum * p.gibPerTarget).getD 0) / 1024 else 0

/-- Ports with a sub-port UP (R568). -/
def portsUp (s : State) : Nat :=
  ((List.range 12).filter fun p => (List.range 4).any fun i => (s.lnk.subs.getD (4 * p + i) {}).state == .up).length

/-- Bytes of a Stockpile block (R394). -/
def blockBytes (s : State) : Nat := (s.stk.pop.map fun p => p.planes * p.pagesPerBlock * 16384).getD 0

/-- Good blocks of a controller that a format left for users, as U ÷ B (R395). -/
def ctrlUserBlocks (s : State) (c : Nat) : Nat :=
  match s.stk.pop, s.stk.formatted with
  | some p, some perLun =>
    let l := ((p.targets.drop (16 * c)).take 16).sum * p.luns
    let b := blockBytes s
    let slc := if p.cell = 0 then b else if p.cell = 1 then b / 3 else b / 4
    let f := if l * slc = 0 then 0 else ceilDiv (640 * mib) (l * slc)
    let good := ((s.stk.ctrls.getD c {}).blocks.filter (·.use != .retired)).length
    7 * (good - 2 * l * f - perLun * l - 4 * l) / 8
  | _, _ => 0

def userBlocks (s : State) : Nat := ctrlUserBlocks s 0 + ctrlUserBlocks s 1

/-- Record blocks a tenant holds (R407). -/
def tenantRecBlocks (s : State) (tenant : Nat) : Nat := (s.stk.recBlocks.filter (·.tenant == tenant)).length

/-- Objects whose pages count for a set of plan sets: resident objects, and those of the sets named. -/
def objsOf (s : State) (serials : List Nat) : List Obj :=
  s.mem.objs.filter fun o => match o.owner with
    | none => true
    | some n => serials.contains n

def serialsHeld (s : State) : List Nat := (s.cfg.active.toList ++ s.cfg.retiring.toList).map (·.serial)

/-- What a load is checked against (R46, R57, R59, R61, R79). -/
def loadEnv (s : State) (cmdLen : Nat) : LoadEnv :=
  let units := (List.range 12).map (fun u => (0, u, freeFrames s 0 u)) ++ (List.range 16).map (fun c => (1, c, freeFrames s 1 c))
  let objs := objsOf s (serialsHeld s)
  { cmdLen := cmdLen, slots := s.sec.slots, fenced := fencedBenches s, hbmGib := hbmGib s, ddrGib := ddrGib s,
    stkTib := stkTib s, ports := portsUp s, present := (List.range 16).filter fun c => unitUp s 1 c, room := units,
    stkRoom := userBlocks s - ((objs.filter (·.place.tier == 2)).map (·.place.size)).sum - s.stk.recBlocks.length,
    blockBytes := blockBytes s, existing := (s.mem.objs.filter (·.owner.isNone)).map (·.place),
    held := objs.map (·.place),
    recBlocks := (dedup (s.stk.recBlocks.map (·.tenant))).map fun t => (t, tenantRecBlocks s t),
    digests := s.mem.objs.filterMap fun o => o.digest.map fun d => (o.place.id, d),
    scales := loadScales s,
    tables := s.gth.tables.map (·.spec), colls := s.srch.colls.map (·.spec) }

/-- Drop the shadow set and its job-context objects. -/
def dropShadow (s : State) : State :=
  match s.cfg.shadow with
  | some p => { freeObjects p.serial s with cfg.shadow := none }
  | none => s

/-- End a load with a code (R69, R73): the shadow set is left empty. -/
def loadFail (code detail off : Nat) (s : State) : State :=
  { s with cfg.load := none, cfg.shadow := none, cfg.loadCode := BitVec.ofNat 8 code,
           cfg.loadDetail := BitVec.ofNat 16 detail, cfg.rejectOffset := BitVec.ofNat 32 off,
           sec.sigFailPlan := if code = 3 then satInc s.sec.sigFailPlan else s.sec.sigFailPlan }

/-- Bytes of the staging region, or the offset of the first poisoned word (R71). -/
def stagingRead (s : State) (n : Nat) : Except Nat (List Byte) :=
  match (List.range (ceilDiv n 4)).find? fun i => (peekByte s (stagingAddr + 4 * i)).2 with
  | some i => .error (4 * i)
  | none => .ok (peekBytes s stagingAddr n).1

/-- The collections a new image names come into being with the geometry it gives (R278). -/
def makeColls (p : Plan) (s : State) : State :=
  p.colls.foldl (fun s c =>
    if s.srch.colls.any (·.id == c.coll) then s
    else match p.search? c.coll with
      | some r => { s with srch.colls := insertBy (fun a b => decide (a.id ≤ b.id)) { id := c.coll, spec := c, par := r } s.srch.colls }
      | none => s) s

/-- The tables a new image names (R252). -/
def makeTables (p : Plan) (s : State) : State :=
  p.tables.foldl (fun s t =>
    if s.gth.tables.any (·.spec.table == t.table) then s else { s with gth.tables := s.gth.tables ++ [{ spec := t }] }) s

/-- Step 9 of R69: the shadow set is valid. -/
def loadDone (l : Load) (s : State) : State :=
  let p := readPlan l.image
  let n := s.cfg.serial
  let s := makeTables p (makeColls p (placeAll n p s))
  let s := { s with cfg.load := none, cfg.shadow := some ⟨p, l.binding, 0, n⟩, cfg.serial := n + 1,
                    cfg.loadCode := 0, cfg.loadDetail := 0, cfg.rejectOffset := 0 }
  stamped s (fun s t => event t 0x60 devLoc 0 1 0 p.planId (toLe 4 p.planGen.toNat) s)

/-- One step of a load (R69 steps 3 to 9). -/
def loadStep (s : State) : State :=
  match s.cfg.load with
  | none => s
  | some l =>
    let fail (r : Reject) := loadFail r.code r.detail r.off s
    let go (l : Load) := { s with cfg.load := some { l with step := l.step + 1 } }
    let env := loadEnv s l.cmdLen
    match l.step with
    | 3 =>
      match stagingRead s l.cmdLen with
      | .error o => loadFail 0x1A 3 o s
      | .ok img =>
        match lowest (checkSignature img l.cmdLen s.sec.slots) with
        | some r => fail r
        | none => go { l with image := img }
    | 4 => match checkLayout l.image l.cmdLen with
      | some r => fail r
      | none => go l
    | 5 => match checkCaps (readPlan l.image) env with
      | some r => fail r
      | none => go l
    | 6 => match checkStep6 l.image (readPlan l.image) env with
      | some r => fail r
      | none => go l
    | 7 => match bindPlan env.fenced (readPlan l.image) with
      | (_, some r) => fail r
      | (b, none) => go { l with binding := b }
    | 8 => match firstOver env.existing env.room env.stkRoom (readPlan l.image).placements with
      | some o => loadFail 0x0B 0 o s
      | none => go l
    | _ => loadDone l s

/-- Steps 1 and 2 of R69. A load during a load, a firmware load or a prepared swap is refused with CFG_BUSY (R74, R94). -/
def planLoad (imageLen : Nat) (s : State) : State :=
  if s.cfg.load.isSome || s.rst.fwLoad.isSome || s.cfg.prepared.isSome then { s with cfg.loadCode := 1 } else
  let s := dropShadow { s with cfg.loadCode := 0, cfg.loadDetail := 0, cfg.rejectOffset := 0 }
  match stagingRead s (min imageLen 256) with
  | .error o => loadFail 0x1A 2 o s
  | .ok head =>
    match lowest (checkFormat head imageLen) with
    | some r => loadFail r.code r.detail r.off s
    | none => { s with cfg.load := some ⟨s.now, imageLen, 3, [], [], false⟩ }

/-- PLAN_LOAD (R69, R570). -/
def execPlanLoad (c : Cmd) (imageLen : W32) (s : State) : Host.Outcome State Fault Refusal :=
  .next (mgmtWrite c rCfgLoad (hi32 imageLen ||| 1) (fun _ => planLoad imageLen.toNat) s)

/-- LOAD_TIMEOUT (R70). -/
def execLoadTimeout (s : State) : Host.Outcome State Fault Refusal :=
  .next (whenServing s fun s => match s.cfg.load with
    | some l => if past s l.began 250000000 then loadFail 0x0E l.step 0 s else s
    | none => s)

/-- A fence after step 7 of a load: the stages are bound once more, under a new bound (R74). -/
def loadFenced (s : State) : State :=
  match s.cfg.load with
  | some l => if 8 ≤ l.step && !l.rebound then { s with cfg.load := some { l with step := 7, began := s.now, rebound := true } } else s
  | none => s

end Sys2Proof.Machine
end

