-- ==== Sys2Proof/Machine/SearchOps.lean ====
section
/-! DEFINITION. Reading and writing a collection's objects (12 R276, R277, R279, R293, R295, R302) and its passage
records (16 R405 to R407). -/

namespace Sys2Proof.Machine

/-! ### Layout -/

def twoMib (n : Nat) : Nat := roundUp n pageBytes

/-- The primary object and the byte of slot `s`'s state word (R275, R277, R276). -/
def Coll.stateAt (c : Coll) (s : Nat) : Nat × Nat :=
  if c.par.cls = 1 then (c.spec.codes, twoMib (1024 * c.par.dims) + 8 * s) else (c.spec.vectors, 8 * s)

def Coll.vecLen (c : Coll) : Nat := c.par.dims * elemBytes c.spec.vecFormat

/-- Byte of slot `s`'s vector in FULL_VECTORS (R276). -/
def Coll.vectorAt (c : Coll) (s : Nat) : Nat :=
  (if c.par.cls = 1 then 0 else twoMib (8 * c.spec.slots)) + s * c.vecLen

/-- Byte of slot `s`'s code (R277). -/
def Coll.codeAt (c : Coll) (s : Nat) : Nat :=
  twoMib (twoMib (1024 * c.par.dims) + 8 * c.spec.slots) + c.par.subspaces * s

/-- Positions of the Scree ring (R293). -/
def Coll.screeCap (c : Coll) (s : State) : Nat :=
  min 16777216 (((residentObj s c.spec.scree).map fun o => pageBytes * o.place.size / screeEntry c.par.subspaces).getD 0)

/-! ### Reading -/

/-- The slot state word as stored (R279). -/
def storedSlot (s : State) (c : Coll) (n : Nat) : SlotState :=
  slotOfWord (leNat (objBytes s (c.stateAt n).1 (c.stateAt n).2 8).1)

/-- A slot as an event of ticket `t` sees it, through the pending table (R295). -/
def slotAt (s : State) (c : Coll) (t : Ticket) (n : Nat) : SlotState :=
  match ((c.pending.filter fun p => p.slot == n && ticketLt p.ticket t).getLast?) with
  | some p => p.state
  | none => storedSlot s c n

/-- A slot with every change stamped so far. -/
def slotNow (s : State) (c : Coll) (n : Nat) : SlotState :=
  match ((c.pending.filter (·.slot == n)).getLast?) with
  | some p => p.state
  | none => storedSlot s c n

def slotVector (s : State) (c : Coll) (n : Nat) : List W32 :=
  vecOf c.spec.vecFormat (objBytes s c.spec.vectors (c.vectorAt n) c.vecLen).1

def slotCode (s : State) (c : Coll) (n : Nat) : List Byte := (objBytes s c.spec.codes (c.codeAt n) c.par.subspaces).1

/-- Centroid `k` of subspace `m` (R277). -/
def centroid (s : State) (c : Coll) (m k : Nat) : List W32 :=
  let n := c.par.dims / c.par.subspaces
  let b := (objBytes s c.spec.codes (4 * ((256 * m + k) * n)) (4 * n)).1
  (List.range n).map fun i => w32At b (4 * i)

/-- Edges of a node in the base array (R276). -/
def baseEdges (s : State) (c : Coll) (n : Nat) : List W64 :=
  let b := (objBytes s c.spec.adjacency (8 * (n * c.par.degree)) (8 * c.par.degree)).1
  (List.range c.par.degree).map fun i => BitVec.ofNat 64 (u64 b (8 * i))

/-- Edges under a version: the retiring one reads the base array, the live one its overlay first (R302, R306). -/
def edgesOf (s : State) (c : Coll) (overlay : List (Nat × List W64)) (n : Nat) : List W64 :=
  match (overlay.find? (·.1 == n)) with
  | some r => r.2
  | none => baseEdges s c n

/-- The words that scoring slot `n` reads hold poison (R376). -/
def slotPoisoned (s : State) (c : Coll) (n : Nat) : Bool :=
  (objBytes s (c.stateAt n).1 (c.stateAt n).2 8).2 ||
  (if c.par.cls = 1 then (objBytes s c.spec.codes (c.codeAt n) c.par.subspaces).2
   else (objBytes s c.spec.vectors (c.vectorAt n) c.vecLen).2)

/-- The passage id at a Scree position (R293). -/
def screeId (s : State) (c : Coll) (p : Nat) : W64 :=
  BitVec.ofNat 64 (leNat (objBytes s c.spec.scree (p % c.screeCap s * screeEntry c.par.subspaces) 8).1)

/-- What a step of ticket `t` sees of a collection, scoring with `score`. -/
def collView (s : State) (c : Coll) (t : Ticket) (overlay : List (Nat × List W64)) (score : Nat → W32) : SearchView :=
  { slots := c.spec.slots, degree := c.par.degree, shard := c.spec.shard, slot := slotAt s c t,
    edges := edgesOf s c overlay, score := score }

/-- The filter of a request (R290). -/
def filterOf (p : Plan) (tenant coll : Nat) : Option AttrFilter := (p.filter? tenant coll).map fun f => ⟨f.require, f.forbid⟩

/-! ### Writing -/

def writeSlot (c : Coll) (n : Nat) (st : SlotState) (s : State) : State :=
  objPut (c.stateAt n).1 (c.stateAt n).2 (toLe 8 st.word) s

def writeNode (c : Coll) (n : Nat) (es : List W64) (s : State) : State :=
  objPut c.spec.adjacency (8 * (n * c.par.degree)) ((padEdges c.par.degree es).flatMap fun e => toLe 8 e.toNat) s

/-- The lowest-numbered slot that satisfies `p`. -/
def lowestSlot (c : Coll) (p : Nat → Bool) : Option Nat := firstFrom p c.spec.slots 0

/-- Slots of a collection that satisfy `p`. -/
def slotsWhere (c : Coll) (p : Nat → Bool) : List Nat := (List.range c.spec.slots).filter p

/-! ### Passage records (R405 to R407) -/

/-- Fields of a passage record (R405). -/
def recTokens (b : List Byte) : List Nat := (List.range (u32 b 0x18)).map fun i => u32 b (0x20 + 4 * i)
def recAttr (b : List Byte) : Nat := fieldAt b 0x10 6
def recDigest (b : List Byte) : W64 := BitVec.ofNat 64 (u64 b 8)

/-- R405: whether a record keeps every rule of its table; `pieces` bounds its token ids (R236). -/
def recordOk (b : List Byte) (pieces blockLen : Nat) : Bool :=
  let n := u32 b 0x18
  let m := u32 b 0x1C
  let len := roundUp (32 + 4 * n + m) 16
  decide (32 ≤ b.length) && b.length == u32 b 0 && u32 b 0 == len && u8 b 4 == 1 && zeroAt b 5 3 && zeroAt b 0x16 2 &&
  decide (1 ≤ n) && decide (n ≤ 262144) && decide (m ≤ 1048576) && (recTokens b).all (· < pieces) &&
  zeroAt b (32 + 4 * n + m) (len - (32 + 4 * n + m)) && (blockLen == 0 || decide (len ≤ blockLen))

def findRecord (s : State) (coll slot : Nat) : Option PassRec := s.stk.records.find? fun r => r.coll == coll && r.slot == slot

/-- The open record block of a pair (R407). -/
def openBlock (s : State) (coll tenant : Nat) : Option RecBlock :=
  s.stk.recBlocks.find? fun b => b.coll == coll && b.tenant == tenant && b.openNow

/-- Bytes of live records in a record block. -/
def liveBytes (s : State) (block : Nat) : Nat := ((s.stk.records.filter (·.block == block)).map (·.bytes.length)).sum

/-- Controllers with a user block left (R404, R395). -/
def freeCtrl (s : State) : Option Nat :=
  [0, 1].find? fun c =>
    let ctl := s.stk.ctrls.getD c {}
    ctl.blocks.any fun b => b.use == .free &&
      decide (4 < (ctl.blocks.filter fun x => x.lun == b.lun && x.use == .free).length)

/-- Take a controller's lowest free user block for a logical block. -/
def takeBlock (ctrl lblock : Nat) (use : BlockUse) (s : State) : State :=
  let ctl := s.stk.ctrls.getD ctrl {}
  match ctl.blocks.find? fun b => b.use == .free &&
      (use == .system || decide (4 < (ctl.blocks.filter fun x => x.lun == b.lun && x.use == .free).length)) with
  | some b =>
    let blocks := ctl.blocks.map fun x => if x.no = b.no then { x with use := use, lblock := some lblock } else x
    { s with stk.ctrls := s.stk.ctrls.set ctrl { ctl with blocks := blocks } }
  | none => s

/-- Put a write into the buffer of the controller that owns its destination (R397). -/
def bufferWrite (ctrl : Nat) (kind : BufKind) (lblock page bytes : Nat) (s : State) : State :=
  let ctl := s.stk.ctrls.getD ctrl {}
  let e : BufEnt := ⟨ctl.nextId, kind, lblock, page, bytes, none⟩
  { s with stk.ctrls := s.stk.ctrls.set ctrl { ctl with buf := ctl.buf ++ [e], nextId := ctl.nextId + 1, lastWrite := s.now } }

/-- Append a record to its pair's open block, opening a new one where it does not fit (R407). -/
def appendRecord (coll slot gen tenant : Nat) (bytes : List Byte) (s : State) : State :=
  let fits : Option RecBlock := (openBlock s coll tenant).filter fun b => decide (b.used + bytes.length ≤ blockBytes s)
  let p : State × RecBlock := match fits with
    | some b => (s, b)
    | none =>
      let ctrl := (freeCtrl s).getD 0
      let nb : RecBlock := ⟨s.stk.nextBlock, ctrl, coll, tenant, true, 0⟩
      let closed := s.stk.recBlocks.map fun (x : RecBlock) =>
        if x.coll = coll ∧ x.tenant = tenant then { x with openNow := false } else x
      (takeBlock ctrl nb.id .record { s with stk.recBlocks := closed ++ [nb], stk.nextBlock := s.stk.nextBlock + 1 }, nb)
  let s := p.1
  let b := p.2
  let r : PassRec := ⟨coll, slot, gen, b.id, b.used, bytes, false⟩
  let kept := s.stk.records.filter fun (x : PassRec) => !(x.coll == coll && x.slot == slot)
  let blocks := s.stk.recBlocks.map fun (x : RecBlock) => if x.id = b.id then { x with used := x.used + bytes.length } else x
  let s := { s with stk.records := kept ++ [r], stk.recBlocks := blocks }
  bufferWrite b.ctrl .directory b.id (16 * slot / 16384) 16 (bufferWrite b.ctrl .record b.id (b.used / 16384) bytes.length s)

/-- The passage of an id as a fetch of ticket `t` meets it (R337, R245, R406): its tokens, or why it is skipped. -/
def fetchPassage (s : State) (c : Coll) (t : Ticket) (digest : W64) (id : W64) : PackPassage :=
  let n := localSlot id
  let st := slotAt s c t n
  if shardOf id != c.spec.shard || !decide (n < c.spec.slots) || !st.isLive || st.gen != genOf id then .skipped
  else match findRecord s c.id n with
    | some r =>
      if r.gen != genOf id || r.poisoned then .skipped
      else if recDigest r.bytes != digest then .mismatch
      else .ready (recTokens r.bytes)
    | none => .skipped

end Sys2Proof.Machine
end

