-- ==== Sys2Proof/Machine/Gathers.lean ====
section
/-! DEFINITION. Embedding tables: regions, directory entries, row decoding, passes and counters (11 R253 to R261,
R265). -/

namespace Sys2Proof.Machine

/-- The region of a version: (v − 1) mod 2. -/
def regionOf (v : Nat) : Nat := (v + 1) % 2

/-- Bytes of one half of an object. -/
def halfBytes (s : State) (obj : Nat) : Nat :=
  ((residentObj s obj).map fun o => pageBytes * o.place.size / 2).getD 0

def Table.state (t : Table) (r : Nat) : Region := if r = 0 then t.region0 else t.region1

def Table.setState (t : Table) (r : Nat) (x : Region) : Table := if r = 0 then { t with region0 := x } else { t with region1 := x }

/-- The region that the next version occupies (R266). -/
def Table.nextRegion (t : Table) : Nat := regionOf (t.version + 1)

/-- Byte of entry `i` in the ROW_DIR object, in a version's region (R253). -/
def dirEntryAt (s : State) (t : TableSpec) (v i : Nat) : Nat := regionOf v * halfBytes s t.dir + 8 * i

/-- Byte of counter `i` in the ROW_DIR object, in a region (R253). -/
def counterAt (s : State) (t : TableSpec) (r i : Nat) : Nat := r * halfBytes s t.dir + roundUp (8 * t.rows) 64 + 4 * i

/-- Length of a row by class (R254). -/
def rowLen (cls w : Nat) : Nat := if cls = 0 then 2 * w else if cls = 1 then w else if cls = 2 then w / 2 else 0

/-- A directory entry that reads as EMPTY with a fault (R256). -/
def entryBad (s : State) (t : TableSpec) (e : Nat) : Bool :=
  let cls := e % 4
  let off := bitsOf e 8 40 * 64
  let scale := fpDecode fmtFP16 (bitsOf e 48 16)
  bitsOf e 2 6 != 0 || decide (halfBytes s t.table < off + rowLen cls t.sliceWidth) ||
  (cls == 2 && !f32IsFin (fpRound32 scale))

/-- Elements of a row as its class stores them, widened to FP32 (R254, R255). -/
def rowElems (cls w : Nat) (scale : W32) (b : List Byte) : List W32 :=
  (List.range w).map fun i =>
    if cls = 0 then fpRound32 (elemDecode 6 (u16 b (2 * i)))
    else if cls = 1 then fpRound32 (elemDecode 4 (u8 b i))
    else if cls = 2 then f32Mul (fpRound32 (elemDecode 2 (u8 b (i / 2) / 16 ^ (i % 2) % 16))) scale
    else 0

/-- An element in a table's `out_format` (R255). -/
def outElem (fmt : Nat) (x : W32) : W32 := if fmt = 6 then widen32 fmtBF16 (convFloat fmtBF16 (f32 x)).1 else x

/-- A decoded row. -/
structure Row where
  elems : List W32
  bad : Bool
  poisoned : Bool

/-- Decode row `i` of a version's slice on this device (R255, R256). -/
def decodeRow (s : State) (t : TableSpec) (v i : Nat) : Row :=
  let d := objBytes s t.dir (dirEntryAt s t v i) 8
  let e := leNat d.1
  let zero := List.replicate t.sliceWidth 0
  if entryBad s t e then ⟨zero, true, d.2⟩
  else if e % 4 = 3 then ⟨zero, false, d.2⟩
  else
    let b := objBytes s t.table (regionOf v * halfBytes s t.table + bitsOf e 8 40 * 64) (rowLen (e % 4) t.sliceWidth)
    ⟨(rowElems (e % 4) t.sliceWidth (widen32 fmtFP16 (bitsOf e 48 16)) b.1).map (outElem t.outFormat), false, d.2 || b.2⟩

def padIndex : Nat := 0xFFFFFFFF

/-- Distinct indices a pass may hold (R258); `cols` columns of a decoded row. -/
def passLimit (t : TableSpec) (cols : Nat) : Nat := min 16384 (2097152 / (cols * (if t.outFormat = 6 then 2 else 4)))

/-- One pass over a batch: its distinct indices, and the positions left (R258). -/
def onePass (limit : Nat) : List Nat → List Nat → List Nat × List Nat
  | set, [] => (set, [])
  | set, x :: xs =>
    if x = padIndex || set.contains x then onePass limit set xs
    else if set.length = limit then (set, x :: xs)
    else onePass limit (set ++ [x]) xs

/-- The passes of a batch, each as its distinct indices in ascending order (R258). -/
def passesOf (limit : Nat) : Nat → List Nat → List (List Nat)
  | 0, _ => []
  | fuel + 1, xs =>
    if xs.isEmpty then []
    else let p := onePass limit [] xs; sortBy (fun a b => decide (a ≤ b)) p.1 :: passesOf limit fuel p.2

def batchPasses (t : TableSpec) (cols : Nat) (xs : List Nat) : List (List Nat) := passesOf (passLimit t cols) (xs.length + 1) xs

/-- Positions of a batch served without a fetch of their own (R258). -/
def fetchSaved (t : TableSpec) (cols : Nat) (xs : List Nat) : Nat :=
  (xs.filter (· != padIndex)).length - ((batchPasses t cols xs).map List.length).sum

/-- Add positions to one counter of a region (R261): saturating, and `cnt_sat` counts a counter that saturates. -/
def addCount (t : TableSpec) (r i n : Nat) (s : State) : State :=
  let a := counterAt s t r i
  let old := leNat (objBytes s t.dir a 4).1
  let s := objPut t.dir a (toLe 4 (min (old + n) 0xFFFFFFFF)) s
  if 0xFFFFFFFF < old + n then { s with gth.cntSat := satInc s.gth.cntSat } else s

/-- Apply the counts of a step for one table version: `idx` are the positions' indices (R261). -/
def addCounts (t : TableSpec) (v : Nat) (idx : List Nat) (s : State) : State :=
  (dedup (idx.filter (· != padIndex))).foldl (fun s i => addCount t (regionOf v) i (idx.filter (· == i)).length s) s

/-- The table a model's input embedding is (R251). -/
def modelTable (p : Plan) (model : Nat) : Option TableSpec := p.tables.find? fun t => t.model == model && model != 0xFFFF

/-- A row as the numbers a network reads. -/
def rowNats (r : List W32) : List Nat := r.map BitVec.toNat

/-- What a model reads for tokens: the ids, then their gathered rows where a table serves it. -/
def modelInput (rows : List (Nat × Nat × List W32)) (table : Option TableSpec) (toks : List Nat) : List Nat :=
  match table with
  | none => toks
  | some t => toks ++ toks.flatMap fun x => match rows.find? fun r => r.1 == t.table && r.2.1 == x with
    | some r => rowNats r.2.2
    | none => List.replicate t.dims 0

end Sys2Proof.Machine
end

