-- ==== Sys2Proof/Machine/Flow.lean ====
section
/-! DEFINITION. A request on its path (02 R29 to R37): stage queues, the hand-over between phases, the fan-out to
members and the merge of their answers (13, 18 R469, R485), and the caches a prompt needs (14 R343 to R349). -/

namespace Sys2Proof.Machine

/-! ### Stages of a route -/

/-- The phase in which a stage of a rank runs: encode, search with refine, rerank, prefill, decode. -/
def phaseOfRank (k : Nat) : Nat := if k = 0 then 0 else if k ≤ 2 then 1 else if k = 3 then 2 else if k = 4 then 3 else 4

def kindOf (p : Plan) (stage : Nat) : Nat := ((p.stage? stage).map (·.kind)).getD 7

/-- Step groups of a route with their ranks (R30, R49, R53). Encoder stages that follow one another are replicas of
one group (R30 step 3). -/
def routeGroups (p : Plan) (hops : List Hop) : List (Nat × List Nat) :=
  hops.foldl (fun acc h =>
    let k := stageRank (acc.getLast?.map (·.1)) (kindOf p h.stage)
    match acc.getLast? with
    | some (q, g) =>
      if h.par || (kindOf p h.stage == 0 && g.all (fun x => kindOf p x == 0)) then acc.dropLast ++ [(q, g ++ [h.stage])]
      else acc ++ [(k, [h.stage])]
    | none => [(k, [h.stage])]) []

/-- The groups of a type's route that belong to a phase. -/
def agendaOf (p : Plan) (type phase : Nat) : List (List Nat) :=
  match p.route? type with
  | none => []
  | some r => ((routeGroups p r.hops).filter fun g => phaseOfRank g.1 == phase).map (·.2)

/-- Requests in the input queue of a stage. -/
def queueLen (s : State) (stage : Nat) : Nat :=
  (s.job.reqs.filter fun r => r.place == .queue && (r.agenda.headD []).contains stage).length

def addReq (r : Req) (s : State) : State := { s with job.reqs := s.job.reqs ++ [r] }

/-- R31: there is room in the input queue of every stage of a group. -/
def groupRoom (s : State) (p : Plan) (g : List Nat) : Bool :=
  g.all fun x => decide (queueLen s x < ((p.stage? x).map (·.queueDepth)).getD 0)

/-- Of encoder replicas, the one with the shorter input queue, ties going to the first (R30 step 3). -/
def pickReplica (s : State) (p : Plan) (g : List Nat) : List Nat :=
  if 1 < g.length && g.all (fun x => kindOf p x == 0) then
    match g with
    | [] => []
    | x :: xs => [xs.foldl (fun a b => if queueLen s b < queueLen s a then b else a) x]
  else g

/-- Put a request in front of the first group of its agenda (R31). -/
def enqueue (r : Req) (s : State) : State :=
  match r.plan s, r.agenda with
  | some p, g :: rest =>
    let g := pickReplica s p g
    setReq { r with agenda := g :: rest, place := if groupRoom s p g then .queue else .held } s
  | _, _ => setReq { r with place := .held } s

/-! ### Budgets and forwarding (R32, R469, R473) -/

def softLeft (s : State) (r : Req) : Nat := r.soft - usSince s r.start
def hardLeft (s : State) (r : Req) : Nat := r.hard - usSince s r.start

def headOf (s : State) (r : Req) (shard : Nat) (reissue owed : Bool) : FwdHead :=
  ⟨r.mgr, r.epoch, s.dom.mgrEpoch.toNat, softLeft s r, hardLeft s r, shard, reissue || r.again, owed⟩

/-- Members of this device's own domain. -/
def ownMembers (s : State) : List Member := s.dom.members.filter fun m => nodeDomain m.node == nodeDomain (myNode s)

def memberNo (s : State) (n : Nat) : Option Member := (ownMembers s).find? fun m => nodeMember m.node == n

def isUp (s : State) (n : Node) : Bool := s.dom.members.any fun m => m.node == n && m.state == .up

/-- Members UP of a role, ascending. -/
def upOfRole (s : State) (role : Nat) : List Member :=
  sortBy (fun a b => decide (nodeMember a.node ≤ nodeMember b.node)) ((ownMembers s).filter fun m => m.state == .up && m.role == role)

/-- Nodes of a shard's replicas, ascending. -/
def replicaNodes (s : State) (e : ShardEnt) : List Node := e.replicas.map (nodeOf (nodeDomain (myNode s)))

def upReplicas (s : State) (e : ShardEnt) : List Node := (replicaNodes s e).filter (isUp s)

/-- R469: the replica at position `seq` mod r; 0 where none is UP. -/
def pickNode (s : State) (t : Ticket) (e : ShardEnt) : Node :=
  let up := upReplicas s e
  if up.isEmpty then 0 else up.getD (t.toNat % 2 ^ 48 % up.length) 0

def shardsOf (p : Plan) (coll : Nat) : List ShardEnt := ((p.shardMap? coll).map (·.shards)).getD []

/-- The shard entry that holds a passage id: in the named collection, or in any where none is named (R337). -/
def shardEntry (p : Plan) (coll : Nat) (id : W64) : Option ShardEnt :=
  let all := if coll = 0xFFFF then p.shardMaps.flatMap (·.shards) else shardsOf p coll
  all.find? (·.shard == shardOf id)

/-- The number under which a peer domain's answer is kept: no shard has it (log 25). -/
def peerShard (n : Node) : Nat := 0x1000000 + nodeDomain n

/-- The node a lead sends to for a peer: its mirror once that acts as manager (R485). -/
def peerNode (s : State) (x : Nat × Nat) : Node :=
  let mirror : Node := BitVec.ofNat 16 x.2
  if s.dom.members.any fun m => m.node == mirror && m.role == 0 && m.state == .up then mirror else BitVec.ofNat 16 x.1

def leadPeers (s : State) (r : Req) (p : Plan) : List Node :=
  if r.boss.isSome then [] else ((p.lead? r.desc.coll).map fun l => l.peers.map (peerNode s)).getD []

/-- Bytes of a BF16 vector (R30 step 3). -/
def bf16Bytes (v : List W32) : List Byte := v.flatMap fun x => toLe 2 (x.toNat / 65536)

/-- The stage input of WORK_FWD (R473). -/
def workInput (r : Req) : List Byte := if r.desc.type = 0 then bf16Bytes r.vector else r.payload

def sendWork (r : Req) (reissue owed : Bool) (x : Nat × Node) (s : State) : State :=
  if x.2 = 0 then s else send x.2 0 r.mgr (.workFwd (headOf s r x.1 reissue owed) r.desc (workInput r)) s

/-! ### Lists and merges -/

/-- `k` of a list result (R107, R339). -/
def kOf (r : Req) (s : State) : Nat :=
  if r.desc.k ≠ 0 then r.desc.k
  else if r.desc.type = 3 then min (idsOf (r.payload.drop r.desc.textLen)).length 4096
  else (((r.plan s).bind (·.search? r.desc.coll)).map (·.kFinal)).getD 0

/-- `k_keep` of a request's collection (R310). -/
def kKeepOf (r : Req) (s : State) : Nat := (((r.plan s).bind (·.search? r.desc.coll)).map (·.kKeep)).getD 4096

/-- Count a merge for a request, with a MERGE_CONFLICT record for each lasting conflict (R324, R330). -/
def mergeCounted (r : Req) (m : MergeCounts) (s : State) : State :=
  m.conflicts.foldl (fun s p => stamped s fun s t => event t 0x41 {} 0 2 0 p [] s) (countMerge r.ticket m s)

def withNan (m : MergeCounts) (r : Req) : Req := { r with nanSeen := r.nanSeen || decide (0 < m.nan) }

/-- A list result (R327, R328). -/
def listOutcome (status k : Nat) (es : List Entry) : Outcome :=
  { status := status, list := es.take k, result := listResult k (es.take k), nValid := min es.length k,
    shortK := decide (es.length < k) }

/-- What an ANSWER carries of a list: no padding (R319). -/
def partOutcome (status : Nat) (es : List Entry) (ps : List (W64 × List Nat)) : Outcome :=
  { status := status, list := es, nValid := es.length, passages := ps }

/-- What a rejection holds (R109, R113). -/
def rejected (detail : Nat) : Outcome := { status := 5, detail := detail }

/-! ### Caches (R343, R344, R349) -/

/-- The model and GEN_SPEC that a plan's PREFILL or DECODE stage of a route names, else the image's first. -/
def genOfPlan (p : Plan) : Option (Model × GenSpec) :=
  let named := p.stages.findSome? fun x => if x.kind = 5 || x.kind = 6 then p.gen? x.model else none
  match named.or p.gens.head? with
  | some g => (p.model? g.model).map fun m => (m, g)
  | none => none

/-- `data_len` of a block (R346). -/
def blockLen (m : Model) : Nat := 2 * 64 * m.kvHeads * m.headDim * (if m.kvFormat = 6 then 2 else 1)

/-- Blocks of a cache of `n` tokens. -/
def blocksFor (m : Model) (n : Nat) : Nat := m.layers * ceilDiv n 64

/-- Blocks the device's KV_CACHE pages hold (log 28). -/
def poolBlocks (s : State) : Nat :=
  match (activePlan s).bind genOfPlan with
  | some (m, _) =>
    let pages := ((objsOf s (serialsHeld s)).filter (·.place.kind == 8)).map (·.place.size)
    if blockLen m = 0 then 0 else pageBytes * pages.sum / blockLen m
  | none => 0

/-- Blocks of prompts this device prefills for another one, until they are acknowledged (R349 step 6). -/
def moveBlocks (s : State) (v : PfMove) : Nat :=
  match (activePlan s).bind genOfPlan with
  | some (m, _) => if v.decode = myNode s then 0 else blocksFor m (v.tokens.length - 1) - v.acked.length
  | none => 0

def usedBlocks (s : State) : Nat :=
  (s.dec.caches.map (·.reserved)).sum + ((s.dec.moves.filter (0 < ·.layersDone)).map (moveBlocks s)).sum

def freeBlocks (s : State) : Nat := poolBlocks s - usedBlocks s

/-- A handle (R344). -/
def cacheHandle (s : State) (slot : Nat) : W64 := s.job.jobId.extractLsb' 0 16 ++ BitVec.ofNat 32 slot ++ myNode s

/-- Reserve a cache (R349 step 3): none answers NO_ROOM. -/
def openCache (t : Ticket) (promptLen last fmt layers : Nat) (s : State) : Option (State × W64) :=
  let need := layers * ceilDiv (promptLen - 1) 64
  if 0xFFFFFFFF ≤ s.dec.nextSlot || decide (freeBlocks s < need) then none
  else
    let h := cacheHandle s s.dec.nextSlot
    let c : Cache := ⟨h, t, promptLen, last, fmt, layers, need, [], [], [], none, s.now⟩
    some ({ s with dec.caches := s.dec.caches ++ [c], dec.nextSlot := s.dec.nextSlot + 1 }, h)

/-- The plan's generator as its cache sees it: format and layers. -/
def cacheShape (s : State) (r : Req) : Nat × Nat :=
  match (r.plan s).bind genOfPlan with
  | some (m, _) => (m.kvFormat, m.layers)
  | none => (0, 0)

/-- Set or replace a prompt's move. -/
def setMove (v : PfMove) (s : State) : State := { s with dec.moves := upsert (·.ticket == v.ticket) v s.dec.moves }

def findMove (s : State) (t : Ticket) : Option PfMove := s.dec.moves.find? (·.ticket == t)

/-! ### Passages (R337, R406) -/

/-- The collection of this device that holds an id's shard. -/
def collOfShard (s : State) (r : Req) (id : W64) : Option Coll :=
  s.srch.colls.find? fun c => c.spec.shard == shardOf id && (r.desc.coll == 0xFFFF || r.desc.coll == c.id)

/-- Passages of a list as an event of ticket `t` fetches them. -/
def fetchAll (s : State) (r : Req) (t : Ticket) (ids : List W64) : List (W64 × PackPassage) :=
  let d := ((r.plan s).map (·.vocabDigest)).getD 0
  ids.map fun id => match collOfShard s r id with
    | some c => (id, fetchPassage s c t d id)
    | none => (id, .skipped)

def readyOnes (xs : List (W64 × PackPassage)) : List (W64 × List Nat) :=
  xs.filterMap fun x => match x.2 with
    | .ready toks => some (x.1, toks)
    | _ => none

/-- Count what a rerank fetch skipped (R236, R337). -/
def countFetch (xs : List (W64 × PackPassage)) (s : State) : State :=
  { s with rrk.fetchSkip := satAdd s.rrk.fetchSkip (xs.filter (·.2 == .skipped)).length,
           txt.tokMismatch := satAdd s.txt.tokMismatch (xs.filter (·.2 == .mismatch)).length }

/-- The candidates of a rerank phase, in payload or step-9 order. -/
def rerankIds (r : Req) : List W64 :=
  if r.desc.type = 0 || r.boss.isSome then r.merged.map (·.payload)
  else if r.desc.type = 3 then idsOf (r.payload.drop r.desc.textLen) else idsOf r.payload

/-! ### Prompts (R345, R349 step 1) -/

/-- The prefill member with the fewest prompts in flight, ties to the lowest member number (R30 step 14). -/
def prefillMember (s : State) : Option Node :=
  let load (n : Node) := (s.job.reqs.filter fun r => match r.place with
    | .prefill d _ => d == n
    | _ => false).length
  match (upOfRole s 3).map (·.node) with
  | [] => none
  | x :: xs => some (xs.foldl (fun a b => if load b < load a then b else a) x)

/-- The decode member with the most free blocks (R345). -/
def decodeMember (s : State) : Option Node :=
  let free (m : Member) := (m.beat.map (·.freeBlocks)).getD 0
  match upOfRole s 4 with
  | [] => none
  | x :: xs => some (xs.foldl (fun a b => if free a < free b then b else a) x).node

def pairByMember (s : State) (r : Req) : Bool :=
  match (r.plan s).bind genOfPlan with
  | some (_, g) => g.pairing == 1
  | none => false

/-- The decode member that BY_MEMBER pairs with a prefill member (R345). -/
def memberPair (s : State) (d : Node) : Option Node :=
  let pf := (upOfRole s 3).map (·.node)
  let dc := (upOfRole s 4).map (·.node)
  if dc.isEmpty then none else dc[pf.findIdx (· == d) % dc.length]?

/-- Send a packed prompt to a prefill device; it waits where no member can take it (log 27). -/
def sendPrompt (r : Req) (s : State) : State :=
  match prefillMember s with
  | none => setReq { r with place := .pack } s
  | some d =>
    let byMember := pairByMember s r
    match (if byMember then memberPair s d else decodeMember s) with
    | none => setReq { r with place := .pack } s
    | some c =>
      send d 0 r.mgr (.prompt (headOf s r 0 false false) r.desc (if byMember then 0 else c) r.packed)
        (setReq { r with place := .prefill d c } s)

/-! ### The hand-over between phases -/

/-- Ask the owning workers for a request's passages (R30 step 10). -/
def fanoutRerank (r : Req) (s : State) : State × Req :=
  match r.plan s with
  | none => (s, r)
  | some p =>
    let ids := rerankIds r
    let held := ids.filterMap fun id => (shardEntry p r.desc.coll id).map fun e => (id, e)
    let foreign := ids.filter fun id => (shardEntry p r.desc.coll id).isNone
    let peers := if foreign.isEmpty then [] else leadPeers s r p
    let shards := dedup (held.map fun x => x.2.shard)
    let plan := shards.map fun sh =>
      let mine := held.filter fun x => x.2.shard == sh
      (sh, ((mine.head?.map fun x => pickNode s r.mgr x.2).getD 0), mine.map (·.1))
    let asks : List (Nat × Node × List W64) := plan ++ peers.map fun n => (peerShard n, n, foreign)
    let r := { r with place := .answers true, answers := [], waitFor := asks.map fun x => (x.1, x.2.1), begun := true }
    let s := if peers.isEmpty && r.desc.type = 3 then { s with rrk.fetchSkip := satAdd s.rrk.fetchSkip foreign.length } else s
    (asks.foldl (fun s x => if x.2.1 = 0 then s
      else send x.2.1 0 r.mgr (.rerankFwd (headOf s r x.1 false false) r.desc r.tokens x.2.2) s) s, r)

/-- Ask one replica of every shard, and every peer domain, for a search (R30 step 4, R469, R485). -/
def fanoutSearch (r : Req) (s : State) : State × Req :=
  match r.plan s with
  | none => (s, r)
  | some p =>
    let own := (shardsOf p r.desc.coll).map fun e => (e.shard, pickNode s r.mgr e)
    let asks := own ++ (leadPeers s r p).map fun n => (peerShard n, n)
    let r := { r with place := .answers false, answers := [], waitFor := asks, begun := true }
    (asks.foldl (fun s x => sendWork r false false x s) s, r)

/-- Take what answers report into the request (R117, R310, R285, R291). -/
def foldAnswers (r : Req) : Req :=
  r.answers.foldl (fun r a =>
    { r with degraded := r.degraded ||| a.degraded, nanSeen := r.nanSeen || a.nanSeen,
             filterShort := r.filterShort || a.filterShort,
             indexVersion := if r.indexVersion = 0 then a.indexVersion
                             else if a.indexVersion = 0 then r.indexVersion else min r.indexVersion a.indexVersion }) r

/-- Step 12: the rerank order. Scores that are all +0 say that rerank was skipped: a QUERY keeps step 9's order (R340;
log 24). -/
def rerankOrder (r : Req) (es : List Entry) : List Entry :=
  if r.desc.type = 0 && es.all (·.score == 0) then r.merged else es

/-- The request's collection has no published version here (R302). -/
def unpublished (s : State) (r : Req) : Bool :=
  match findColl s r.desc.coll with
  | some c => c.version == 0
  | none => true

/-- Start a phase on this device. -/
def startPhase (phase : Nat) (r : Req) (s : State) : Req :=
  { r with phase := phase, agenda := ((r.plan s).map fun p => agendaOf p r.desc.type phase).getD [] }

/-- What a rerank phase without a rerank stage gives: the owned and readable ids with score +0 (R340). -/
def skipRerank (r : Req) (s : State) : State × Req :=
  if r.reranked then (s, r)
  else
    let st := stamp s
    let got := fetchAll st.1 r st.2 (rerankIds r)
    let s := if r.desc.type = 4 then st.1 else countFetch got st.1
    let ok := readyOnes got
    (s, { r with list := keyDesc (ok.map fun x => ⟨0, x.1⟩), passages := ok })

/-- Reserve the cache of a prompt that this device prefills and decodes itself (R349 steps 2 and 3); with no room it is
tried again (CACHE_OPEN_RETRY). -/
def openLocal (r : Req) (s : State) : State × Option W64 :=
  let sh := cacheShape s r
  match openCache r.mgr r.tokens.length (r.tokens.getLastD 0) sh.1 sh.2 s with
  | some (s, h) => (setMove ⟨r.ticket, r.mgr, myNode s, some h, r.tokens, 0, [], [], [], none, false⟩ s, some h)
  | none => (setMove ⟨r.ticket, r.mgr, myNode s, none, r.tokens, 0, [], [], [], some s.now, false⟩ s, none)

/-! ### Answers complete (R33) -/

/-- Every shard asked has answered. -/
def allAnswered (r : Req) : Bool := r.waitFor.all fun x => r.answers.any (·.shard == x.1)

/-- The status of answers that end a read: a rejection, or a quota (R302, R384). -/
def badAnswer (r : Req) : Option Answer := r.answers.find? fun a => a.status == 5 || a.status == 7

/-- The merge of step 12, and what follows it. -/
def mergeRerank (r : Req) (s : State) : State :=
  let r := foldAnswers r
  match badAnswer r with
  | some a => finish r { status := a.status, detail := a.detail } s
  | none =>
    let lists := r.answers.map (·.list)
    let m := mergeLists true (max 1 (lists.map List.length).sum) lists
    let s := mergeCounted r m.2 s
    let r := withNan m.2 { r with list := rerankOrder r m.1, reranked := true, waitFor := [],
                                  passages := r.answers.flatMap (·.passages) }
    if r.boss.isSome then finish r (partOutcome (okStatus r) m.1 r.passages) s
    else if r.desc.type = 3 then finish r (listOutcome (okStatus r) (kOf r s) r.list) s
    else setReq { r with place := .pack } s

/-- The merge of step 9, and what follows it. -/
def mergeSearch (r : Req) (s : State) : State :=
  let r := foldAnswers r
  match badAnswer r with
  | some a => finish r { status := a.status, detail := a.detail } s
  | none =>
    let k := if r.boss.isSome then kKeepOf r s else kOf r s
    let m := mergeLists true k (r.answers.map (·.list))
    let s := mergeCounted r m.2 s
    let r := withNan m.2 { r with list := m.1, merged := m.1, waitFor := [] }
    if r.boss.isSome then finish r (partOutcome (okStatus r) m.1 []) s
    else if r.desc.type = 2 then finish r (listOutcome (okStatus r) k m.1) s
    else
      let p := fanoutRerank r s
      if allAnswered p.2 then mergeRerank p.2 (setReq p.2 p.1) else setReq p.2 p.1

/-- Go on once the answers are in. -/
def whenAnswered (r : Req) (s : State) : State :=
  if allAnswered r then
    match r.place with
    | .answers false => mergeSearch r s
    | .answers true => mergeRerank r s
    | _ => setReq r s
  else setReq r s

/-- Send a request's search or its passages out, going on at once where nobody is asked. -/
def searchAway (r : Req) (s : State) : State := let p := fanoutSearch r s; whenAnswered p.2 (setReq p.2 p.1)
def rerankAway (r : Req) (s : State) : State := let p := fanoutRerank r s; whenAnswered p.2 (setReq p.2 p.1)

/-! ### One device -/

/-- After the encode phase of a request of this device (R36). -/
def afterEncode (go : Req → State → State) (r : Req) (s : State) : State :=
  if r.desc.type = 1 then finish r { status := okStatus r, result := bf16Bytes r.vector } s
  else if isManager s then searchAway r s
  else if unpublished s r then finish r (rejected 6) s
  else go (startPhase 1 r s) s

/-- After its search phase on one device. -/
def afterSearch (go : Req → State → State) (r : Req) (s : State) : State :=
  let m := mergeLists true (kOf r s) [r.list.take (kKeepOf r s)]
  let s := mergeCounted r m.2 s
  let r := withNan m.2 { r with list := m.1, merged := m.1 }
  if r.desc.type = 2 then finish r (listOutcome (okStatus r) (kOf r s) m.1) s
  else go (startPhase 2 r s) s

/-- After its rerank phase on one device. -/
def afterRerank (r : Req) (s : State) : State :=
  let p := skipRerank r s
  let m := mergeLists true (max 1 p.2.list.length) [p.2.list]
  let s := mergeCounted p.2 m.2 p.1
  let r := withNan m.2 { p.2 with list := rerankOrder p.2 m.1 }
  if r.desc.type = 3 then finish r (listOutcome (okStatus r) (kOf r s) r.list) s
  else setReq { r with place := .pack } s

/-- After a worker's search and after its rerank. -/
def partSearched (r : Req) (s : State) : State :=
  if isManager s then setReq r s else finish r (partOutcome (okStatus r) (r.list.take (kKeepOf r s)) []) s
def partReranked (r : Req) (s : State) : State :=
  let p := skipRerank r s
  finish p.2 (partOutcome (okStatus p.2) p.2.list p.2.passages) p.1

/-- What follows a phase whose agenda has run out. -/
def afterPhase (go : Req → State → State) (r : Req) (s : State) : State :=
  match r.boss.isSome, r.phase with
  | true, 1 => partSearched r s
  | true, 2 => partReranked r s
  | false, 0 => afterEncode go r s
  | false, 1 => afterSearch go r s
  | false, 2 => afterRerank r s
  | _, 4 => finish r { status := okStatus r } s
  | _, _ => setReq r s

/-- A request whose agenda has run out, or that stands before its next group: it queues, moves to its next phase, or
ends. The number bounds the phases still to pass. -/
def advance : Nat → Req → State → State
  | 0, r, s => setReq r s
  | n + 1, r, s => if r.agenda.isEmpty then afterPhase (advance n) r s else enqueue r s

/-- Phases a request passes on one device. -/
def phases : Nat := 6

/-- A prompt on the device that prefills and decodes it. -/
def localPrompt (r : Req) (s : State) : State :=
  let r := startPhase 3 { r with tokens := r.packed, place := .move } s
  if r.agenda.isEmpty then finish r (rejected 0) s
  else
    let o := openLocal r (setReq r s)
    match o.2 with
    | some _ => advance phases r o.1
    | none => o.1

/-! ### What a request holds when it ends early (R118, R32) -/

/-- The latest ranked list of a request: reranked, merged or searched, in that preference. -/
def bestList (r : Req) (s : State) : List Entry × MergeCounts :=
  let lists := r.answers.map (·.list)
  match r.place with
  | .answers false => mergeLists true (if r.boss.isSome then kKeepOf r s else kOf r s) lists
  | .answers true =>
    let m := mergeLists true (max 1 (lists.map List.length).sum) lists
    if m.1.isEmpty then (r.merged, {}) else (rerankOrder r m.1, m.2)
  | _ => (if r.reranked then r.list else if r.merged.isEmpty then r.list.take (kKeepOf r s) else r.merged, {})

/-- R as a walk that runs holds it: the manual fixes no pace, so the entries are a free value (R311; log 26). -/
def walkingList (r : Req) (s : State) : Option (List Entry) :=
  let walking := r.place == .running && s.job.steps.any fun p => p.batch.contains r.ticket && match planSet s p.epoch with
    | some q => p.stages.any fun x => kindOf q.plan x == 1
    | none => false
  if walking then some (((Config.partialWalk s.free).map fun x => ⟨x.1, x.2⟩).take (kKeepOf r s)) else none

/-- A hard-pass event on the device that runs the request, or decides it (R118). -/
def expire (r : Req) (s : State) : State :=
  let m := bestList r s
  let s := mergeCounted r m.2 s
  let r := withNan m.2 (foldAnswers r)
  let part := walkingList r s
  let s := if part.isSome then { s with free := s.free + 1 } else s
  let es := part.getD m.1
  let s := cancelAway r true s
  match r.boss with
  | some _ => finish r (partOutcome 2 es r.passages) s
  | none =>
    if r.desc.type = 0 || r.desc.type = 2 || r.desc.type = 3 then finish r (listOutcome 2 (kOf r s) es) s
    else finish r { status := 2 } s

end Sys2Proof.Machine
end

