-- ==== Sys2Proof/Machine/Begin.lean ====
section
/-! DEFINITION. Where a request goes once it is accepted (02 R36): mutations to their replicas (18 R469, 12 R297),
DECODE to its cache (14 R352), TABLE_PUBLISH across the domain (11 R269), and the end of acceptance (06 R140). -/

namespace Sys2Proof.Machine

/-! ### Mutations and folds (R297, R469, R477, R480) -/

/-- Shard entries that a mutation or FOLD goes to. -/
def mutationShards (r : Req) (p : Plan) : List ShardEnt :=
  let all := shardsOf p r.desc.coll
  if r.desc.type = 7 then
    if all.isEmpty then [] else (all[r.desc.tag.toNat % 2 ^ 48 % all.length]?).toList
  else if r.desc.type = 8 then all.filter fun e => e.shard == shardOf (BitVec.ofNat 64 r.desc.object)
  else all

/-- Replicas of a shard that are still members. -/
def liveReplicas (s : State) (e : ShardEnt) : List Node :=
  (replicaNodes s e).filter fun n => s.dom.members.any fun m => m.node == n && m.state != .removed

/-- Send a mutation or FOLD to every UP replica of its shards; a shard with none waits (R480). -/
def sendMutation (r : Req) (s : State) : State :=
  match r.plan s with
  | none => s
  | some p =>
    let es := mutationShards r p
    if es.isEmpty then finish r (rejected 0x28) s
    else
      let asks := es.flatMap fun e =>
        let up := upReplicas s e
        if up.isEmpty then [(e.shard, (0 : Node))] else up.map fun n => (e.shard, n)
      let owed := es.flatMap fun e => (liveReplicas s e).map fun n => (r.ticket, e.shard, n)
      let r := { r with place := .away, waitFor := asks, begun := true, sent := asks.any (·.2 != 0),
                        heldForReplica := asks.any (·.2 == 0) }
      asks.foldl (fun s x => sendWork r false false x s) (setReq r { s with dom.owed := s.dom.owed ++ owed })

/-! ### DECODE (R352, R355) -/

/-- Whether a handle's `job_low` is the present job's. -/
def jobLowOk (s : State) (h : W64) : Bool := h.extractLsb' 48 16 == s.job.jobId.extractLsb' 0 16

/-- Claim a cache on the device that holds it. -/
def claimDecode (r : Req) (s : State) : State :=
  let h : W64 := BitVec.ofNat 64 r.desc.object
  match s.dec.caches.find? (·.handle == h) with
  | none => finish r (rejected 0x28) s
  | some c =>
    if !jobLowOk s h || (c.claimed.isSome && c.claimed != some r.mgr) then finish r (rejected 0x28) s
    else
      let gram := ((r.plan s).bind (·.grammar? r.desc.grammar)).map fun g => (⟨g.start, []⟩ : GramConfig)
      let d : Decoding := ⟨h, [], if r.desc.grammar = 0xFF then none else gram, [], false, [], [], none⟩
      let r := startPhase 4 { r with dec := some d } s
      let s := { s with dec.caches := s.dec.caches.map fun x => if x.handle = h then { x with claimed := some r.mgr } else x }
      if r.agenda.isEmpty then finish r (rejected 0) (setReq r s) else advance phases r (setReq r s)

/-- Forward a DECODE to the device its handle names (R352). -/
def forwardDecode (r : Req) (s : State) : State :=
  let n : Node := BitVec.ofNat 16 r.desc.object
  if s.dom.members.any fun m => m.node == n && (m.state == .up || m.state == .suspect) then
    let r := { r with place := .away, waitFor := [(0, n)], begun := true }
    sendWork r false false (0, n) (setReq r s)
  else finish r (rejected 0x28) s

/-! ### TABLE_PUBLISH (R267, R269, R270) -/

/-- Whether the next region of a table can be published: it is BUILD, not busy, and its version may exist (R265, R267). -/
def publishable (t : Table) : Bool :=
  t.state t.nextRegion == .build && t.busy.isNone && decide (t.version + 1 < 0xFFFFFFFF)

/-- The switch (R267): BUILD becomes LIVE with the next version, LIVE becomes RETIRING. A remote table has no regions. -/
def switchTable (t : Table) : Table :=
  if t.spec.remote then { t with version := t.version + 1, prepared := none, committed := false }
  else
    let n := t.nextRegion
    let old := 1 - n
    let t1 := t.setState n .live
    let t2 := if t.state old == .live then t1.setState old .retiring else t1
    { t2 with version := t.version + 1, prepared := none, committed := false }

def setPub (b : Publication) (s : State) : State :=
  { s with gth.pubs := s.gth.pubs.map fun x => if x.ticket = b.ticket then b else x }

/-- Note the journal position of a completion's COMPLETE entry. -/
def journaled (t : Ticket) (pos : W64) (s : State) : State :=
  { s with wb.holdback := s.wb.holdback.map fun c => if c.ticket = t then { c with pos := some pos } else c }

def publishFail (r : Req) (member : Nat) (s : State) : State :=
  let s := { s with gth.pubFail := satInc s.gth.pubFail, gth.pubs := s.gth.pubs.filter (·.ticket != r.ticket) }
  let s := match findTable s r.desc.object with
    | some t => setTable { t with failMember := BitVec.ofNat 10 member } s
    | none => s
  finish r (rejected 0x28) s

/-- RETIRE goes out for publications whose former version no step of this device pins any more (R269 step 7). -/
def retirePubs (s : State) : State :=
  let done (b : Publication) : Bool := b.committed && b.pos.isNone &&
    !(s.job.steps.any fun p => p.tablePins.any fun x => x.1 == b.table && decide (x.2 < b.version))
  (s.gth.pubs.filter done).foldl (fun s b => sendEach b.members b.ticket (.retire b.table (b.version - 1)) s)
    { s with gth.pubs := s.gth.pubs.filter fun b => !done b }

/-- PUBLISH_COMMIT goes out (R269 step 6). -/
def publishSend (b : Publication) (s : State) : State :=
  retirePubs (sendEach b.members b.ticket (.publishCommit b.table b.version) (setPub { b with pos := none } s))

/-- The publish point (R269 step 5): the manager's own switch, the COMPLETE entry, and, once mirrored, the commit. -/
def publishPoint (r : Req) (b : Publication) (s : State) : State :=
  stamped s fun s _ =>
    let s := match findTable s b.table with
      | some t => setTable { switchTable t with retireSeen := true, recorded := t.recorded ++ [(r.mgr, b.version)] } s
      | none => s
    let s := finish r { status := 0, result0 := BitVec.ofNat 64 b.version } s
    match s.wb.holdback.find? (·.ticket == r.ticket) with
    | none => s
    | some c =>
      let j := journal 2 c.ticket c.tag (c.bytes false ++ c.result) s
      let b := { b with committed := true, pos := some j.2 }
      let s := setPub b (journaled c.ticket j.2 j.1)
      if mirrored s then s else publishSend b s

/-- All answers are in: act on them (R269 steps 4 and 5). A member without the table (code 1) holds no copy (log 30). -/
def publishCollect (b : Publication) (s : State) : State :=
  match findReq s b.ticket with
  | none => s
  | some r =>
    let bad := (b.answers.filter fun a => a.2 != 0 && a.2 != 1).map fun a => nodeMember a.1
    match (sortBy (fun x y => decide (x ≤ y)) bad).head? with
    | some n => publishFail r n s
    | none =>
      let b := { b with members := (b.answers.filter (·.2 == 0)).map (·.1) }
      publishPoint r b (setPub b s)

/-- Start a publication on a manager (R269 step 2). -/
def publishStart (r : Req) (s : State) : State :=
  match findTable s r.desc.object with
  | none => publishFail r (nodeMember (myNode s)) s
  | some t =>
    match t.recorded.find? (·.1 == r.mgr) with
    | some x => finish r { status := 0, result0 := BitVec.ofNat 64 x.2 } s
    | none =>
      if !t.spec.remote && !publishable t || decide (0xFFFFFFFF ≤ t.version + 1) then
        publishFail r (nodeMember (myNode s)) s
      else
        let ms := ((ownMembers s).filter fun m => m.state == .up && m.role != 1).map (·.node)
        let b : Publication := ⟨r.ticket, r.desc.object, t.version + 1, r.start, ms, [], false, none⟩
        let s := sendEach ms r.mgr (.publishPrep b.table b.version)
          (setReq { r with place := .publish, begun := true } { s with gth.pubs := s.gth.pubs ++ [b] })
        if ms.isEmpty then publishCollect b s else s

/-! ### A request begins -/

/-- An accepted request starts on its way (R36), or waits for its set (R80). -/
def begin' (r : Req) (s : State) : State :=
  if (r.plan s).isNone then setReq { r with place := .epoch } s
  else
    match r.desc.type with
    | 0 | 1 | 3 => setReq { r with place := .text } s
    | 2 =>
      let fmt := (((r.plan s).bind (·.coll? r.desc.coll)).map (·.vecFormat)).getD 6
      let r := { r with vector := vecOf fmt r.payload }
      if isManager s then searchAway r s
      else if unpublished s r then finish r (rejected 6) s else advance phases (startPhase 1 r s) (setReq r s)
    | 4 => if isManager s then rerankAway r s else setReq { r with place := .pack, begun := true } s
    | 5 =>
      let r := { r with packed := tokensOf r.payload, begun := true }
      if isManager s then sendPrompt r s else localPrompt r s
    | 6 => if isManager s then forwardDecode r s else claimDecode r s
    | 7 | 8 => if isManager s then sendMutation r s else setReq { r with place := .mutation, begun := true } s
    | 9 => if isManager s then sendMutation r s else setReq { r with place := .fold, begun := true } s
    | _ => if isManager s then publishStart r s else setReq { r with place := .publish, begun := true } s

/-- Work that another device sent starts here: phase 1 for WORK_FWD, 2 for RERANK_FWD, 3 for PROMPT (R30, R349, R474). -/
def beginWork (r : Req) (s : State) : State :=
  if (r.plan s).isNone then setReq { r with place := .epoch } s
  else match r.phase with
    | 2 => if isManager s then rerankAway r s else advance phases (startPhase 2 r s) (setReq r s)
    | 3 =>
      let d := if r.decodeNode = 0 then (memberPair s (myNode s)).getD 0 else r.decodeNode
      let sh := cacheShape s r
      let v : PfMove := ⟨r.ticket, r.mgr, d, none, r.tokens, 0, [], [], [], if d = 0 then some s.now else none, false⟩
      let s := setMove v (setReq { r with place := .move } s)
      if d = 0 then s else send d 0 r.mgr (.cacheOpen r.tokens.length (r.tokens.getLastD 0) sh.1 sh.2) s
    | _ =>
      match r.desc.type with
      | 0 | 2 =>
        if isManager s then searchAway r s
        else if unpublished s r then finish r (rejected 6) s
        else advance phases (startPhase 1 r s) (setReq r s)
      | 6 => claimDecode r s
      | 7 | 8 => setReq { r with place := .mutation, begun := true } s
      | 9 => setReq { r with place := .fold, begun := true } s
      | _ => finish r (rejected 0) s

/-- Step 4 of R140: the tag is held, ACCEPTED goes back, and the request begins, or ends as the range check or the end
of its job said. -/
def acceptDone (r : Req) (s : State) : State :=
  match r.place with
  | .acceptance _ src txn reject =>
    let s := { s with wb.held := s.wb.held ++ [(r.desc.tag, r.ticket)] }
    let s := send src txn r.ticket (.intakeAck r.desc.tag 0) s
    match reject with
    | some off => finish r (rejected off) s
    | none =>
      if r.ending = 2 then expire { r with place := .text } s
      else if r.ending ≠ 0 then finish r { status := r.ending, detail := if r.ending = 4 then s.job.faultCause.toNat else 0 } s
      else begin' r s
  | _ => s

/-- Requests of a set that has become active begin (R80, R82). -/
def wakeEpoch (s : State) : State :=
  let rs := sortBy (fun a b => ticketLe a.ticket b.ticket) (s.job.reqs.filter fun r => r.place == .epoch && (r.plan s).isSome)
  rs.foldl (fun s r => if r.boss.isSome then beginWork r s else begin' r s) s

end Sys2Proof.Machine
end

