-- ==== Sys2Proof/Machine/Swaps.lean ====
section
/-! DEFINITION. Swaps on one device (04 R77 to R93) and across a domain (R94 to R98). -/

namespace Sys2Proof.Machine

/-! ### Swaps -/

/-- Benches a set's stages reserve. -/
def reservedBenches (p : PlanSet) : List Nat := dedup (p.binding.flatMap (·.reserved))

/-- Pages of an object. -/
def pagesOf (s : State) (o : Obj) : List Page :=
  s.mem.pages.filter fun p => decide (o.page ≤ p.page) && decide (p.page < o.page + o.place.size)

/-- A page of an object lies in a tier, or a named migration takes it there. -/
def headsTo (s : State) (o : Obj) (tier : Nat) (p : Page) : Bool :=
  p.tier == tier || s.haul.todo.any (fun x => x.1 == p.page && x.2.1 == tier) ||
  s.haul.moves.any (fun m => m.page == p.page && m.tier == tier) ||
  s.haul.points.any (fun x => x.2.any fun m => m.object == o.place.id && m.toTier == tier)

/-- Pages that migrations bring into a tier which is not the object's own (R383). -/
def broughtIn (s : State) (tier : Nat) (o : Obj) : Nat :=
  if o.place.tier = tier || 2 ≤ o.place.tier then 0 else ((pagesOf s o).filter (headsTo s o tier)).length

/-- Frames a tenant uses in a tier (R383), and Stockpile blocks. -/
def tenantUse (s : State) (tenant tier : Nat) : Nat :=
  let mine := s.mem.objs.filter fun o => o.place.tenant == tenant
  ((mine.filter fun o => o.place.tier == tier).map (·.place.size)).sum + (mine.map (broughtIn s tier)).sum +
  (if tier = 2 then tenantRecBlocks s tenant else 0)

def quotaIn (p : Plan) (tenant tier : Nat) : Nat :=
  match p.quota? tenant with
  | some q => if tier = 0 then q.hbm else if tier = 1 then q.ddr else q.stk
  | none => 0

/-- Migration records of points `first` to `first + count − 1`. -/
def namedMoves (p : Plan) (first count : Nat) : List Migration :=
  p.migrations.filter fun m => decide (first ≤ m.point) && decide (m.point < first + count)

/-- The first row of R88 (and R381) that the swap breaks, as its detail. -/
def notAtomic (s : State) (a b : PlanSet) (first count : Nat) : Option Nat :=
  let pa := a.plan
  let pb := b.plan
  let resv (p : PlanSet) (id : Nat) := ((p.binding.find? (·.stage == id)).map (·.reserved)).getD []
  let same (x y : List Nat) := x.all (y.contains ·) && y.all (x.contains ·)
  let row1 := if pa.role = pb.role then none else some 0
  let row2 := (pb.stages.find? fun t => match pa.stage? t.id with
    | some u => u.kind != t.kind || !same (resv a t.id) (resv b t.id)
    | none => false).map (·.id)
  let row3 := (pb.stages.find? fun t => (pa.stage? t.id).isNone && (resv b t.id).any ((reservedBenches a).contains ·)).map (·.id)
  let tenants := dedup ((s.mem.objs.map (·.place.tenant)) ++ s.stk.recBlocks.map (·.tenant))
  let row4 := (sortBy (fun x y => decide (x ≤ y)) tenants).find? fun t => [0, 1, 2].any fun tier => decide (quotaIn pb t tier < tenantUse s t tier)
  let special (x : Placement) := x.tier == 2 || x.kind == 11 || x.kind == 10
  let row5 := (((pa.placements ++ pb.placements).filter special).find? fun x =>
    match pa.place? x.id, pb.place? x.id with
    | some u, some v => u.size != v.size || u.tier != v.tier || u.spread != v.spread
    | _, _ => true).map (·.id % 65536)
  let row6 := (pb.searches.find? fun c => match pa.search? c.id with
    | some d => c.cls != d.cls || c.metric != d.metric || c.dims != d.dims || c.subspaces != d.subspaces || c.degree != d.degree
    | none => false).map (·.id)
  let row7 := ((List.range count).map (first + ·)).find? fun n => !(pb.migrations.any (·.point == n))
  let moves := namedMoves pb first count
  let quotaOver := moves.any fun m => match s.mem.objs.find? (·.place.id == m.object) with
    | some o => m.toTier != o.place.tier &&
        decide (quotaIn pb o.place.tenant m.toTier < tenantUse s o.place.tenant m.toTier +
          ((moves.filterMap fun n => (s.mem.objs.find? fun q => q.place.id == n.object && q.place.tenant == o.place.tenant &&
            n.toTier == m.toTier && q.place.tier != n.toTier).map fun q =>
              ((pagesOf s q).filter fun p => !headsTo s q n.toTier p).length).sum))
    | none => false
  row1.or (row2.or (row3.or (row4.or (row5.or (row6.or (row7.or (if quotaOver then some 0 else none)))))))

/-- Step 3 of R82: the code and detail of the first check that fails (R84, R88, R89, R90, R381). -/
def swapCheck (s : State) (first count : Nat) : Option (Nat × Nat) :=
  match s.cfg.shadow with
  | none => if s.cfg.load.isSome then some (0x12, 0) else some (0x11, 0)
  | some b =>
    if s.cfg.load.isSome || s.cfg.swap.isSome || s.haul.running.isSome then some (0x12, 0)
    else if s.cfg.retiring.isSome then some (0x13, 0)
    else
      let atomic := match s.cfg.active with
        | some a => if s.job.phase = 0 then none else notAtomic s a b first count
        | none => none
      match atomic with
      | some d => some (0x14, d)
      | none =>
        (b.binding.find? fun x => x.reserved.any ((fencedBenches s).contains ·)).map fun x => (0x15, x.stage)

def swapRefuse (code detail : Nat) (s : State) : State :=
  { s with cfg.swapCode := BitVec.ofNat 8 code, cfg.swapDetail := BitVec.ofNat 16 detail }

/-- Group migration records by point, ascending (R58, R378). -/
def pointsOf (ms : List Migration) : List (Nat × List Migration) :=
  (sortBy (fun a b => decide (a ≤ b)) (dedup (ms.map (·.point)))).map fun n => (n, ms.filter (·.point == n))

/-- The unmoved pages of a point, with destinations by R368 applied to `to_spread`. -/
def pointPages (s : State) (ms : List Migration) : List (Nat × Nat × Nat) :=
  let all := ms.flatMap fun m => match s.mem.objs.find? (·.place.id == m.object) with
    | some o =>
      let units := spreadUnits m.toSpread
      (List.range o.place.size).filterMap fun i =>
        let u := units.getD (i % units.length) 0
        match s.mem.pages.find? (·.page == o.page + i) with
        | some p => if p.tier = m.toTier && p.unit = u then none else some (o.page + i, m.toTier, u)
        | none => none
    | none => []
  sortBy (fun a b => decide (a.1 ≤ b.1)) all

/-- Start the first of the points left that has pages to move (R378). -/
def nextPointOf : List (Nat × List Migration) → State → State
  | [], s => { s with haul.running := none, haul.points := [], haul.todo := [], haul.resumed := false }
  | (n, ms) :: rest, s =>
    let todo := pointPages s ms
    let s := { s with haul.running := some (n, ms), haul.pointId := BitVec.ofNat 8 n, haul.points := rest, haul.todo := todo, haul.resumed := false }
    if todo.isEmpty then nextPointOf rest s else s

def nextPoint (s : State) : State := nextPointOf s.haul.points s

/-- Whether a request still runs under an epoch (R82 step 6). -/
def epochBusy (s : State) (e : Nat) : Bool := s.job.reqs.any (·.epoch == e) || s.job.steps.any (·.epoch == e)

/-- Step 5 of R82: the swap boundary. With no job open there is no retiring set (R86). -/
def swapBoundary (first count : Nat) (point : Option Ticket) (s : State) : State :=
  match s.cfg.shadow with
  | none => s
  | some b => stamped s fun s t =>
    let e := (s.cfg.setEpoch.toNat + 1) % 65536
    let old := s.cfg.active
    let s := if s.job.phase = 0 then
        match old with
        | some a => freeObjects a.serial { s with cfg.retiring := none }
        | none => s
      else { s with cfg.retiring := old }
    let s := { s with cfg.active := some { b with epoch := e }, cfg.shadow := none, cfg.setEpoch := BitVec.ofNat 16 e,
                      cfg.swap := none, cfg.swapCode := 0x10, cfg.swapDetail := 0, cfg.swapTicket := point.getD t,
                      haul.points := pointsOf (namedMoves b.plan first count) }
    wakeEpoch (if s.haul.points.isEmpty then s else nextPoint s)

/-- Steps 2 to 5 of R82 once the checks passed. -/
def swapStart (t : Ticket) (first count : Nat) (point : Option Ticket) (s : State) : State :=
  let s := { s with cfg.swapCode := 0, cfg.swapDetail := 0 }
  match s.cfg.shadow with
  | none => s
  | some b =>
    if s.job.phase = 0 || (reservedBenches b).isEmpty then swapBoundary first count point s
    else { s with cfg.swap := some ⟨t, s.now, first, count, [], point⟩ }

/-- A CFG_SWAP_CMD write for this device (R82, R91). -/
def swapCommand (t : Ticket) (first count : Nat) (s : State) : State :=
  if s.cfg.prepared.isSome || s.cfg.domSwap.isSome then swapRefuse 0x12 0 s
  else
    match swapCheck s first count with
    | some (code, d) => swapRefuse code d s
    | none => swapStart t first count none s

/-- The data of a CFG_SWAP_CMD write (R91). -/
def swapData (domain : Bool) (first count : Byte) : W64 :=
  1 ||| flagAt 1 domain ||| atBit 8 first ||| atBit 16 count

/-- SWAP (R82, R91). -/
def execSwap (c : Cmd) (first count : Byte) (s : State) : Host.Outcome State Fault Refusal :=
  .next (mgmtWrite c rCfgSwap (swapData false first count) (fun t => swapCommand t first.toNat count.toNat) s)

/-- Benches that a running step issues to. -/
def busyBenches (s : State) : List Nat :=
  s.job.steps.flatMap fun p => match planSet s p.epoch with
    | some q => (q.binding.filter fun b => p.stages.contains b.stage).flatMap (·.issue)
    | none => []

/-- SWAP_INSTALL: a Bench installs the shadow's program at its step boundary (R82 step 4); the last one brings the
boundary. -/
def execSwapInstall (bench : Nat) (s : State) : Host.Outcome State Fault Refusal :=
  .next (whenServing s fun s =>
    match s.cfg.swap, s.cfg.shadow with
    | some w, some b =>
      if (reservedBenches b).contains bench && !w.installed.contains bench && !(busyBenches s).contains bench then
        let w := { w with installed := w.installed ++ [bench] }
        let s := { s with cfg.swap := some w }
        if (reservedBenches b).all (w.installed.contains ·) then swapBoundary w.first w.count w.point s else s
      else s
    | _, _ => s)

/-- Requests of an abandoned swap run under the set that stayed active (R80, R83). -/
def revertEpoch (s : State) : State :=
  let e := s.cfg.setEpoch.toNat
  wakeEpoch { s with job.reqs := s.job.reqs.map fun r => if r.epoch = (e + 1) % 65536 then { r with epoch := e } else r }

/-- SWAP_TIMEOUT (R83); a member of a domain swap declares a job fault instead (R97). -/
def execSwapTimeout (s : State) : Host.Outcome State Fault Refusal :=
  .next (whenServing s fun s => match s.cfg.swap with
    | some w =>
      if past s w.began 5000000 then
        let s := revertEpoch { s with cfg.swap := none, cfg.swapCode := 0x18, cfg.swapDetail := 0 }
        if w.point.isSome && !isManager s then jobFault 3 s else s
      else s
    | none => s)

/-- SET_RETIREMENT (R82 step 6, R85). -/
def execSetRetirement (s : State) : Host.Outcome State Fault Refusal :=
  .next (whenServing s fun s => match s.cfg.retiring with
    | some p =>
      if epochBusy s p.epoch then s
      else
        let s := { freeObjects p.serial s with cfg.retiring := none }
        stamped s fun s t => event t 0x61 devLoc p.epoch 1 0 0 [] s
    | none => s)

/-! ### Domain-wide swaps -/

/-- Members that take part in the domain's work (R94). -/
def membersPresent (s : State) : List Member :=
  (ownMembers s).filter fun m => m.state == .up || m.state == .suspect || m.state == .lost

/-- Slices this device's shadow would hold (R262). -/
def mySlices (s : State) : List Slice :=
  ((s.cfg.shadow.map (·.plan.tables)).getD []).filterMap fun t =>
    if t.remote then none else some ⟨t.table, t.sliceFirst, t.sliceWidth⟩

/-- Whether the slices of a table cover its columns exactly: the first member whose slice breaks the cover (R262). -/
def sliceFault (t : TableSpec) (xs : List (Node × Slice)) : Option Node :=
  let mine := sortBy (fun a b => decide (a.2.first ≤ b.2.first)) (xs.filter (·.2.table == t.table))
  let run := mine.foldl (fun (acc : Nat × List Node) x =>
    (x.2.first + x.2.width, if x.2.first = acc.1 then acc.2 else acc.2 ++ [x.1])) (0, [])
  let bad := if run.1 = t.dims then run.2 else run.2 ++ (mine.getLast?.map (·.1)).toList
  if mine.isEmpty then none else (sortBy (fun a b => decide (nodeMember a ≤ nodeMember b)) bad).head?

/-- End a domain swap without a boundary (R95). -/
def domAbort (d : DomSwap) (fails : List (Node × Nat × Nat)) (s : State) : State :=
  let fs := sortBy (fun a b => decide (nodeMember a.1 ≤ nodeMember b.1)) fails
  let s := sendEach d.members 0 (.abort d.epoch) s
  let first := fs.headD (0, 0x18, 0)
  let s := { s with cfg.domSwap := none, cfg.swapCode := 0x17, cfg.swapDetail := BitVec.ofNat 16 (nodeMember first.1),
                    dom.swapFail := (first.2.1, nodeMember first.1) }
  fs.foldl (fun s f => stamped s fun s t => event t 0x54 (peerLoc f.1) f.2.1 1 0 0 [] s) s

/-- COMMIT goes out and the manager swaps itself (R94 step 6). -/
def domCommitSend (d : DomSwap) (point : Ticket) (s : State) : State :=
  let s := { s with cfg.domSwap := none, cfg.slices := d.answers.map fun a => (a.1, a.2.2.2) }
  let s := sendEach d.members point (.commit d.epoch point) s
  swapStart point d.first d.count (some point) s

/-- Step 5 of R94: the swap point and its commit record. -/
def domCommit (d : DomSwap) (s : State) : State :=
  stamped s fun s t =>
    let r := journal 4 t 0 [] s
    if mirrored r.1 then { r.1 with cfg.domSwap := some { d with point := some (t, r.2) } } else domCommitSend d t r.1

/-- Act once every member has answered (R94 step 5, R95, R262). -/
def domCollect (d : DomSwap) (s : State) : State :=
  let fails := (d.answers.filter fun a => a.2.1 != 0x16).map fun a => (a.1, a.2.1, a.2.2.1)
  let slices := d.answers.flatMap fun a => a.2.2.2.map fun x => (a.1, x)
  let remote := ((s.cfg.shadow.map (·.plan.tables)).getD []).filter (·.remote)
  let broken := remote.filterMap fun t => sliceFault t slices
  if !fails.isEmpty then domAbort d fails s
  else if !broken.isEmpty then
    domAbort d [(broken.foldl (fun a b => if nodeMember b < nodeMember a then b else a) (broken.headD 0), 0x14, 0)] s
  else domCommit d s

def answered (d : DomSwap) (n : Node) : Bool := d.answers.any (·.1 == n)

/-- A CFG_SWAP_CMD write with `domain` set (R91, R94). -/
def domainSwapCommand (t : Ticket) (first count : Nat) (s : State) : State :=
  if !isManager s then swapRefuse 0x19 0 s
  else if s.cfg.domSwap.isSome then swapRefuse 0x12 0 s
  else
    match swapCheck s first count with
    | some (code, d) => swapRefuse code d s
    | none =>
      let e := (s.cfg.setEpoch.toNat + 1) % 65536
      let ms := (membersPresent s).map (·.node)
      let d : DomSwap := ⟨t, e, s.now, first, count, ms, [], none⟩
      let s := sendEach ms 0 (.prepare e) { s with cfg.swapCode := 0, cfg.swapDetail := 0, cfg.domSwap := some d }
      if ms.isEmpty then domCollect d s else s

/-- DOMAIN_SWAP (R94). -/
def execDomainSwap (c : Cmd) (first count : Byte) (s : State) : Host.Outcome State Fault Refusal :=
  .next (mgmtWrite c rCfgSwap (swapData true first count) (fun t => domainSwapCommand t first.toNat count.toNat) s)

/-- PREPARE (R94 step 3). -/
def execPrepare (src : Node) (nextEpoch : W16) (s : State) : Host.Outcome State Fault Refusal :=
  .next (whenServing s fun s => stamped s fun s t =>
    match (if s.cfg.prepared.isSome then some (0x12, 0) else swapCheck s 0 0) with
    | some (code, d) => send src 0 0 (.prepared code d (mySlices s)) s
    | none => send src 0 t (.prepared 0x16 0 (mySlices s)) { s with cfg.prepared := some ⟨nextEpoch.toNat, s.now, false⟩, cfg.swapCode := 0x16 })

/-- PREPARED (R94 steps 4 and 5, R95). -/
def execPrepared (src : Node) (code : Byte) (detail : W16) (slices : List Slice) (s : State) :
    Host.Outcome State Fault Refusal :=
  .next (whenServing s fun s => stamped s fun s _ => match s.cfg.domSwap with
    | some d =>
      if d.members.contains src && !answered d src && d.point.isNone then
        let d := { d with answers := d.answers ++ [(src, code.toNat, detail.toNat, slices)] }
        let s := { s with cfg.domSwap := some d }
        if d.members.all (answered d) then domCollect d s else s
      else s
    | none => s)

/-- DOMAIN_SWAP_TIMEOUT (R94 step 4, R95). -/
def execDomainSwapTimeout (s : State) : Host.Outcome State Fault Refusal :=
  .next (whenServing s fun s => match s.cfg.domSwap with
    | some d =>
      if past s d.since 20000000 && d.point.isNone then
        let silent := (d.members.filter fun n => !answered d n).map fun n => (n, 0x18, 0)
        let bad := (d.answers.filter fun a => a.2.1 != 0x16).map fun a => (a.1, a.2.1, a.2.2.1)
        domAbort d (silent ++ bad) s
      else s
    | none => s)

/-- A prepared member swaps at COMMIT, or at new-epoch work (R94, R96). -/
def commitPrepared (epoch : Nat) (point : Ticket) (s : State) : State :=
  match s.cfg.prepared with
  | some p => if p.epoch = epoch then swapStart point 0 0 (some point) { s with cfg.prepared := none } else s
  | none => if s.cfg.lateEpoch = some epoch then jobFault 3 { s with cfg.lateEpoch := none } else s

/-- COMMIT (R94 step 6, R98). -/
def execCommit (_src : Node) (epoch : W16) (point : Ticket) (s : State) : Host.Outcome State Fault Refusal :=
  .next (whenServing s fun s => stamped s fun s _ => commitPrepared epoch.toNat point s)

/-- ABORT (R95). -/
def execAbort (_src : Node) (epoch : W16) (s : State) : Host.Outcome State Fault Refusal :=
  .next (whenServing s fun s => stamped s fun s _ => match s.cfg.prepared with
    | some p => if p.epoch = epoch.toNat then { s with cfg.prepared := none } else s
    | none => s)

/-- PREPARED_WAIT (R98). -/
def execPreparedWait (s : State) : Host.Outcome State Fault Refusal :=
  .next (whenServing s fun s => match s.cfg.prepared with
    | some p =>
      if past s p.since 100000000 && !p.waited then
        stamped { s with cfg.prepared := some { p with waited := true } } fun s t => event t 0x55 devLoc 0 1 0 0 [] s
      else s
    | none => s)

/-- PREPARED_RELEASE (R98). -/
def execPreparedRelease (s : State) : Host.Outcome State Fault Refusal :=
  .next (whenServing s fun s => match s.cfg.prepared with
    | some p =>
      if past s p.since 1000000000 then
        stamped { s with cfg.prepared := none, cfg.lateEpoch := some p.epoch } fun s t => event t 0x55 devLoc 1 1 0 0 [] s
      else s
    | none => s)

end Sys2Proof.Machine
end

