-- ==== Sys2Proof/Machine/Jobs.lean ====
section
/-! DEFINITION. Jobs, cancellations and deadlines (05 R99 to R130, R597; 18 R471). -/

namespace Sys2Proof.Machine

/-! ### JOB_CMD (R100, R103, R126, R127) -/

def opBits (v : W64) (lo len : Nat) : Nat := regBits v lo len

/-- The manager's own image as a member must show it (R471). -/
def beatMatches (s : State) (b : Heartbeat) : Bool :=
  match activePlan s with
  | some p => b.activeValid && b.planId == p.planId && b.planGen == p.planGen && b.jobState == 0
  | none => false

/-- (collection, shard) pairs of the manager's shard maps that a member holds (R471). -/
def rosterOf (s : State) (member : Nat) : List (Nat × Nat) :=
  match activePlan s with
  | some p => p.shardMaps.flatMap fun m => (m.shards.filter (·.replicas.contains member)).map fun e => (m.coll, e.shard)
  | none => []

/-- Open the job on one member (R471). -/
def openMember (jobId : W32) (m : Member) (s : State) : State :=
  let s := send m.node 0 0 (.mwrite rJobCmd (hi32 jobId ||| 1)) s
  send m.node 0 0 (.enum 3 (nodeDomain m.node) 0 m.node m.uid (rosterOf s (nodeMember m.node))) s

/-- Members whose job the manager opens. -/
def openable (s : State) : List Member :=
  (ownMembers s).filter fun m => m.state == .up && (m.beat.map (beatMatches s)).getD false

def jobOpen (jobId : W32) (s : State) : State :=
  if 2 ≤ s.pwr.state then { s with job.cmdCode := 4 }
  else if s.job.phase ≠ 0 then { s with job.cmdCode := 2 }
  else if s.cfg.active.isNone then { s with job.cmdCode := 1 }
  else
    let s := { s with job.phase := 1, job.aborting := false, job.cmdCode := 0, job.jobId := jobId }
    if isManager s then (openable s).foldl (fun s m => openMember jobId m s) s else s

/-- Forward END_DRAIN or END_ABORT to the members of the job (R471). -/
def forwardEnd (op : W64) (s : State) : State :=
  if isManager s then ((s.dom.members.filter (·.inJob)).map (·.node)).foldl (fun s n => send n 0 0 (.mwrite rJobCmd op) s) s else s

def endDrain (s : State) : State :=
  if s.job.phase = 1 then forwardEnd 2 { s with job.phase := 2, job.aborting := false, job.cmdCode := 0 }
  else if s.job.phase = 2 then { s with job.cmdCode := 0 }
  else { s with job.cmdCode := 3 }

def endAbort (s : State) : State :=
  if s.job.phase = 1 || (s.job.phase = 2 && !s.job.aborting) then
    let s := forwardEnd 3 { s with job.phase := 2, job.aborting := true, job.cmdCode := 0 }
    stopFolds { endAll 3 0 s with gth.pubs := s.gth.pubs.filter (·.committed) }
  else if s.job.phase = 2 then { s with job.cmdCode := 0 }
  else { s with job.cmdCode := 3 }

def forceFault (t : Ticket) (s : State) : State :=
  if s.job.phase = 1 || s.job.phase = 2 then teardown 5 t { s with job.cmdCode := 0 } else { s with job.cmdCode := 3 }

/-- JOB_CLOSE: the job closes once no request is in flight (R103, R87). -/
def execJobClose (s : State) : Host.Outcome State Fault Refusal :=
  .next (whenServing s fun s =>
    if s.job.phase = 2 && s.job.reqs.isEmpty then
      let s := discardSets s
      { s with job.phase := 0, job.aborting := false, dom.members := s.dom.members.map fun m => { m with inJob := false } }
    else s)

/-! ### Cancellations (R120 to R122, R597) -/

/-- Take a publication back before its change (R597). -/
def dropPub (t : Ticket) (s : State) : State := { s with gth.pubs := s.gth.pubs.filter (·.ticket != t) }

/-- Stop this device's running fold of a request (R308). -/
def stopFoldOf (t : Ticket) (s : State) : State :=
  { s with srch.colls := s.srch.colls.map fun c => if (c.fold.map (·.request)) = some t then stopFold c else c }

/-- A cancellation acts on a request that this device accepted. -/
def cancelReq (r : Req) (s : State) : State :=
  match r.place with
  | .acceptance .. => cancelMissed s
  | _ =>
    let ty := r.desc.type
    if (isMutation ty && r.sent) || r.ending ≠ 0 then cancelMissed s
    else if ty = 6 && r.place = .away then cancelAway r false (setReq { r with ending := 3 } s)
    else if ty = 9 then finish r { status := 3 } (stopFoldOf r.ticket (cancelAway r false s))
    else if ty = 10 then finish r { status := 3 } (sendEach ((s.gth.pubs.find? (·.ticket == r.ticket)).map (·.members) |>.getD [])
      r.mgr (.cancelFwd false) (dropPub r.ticket s))
    else finish r { status := 3 } (cancelAway r false s)

/-- Cancel the request that a predicate finds among those accepted here (R120). -/
def cancelWhere (p : Req → Bool) (s : State) : State :=
  match s.job.reqs.find? fun r => r.boss.isNone && p r with
  | some r => cancelReq r s
  | none => cancelMissed s

def cancelTicket (v : W64) (s : State) : State := cancelWhere (·.ticket == v) s

/-- By (stream, sequence): tag bits [47:0] (R120, R129). -/
def cancelTag (v : W64) (s : State) : State := cancelWhere (fun r => r.desc.tag.extractLsb' 0 48 == v.extractLsb' 0 48) s

/-- CANCEL_TICKET (R120, R129). -/
def execCancelTicket (c : Cmd) (ticket : Ticket) (s : State) : Host.Outcome State Fault Refusal :=
  .next (mgmtWrite c rCancelTicket ticket (fun _ => cancelTicket ticket) s)

/-- CANCEL_TAG (R120, R129). -/
def execCancelTag (c : Cmd) (tag : BitVec 48) (s : State) : Host.Outcome State Fault Refusal :=
  .next (mgmtWrite c rCancelTag (tag.zeroExtend 64) (fun _ => cancelTag (tag.zeroExtend 64)) s)

/-- Work that another device's manager cancels here (R121): by R597 a mutation only before its append. -/
def cancelWork (r : Req) (expired : Bool) (s : State) : State :=
  let s := if r.desc.type = 9 then stopFoldOf r.ticket s else s
  if expired && !isMutation r.desc.type && r.desc.type ≠ 9 then expire r s
  else finish r { status := if expired then 2 else 3 } (cancelAway r expired s)

/-- CANCEL_FWD (R121, R35, R597). -/
def execCancelFwd (_src : Node) (ticket : Ticket) (expired : Bool) (s : State) : Host.Outcome State Fault Refusal :=
  .next (whenServing s fun s => stamped s fun s _ =>
    match s.job.reqs.filter fun r => r.boss.isSome && r.mgr == ticket with
    | r :: rs => (r :: rs).foldl (fun s r => cancelWork r expired s) s
    | [] =>
      let mine (c : Cache) : Bool := c.ticket == ticket && c.claimed.isNone
      if s.dec.caches.any mine then freeCaches mine s
      else if s.gth.tables.any fun t => (t.prepared.map (·.1)) == some ticket && !t.committed then
        { s with gth.tables := s.gth.tables.map fun t => if (t.prepared.map (·.1)) = some ticket then { t with prepared := none } else t }
      else cancelMissed s)

/-! ### Deadlines (R115 to R118) -/

/-- SOFT_PASS (R115, R116). -/
def execSoftPass (ticket : Ticket) (s : State) : Host.Outcome State Fault Refusal :=
  .next (whenServing s fun s => match findReq s ticket with
    | some r =>
      if r.softPassed || decide (usSince s r.start < r.soft) then s
      else stamped s fun s _ => setReq { r with softPassed := true } { s with dlm.softPassed := satInc s.dlm.softPassed }
    | none => s)

/-- The outcome of a hard-pass event (R118). -/
def hardPassed (r : Req) (s : State) : State :=
  let r := { r with hardPassed := true }
  let ty := r.desc.type
  match r.place with
  | .acceptance .. => setReq { r with ending := if r.ending = 0 then 2 else r.ending } s
  | _ =>
    if (isMutation ty && r.sent) || r.heldForReplica then setReq r s
    else if ty = 6 && r.place = .away then
      cancelAway r true (setReq { r with ending := if r.ending = 0 then 2 else r.ending } s)
    else if ty = 9 then finish r { status := 2 } (stopFoldOf r.ticket (cancelAway r true s))
    else if ty = 10 then finish r { status := 2 } (sendEach ((s.gth.pubs.find? (·.ticket == r.ticket)).map (·.members) |>.getD [])
      r.mgr (.cancelFwd true) (dropPub r.ticket s))
    else if isMutation ty then finish r { status := 2 } s
    else expire r s

/-- HARD_PASS (R115, R118). -/
def execHardPass (ticket : Ticket) (s : State) : Host.Outcome State Fault Refusal :=
  .next (whenServing s fun s => match findReq s ticket with
    | some r =>
      if r.hardPassed || decide (usSince s r.start < r.hard) then s
      else stamped s fun s _ => hardPassed r { s with dlm.hardPassed := satInc s.dlm.hardPassed }
    | none => s)

end Sys2Proof.Machine
end

