-- ==== Sys2Proof/Machine/Decoding.lean ====
section
/-! DEFINITION. The generator at work: key/value blocks (14 R346 to R348), one decode step (R354 to R360), and pages
drawn on demand (15 R384). -/

namespace Sys2Proof.Machine

/-! ### Pages on demand (R384) -/

/-- A tenant's objects of a kind, by object id. -/
def tenantObjs (s : State) (tenant kind : Nat) : List Obj :=
  sortBy (fun a b => decide (a.place.id ≤ b.place.id)) (s.mem.objs.filter fun o => o.place.tenant == tenant && o.place.kind == kind)

/-- Pages of an object that requests have drawn. -/
def drawnOf (s : State) (id : Nat) : List Nat := s.job.reqs.flatMap fun r => (r.drawn.filter (·.1 == id)).map (·.2)

/-- The next page of a kind for a tenant, or the `detail` of QUOTA. -/
def nextPage (s : State) (mine : List (Nat × Nat)) (tenant kind : Nat) : Except Nat (Nat × Nat) :=
  let objs := tenantObjs s tenant kind
  match objs.findSome? fun o =>
      let used := drawnOf s o.place.id ++ (mine.filter (·.1 == o.place.id)).map (·.2)
      ((List.range o.place.size).find? fun i => !used.contains i).map fun i => (o.place.id, i) with
  | some p => .ok p
  | none => .error ((objs.head?.map (·.place.tier)).getD 3)

/-- Draw `n` pages for a request that already draws `mine` in this event. -/
def drawPages (s : State) (tenant kind : Nat) : Nat → List (Nat × Nat) → Except Nat (List (Nat × Nat))
  | 0, mine => .ok mine
  | n + 1, mine =>
    match nextPage s mine tenant kind with
    | .ok p => drawPages s tenant kind n (mine ++ [p])
    | .error d => .error d

/-! ### Key/value blocks -/

/-- One FP32 element of a generator's cache. -/
def kvValue (m : Model) (input : List Nat) (v : Bool) (layer t h d : Nat) : W32 := Config.kvElem m.ref m.digest input v [layer, t, h, d]

/-- The FP32 values of one half of a block, tokens past `n` zero (R347). -/
def halfValues (m : Model) (input : List Nat) (v : Bool) (layer index n : Nat) : List W32 :=
  (List.range (64 * m.kvHeads * m.headDim)).map fun e =>
    let t := e / (m.kvHeads * m.headDim)
    if t < n then kvValue m input v layer (64 * index + t) (e / m.headDim % m.kvHeads) (e % m.headDim) else 0

/-- 448 and 2^−126 as FP32. -/
def f448 : W32 := 0x43E00000#32
def fTiny : W32 := 0x00800000#32

/-- Magnitude of an FP32 value. -/
def f32Abs (x : W32) : W32 := x &&& 0x7FFFFFFF#32

/-- The scale of a half (R348). -/
def halfScale (fp8 : Bool) (xs : List W32) : W32 :=
  if !fp8 then f32One
  else
    let m := (xs.filter f32IsFin).foldl (fun a x => if f32Lt a (f32Abs x) then f32Abs x else a) 0
    if m = 0 then f32One else let q := f32Div m f448; if f32Lt q fTiny then fTiny else q

/-- The stored bytes of a half and what their conversion counts (R348). -/
def halfBytesOf (fp8 : Bool) (scale : W32) (xs : List W32) : List Byte × ConvCount :=
  let inv := f32Div f32One scale
  let qs := xs.map fun x => if fp8 then convFloat fmtE4M3 (f32 (f32Mul x inv)) else convFloat fmtBF16 (f32 x)
  (qs.flatMap fun q => toLe (if fp8 then 1 else 2) q.1, (qs.map (·.2)).foldl ConvCount.add {})

/-- A key/value block of a prompt: header, data, counts. -/
def kvBlockOf (m : Model) (t : Ticket) (handle : W64) (input : List Nat) (cached layer index : Nat) :
    KvHead × List Byte × ConvCount :=
  let n := min 64 (cached - 64 * index)
  let fp8 := m.kvFormat != 6
  let k := halfValues m input false layer index n
  let v := halfValues m input true layer index n
  let ks := halfScale fp8 k
  let vs := halfScale fp8 v
  let kb := halfBytesOf fp8 ks k
  let vb := halfBytesOf fp8 vs v
  (⟨t, handle, layer, index, m.kvFormat, n, m.kvHeads, m.headDim, ks, vs, blockLen m⟩, kb.1 ++ vb.1, kb.2.add vb.2)

/-- Every (layer, block) of a prompt in the order it is sent (R349 step 4). -/
def blockOrder (m : Model) (cached : Nat) : List (Nat × Nat) :=
  (List.range m.layers).flatMap fun l => (List.range (ceilDiv cached 64)).map fun i => (l, i)

/-- Send one block in its segments (R445, R453). -/
def sendBlock (dst : Node) (h : KvHead) (data : List Byte) (s : State) : State :=
  ((chunks 65536 (data.length / 65536 + 1) data).mapIdx fun i x => (65536 * i, x)).foldl
    (fun s p => send dst 0 h.ticket (.kvBlock h p.1 p.2) s) s

/-- A prompt's request completes with its handle (R34, R246). -/
def completePrompt (r : Req) (handle : W64) (node : Node) (s : State) : State :=
  finish r { status := okStatus r, result0 := handle, node := node, nValid := r.placed.length,
             result := r.placed.flatMap fun p => toLe 8 p.toNat } s

/-- Every block is acknowledged: PREFILL_DONE goes to the manager (R349 step 6). -/
def moveDone (v : PfMove) (s : State) : State :=
  match v.handle, findReq s v.ticket with
  | some h, some r =>
    let s := dropReq r.ticket { s with dec.moves := s.dec.moves.filter (·.ticket != v.ticket) }
    match r.boss with
    | some n => send n 0 r.mgr (.prefillDone h) s
    | none => completePrompt r h (myNode s) (setReq r s)
  | _, _ => s

/-- The blocks of a prompt. -/
def promptBlocks (m : Model) (input : List Nat) (t : Ticket) (handle : W64) (cached : Nat) : List (KvHead × List Byte × ConvCount) :=
  (blockOrder m cached).map fun x => kvBlockOf m t handle input cached x.1 x.2

/-- Blocks of a prompt that stays on this device. -/
def keepBlocks (bs : List (KvHead × List Byte × ConvCount)) (v : PfMove) (handle : W64) (r : Req) (s : State) : State :=
  let w : List (Nat × Nat × KvHead × List Byte) := bs.map fun b => (b.1.layer, b.1.index, b.1, b.2.1)
  completePrompt r handle (myNode s)
    { s with dec.caches := s.dec.caches.map fun c => if c.handle = handle then { c with written := w } else c,
             dec.moves := s.dec.moves.filter (·.ticket != v.ticket) }

/-- Blocks of a prompt that go to another device. -/
def sendBlocks (m : Model) (bs : List (KvHead × List Byte × ConvCount)) (v : PfMove) (r : Req) (s : State) : State :=
  let v := { v with layersDone := m.layers, sent := bs.map fun b => (b.1.layer, b.1.index, s.now, false),
                    blocks := bs.map fun b => (b.1, b.2.1) }
  let s := bs.foldl (fun s b => sendBlock v.decode b.1 b.2.1 s) (setReq { r with place := .move } (setMove v s))
  if bs.isEmpty then moveDone v s else s

/-- The prefill step of one request ends: all its layers are done, and their blocks leave (R343, R349 step 4). -/
def prefillEnd (m : Model) (input : List Nat) (r : Req) (s : State) : State :=
  match findMove s r.ticket with
  | none => s
  | some v =>
    let bs := promptBlocks m input r.mgr (v.handle.getD 0) (v.tokens.length - 1)
    let counts := (bs.map (·.2.2)).foldl ConvCount.add {}
    let s := countArith { sat := counts.sat, nan := counts.nan } s
    if v.decode = myNode s then keepBlocks bs v (v.handle.getD 0) r s else sendBlocks m bs v r s

/-! ### One decode step -/

/-- Bytes of a cache as the generator reads them. -/
def cacheNats (c : Cache) : List Nat := c.written.flatMap fun w => w.2.2.2.map (·.toNat)

/-- The logits of the next token (R356). -/
def logitsOf (m : Model) (c : Cache) (d : Decoding) (rows : List Nat) : List W32 :=
  let ctx := cacheNats c ++ [c.lastToken] ++ d.emitted ++ rows
  (List.range m.vocab).map fun v => Config.logit m.ref m.digest ctx v

def tallyOf (d : Decoding) (v : Nat) : Nat := ((d.tally.find? (·.1 == v)).map (·.2)).getD 0

/-- The Tally after one more emission of `v`, and whether its count reached 0xFFFF now (R358). -/
def tallyAdd (d : Decoding) (v : Nat) : List (Nat × Nat) × Bool :=
  let n := tallyOf d v
  (upsert (·.1 == v) (v, min (n + 1) 0xFFFF) d.tally, n + 1 == 0xFFFF)

/-- The first end reason that applies after an emitted token (R360 rows 1 to 4, 9). -/
def endReasonAfter (eos : Option Nat) (tok : Nat) (stopped : Bool) (emitted budget len ctx : Nat) (noPage : Bool) : Option Nat :=
  if eos = some tok then some 1
  else if stopped then some 2
  else if budget ≤ emitted then some 3
  else if ctx ≤ len + emitted then some 4
  else if noPage then some 9
  else none

/-- A new block is due before this step's token is cached (R359). -/
def needsBlock (c : Cache) (d : Decoding) : Bool := (c.promptLen - 1 + d.emitted.length) % 64 == 0

/-- End a DECODE in a step that emits no token (R359, R356). -/
def endQuiet (r : Req) (d : Decoding) (reason : Nat) (s : State) : State :=
  finish { r with dec := some { d with ended := some reason } } { status := okStatus r } s

/-- Tokens the request's grammar allows now (R357). -/
def grammarAllows (p : Plan) (r : Req) (d : Decoding) (v : Nat) : Bool :=
  match p.grammar? r.desc.grammar, d.gram with
  | some a, some q => a.allows (p.lattice.bind (·.eosId)) q v
  | _, _ => true

/-- A cache grows by one block of each layer when a new block is due (R359). -/
def growCache (m : Model) (c : Cache) (d : Decoding) (s : State) : State :=
  if needsBlock c d then
    { s with dec.caches := s.dec.caches.map fun (x : Cache) => if x.handle = c.handle then { x with reserved := c.reserved + m.layers } else x }
  else s

/-- What one token makes of a request's decode state: the state, the bytes it releases. -/
def stepDecoding (p : Plan) (g : GenSpec) (r : Req) (d : Decoding) (c : Cache) (tok : Nat) (noPage : Bool) : Decoding × List Byte :=
  let ta := tallyAdd d tok
  let stops := ((p.stopSet? r.desc.stopSet).filter fun _ => r.desc.stopSet != 0xFF).getD []
  let hb := holdBack stops (d.heldBytes ++ (p.lattice.map fun l => detokenize l p.vocab tok).getD [])
  let emitted := d.emitted ++ [tok]
  let reason := endReasonAfter (p.lattice.bind (·.eosId)) tok hb.2.2 emitted.length r.desc.budget c.promptLen g.ctxMax noPage
  let out := if reason.isSome then hb.1 ++ hb.2.1 else hb.1
  ({ d with emitted := emitted, tally := ta.1, spilled := d.spilled || (!d.spilled && decide (4096 < ta.1.length)),
            heldBytes := if reason.isSome then [] else hb.2.1, released := d.released ++ out, ended := reason,
            gram := match p.grammar? r.desc.grammar, d.gram with
              | some a, some q => some (a.step q tok)
              | _, q => q }, out)

/-- Counts of the Tally (R358). -/
def countTally (full spilled : Bool) (s : State) : State :=
  { s with dec.tallySat := if full then satInc s.dec.tallySat else s.dec.tallySat,
           dec.tallySpill := if spilled then satInc s.dec.tallySpill else s.dec.tallySpill }

/-- A token was emitted: its bytes leave, and the request ends or takes its next step. -/
def afterToken (d : Decoding) (x : Decoding × List Byte) (tok : Nat) (page : Except Nat (List (Nat × Nat))) (r : Req) (s : State) : State :=
  let recs := streamParts r.mgr r.desc.tag d.emitted.length tok d.released x.2 (!x.1.heldBytes.isEmpty) x.1.ended.isSome
  let s := if r.desc.streams then pumpStreams (deliverStream r recs s) else s
  let r := { r with dec := some x.1, drawn := r.drawn ++ (page.toOption.getD []) }
  match x.1.ended, page with
  | some 9, .error t => finish r { status := 7, detail := t } s
  | some _, _ => finish r { status := okStatus r } s
  | none, _ => enqueue r s

/-- One token for a request (R356 to R360). -/
def takeToken (p : Plan) (g : GenSpec) (r : Req) (d : Decoding) (c : Cache) (tok : Nat) (s : State) : State :=
  let ta := tallyAdd d tok
  let spills := !d.spilled && decide (4096 < ta.1.length)
  let page := if spills then drawPages s r.desc.tenant 9 1 [] else .ok []
  afterToken d (stepDecoding p g r d c tok page.toOption.isNone) tok page r (countTally ta.2 (spills && page.toOption.isSome) s)

/-- TOKEN_EMIT and DETOKENIZE for one request (R354 to R360, R237 to R241). -/
def emitToken (p : Plan) (m : Model) (g : GenSpec) (rows : List Nat) (r : Req) (s : State) : State :=
  match r.dec with
  | none => s
  | some d =>
    match s.dec.caches.find? (·.handle == d.handle) with
    | none => s
    | some c =>
      if needsBlock c d && decide (freeBlocks s < m.layers) then endQuiet r d 5 s
      else
        let pick := sampleToken r.desc.sampling d.emitted.length (grammarAllows p r d) (tallyOf d) (logitsOf m c d rows)
        let s := countArith { flush := pick.2.2 } { growCache m c d s with scr.nanDropped := satAdd s.scr.nanDropped pick.2.1 }
        match pick.1 with
        | none => endQuiet r d 6 { s with dec.noToken := satInc s.dec.noToken }
        | some tok => takeToken p g r d c tok s

end Sys2Proof.Machine
end

