-- ==== Sys2Proof/Machine/Stages.lean ====
section
/-! DEFINITION. Batch steps (05 R104 to R106, R119): how a stage forms its step, what the step reads at its start
ticket (12, 14, 11), and what it delivers at its end. -/

namespace Sys2Proof.Machine

/-! ### Fallback (R64, R116) -/

/-- The entry of a policy that applies to a stage a request is about to enter: the highest eligible index. -/
def fallbackFor (s : State) (r : Req) (p : Plan) (stage : Nat) : Option (Nat × Fallback) :=
  let es := ((p.policy? r.desc.policy).map (·.entries)).getD []
  let ok (e : Fallback) : Bool :=
    e.fromStage == stage && r.softPassed && !r.desc.noDegrade && (e.trigger == 0xFFFFFFFF || decide (hardLeft s r ≤ e.trigger))
  ((es.mapIdx fun i e => (i, e)).filter fun x => ok x.2).getLast?

/-- A request about to enter its head group, with the fallback entries of the group's stages applied. -/
def applyFallback (s : State) (r : Req) (p : Plan) : Req :=
  match r.agenda with
  | [] => r
  | g :: rest =>
    let hits := g.map fun x => (x, fallbackFor s r p x)
    let g' := hits.filterMap fun x => match x.2 with
      | some (_, e) => if e.action = 0 then none else some e.subStage
      | none => some x.1
    let bits := hits.foldl (fun b x => match x.2 with
      | some (i, _) => b ||| 2 ^ i
      | none => b) 0
    { r with agenda := if g'.isEmpty then rest else g' :: rest, degraded := r.degraded ||| bits }

/-! ### Forming a batch (R104) -/

/-- Requests in a stage's input queue, in ticket order. -/
def waitingFor (s : State) (stage : Nat) : List Req :=
  sortBy (fun a b => ticketLe a.ticket b.ticket)
    (s.job.reqs.filter fun r => r.place == .queue && (r.agenda.headD []).contains stage)

/-- Benches that a group of stages issues to under an epoch. -/
def issueOf (s : State) (epoch : Nat) (stages : List Nat) : List Nat :=
  match planSet s epoch with
  | some q => (q.binding.filter fun b => stages.contains b.stage).flatMap (·.issue)
  | none => []

/-- A request may enter a step of its head group now: a DECODE whose ring is full waits (R239), and a prompt for another
device waits for free pages (R349). -/
def mayEnter (s : State) (r : Req) (p : Plan) : Bool :=
  let g := r.agenda.headD []
  let ringOk := !(r.boss.isNone && r.desc.streams && g.any fun x => kindOf p x == 6) || s.txt.sr.open
  let pagesOk := match findMove s r.ticket, genOfPlan p with
    | some v, some (m, _) => v.decode == myNode s || !(g.any fun x => kindOf p x == 5) ||
        decide (blocksFor m (v.tokens.length - 1) ≤ freeBlocks s)
    | _, _ => true
  ringOk && pagesOk

/-- What a batch is made of while it forms. -/
structure Forming where
  lead : Option (Nat × List Nat × Nat)
  batch : List Req

/-- Consider one waiting request. -/
def takeWaiting (stage : Nat) (r : Req) (x : State × Forming) : State × Forming :=
  let s := x.1
  let f := x.2
  match r.plan s with
  | none => x
  | some p =>
    let full := match f.lead with
      | some l => l.1 != r.epoch || decide (l.2.2 ≤ f.batch.length)
      | none => false
    if full then x
    else
      let r := applyFallback s r p
      let g := r.agenda.headD []
      if !g.contains stage then (advance phases r s, f)
      else
        let s := setReq r s
        match f.lead with
        | some l => if l.2.1 = g && mayEnter s r p then (s, { f with batch := f.batch ++ [r] }) else (s, f)
        | none =>
          let cap := (g.map fun n => ((p.stage? n).map (·.batchMax)).getD 1).foldl min 1024
          if mayEnter s r p && (issueOf s r.epoch g).all fun b => !(busyBenches s).contains b then
            (s, ⟨some (r.epoch, g, cap), [r]⟩)
          else (s, f)

def formBatch (stage : Nat) (s : State) : State × Forming :=
  (waitingFor s stage).foldl (fun x r => takeWaiting stage r x) (s, ⟨none, []⟩)

/-! ### What a step reads for one request -/

/-- A step's work for one request: its output, or why the request ends instead; and whether it met poison (R376). -/
structure Work where
  out : StepOut
  reject : Option Outcome
  poisoned : Bool

def emptyOut (t : Ticket) : StepOut := ⟨t, [], [], [], [], false, false, 0⟩

/-- The code bytes of a Scree entry (R293). -/
def screeCode (s : State) (c : Coll) (p : Nat) : List Byte :=
  (objBytes s c.spec.scree (p % c.screeCap s * screeEntry c.par.subspaces + 8) c.par.subspaces).1

def screePoisoned (s : State) (c : Coll) (p : Nat) : Bool :=
  (objBytes s c.spec.scree (p % c.screeCap s * screeEntry c.par.subspaces) (screeEntry c.par.subspaces)).2

/-- The query a stage scores with, and SFU results flushed (R283). -/
def preparedQuery (c : Coll) (r : Req) : List W32 × Nat := prepareQuery c.par.metric r.vector

/-- Scores of slots and of Scree positions for a prepared query, with what the distance table's conversions count
(R283, R284). -/
def scorers (s : State) (c : Coll) (q : List W32) : (Nat → W32) × (Nat → Nat → W32) × ConvCount :=
  if c.par.cls = 1 then
    let t := distTable c.par.metric c.par.dims c.par.subspaces (centroid s c) q
    (fun n => approxScore t.1 (slotCode s c n), fun p _ => approxScore t.1 (screeCode s c p), t.2)
  else
    let f := fun n => exactScore c.par.metric q (slotVector s c n)
    (f, fun _ n => f n, {})

/-- The codebook holds poison. -/
def codebookPoisoned (s : State) (c : Coll) : Bool := c.par.cls == 1 && (objBytes s c.spec.codes 0 (1024 * c.par.dims)).2

/-- The walk of R287, or the scan of a `degree` 0 collection (R289). -/
def walkPart (s : State) (c : Coll) (v : SearchView) (f : Option AttrFilter) (k : SearchRec) : Walk × Bool :=
  if c.par.degree = 0 then
    let ids := (List.range c.spec.slots).map v.idOf
    let r := scanSlots v f k.refine ids
    (⟨0, 0, [], [], [], r.1, { nan := r.2 }⟩, (List.range c.spec.slots).any (slotPoisoned s c))
  else
    let w := walkFrom v f k.refine k.beam k.expand c.entry
    let edgeBad (e : W64) : Bool := (c.overlay.find? (·.1 == localSlot e)).isNone &&
      (objBytes s c.spec.adjacency (8 * (localSlot e * c.par.degree)) (8 * c.par.degree)).2
    (w, (w.visited.any fun e => slotPoisoned s c (localSlot e)) || w.expanded.any edgeBad)

/-- The Scree scan of R294. -/
def scanPart (s : State) (c : Coll) (v : SearchView) (f : Option AttrFilter) (need : Nat) (score : Nat → Nat → W32) :
    (List Entry × Bool) × Bool :=
  let ps := (List.range (c.screeTail - c.screeBase)).map (c.screeBase + ·)
  let at' (n : Nat) : Nat := (ps.find? fun p => localSlot (screeId s c p) == n && genOf (screeId s c p) == (v.slot n).gen).getD 0
  (scanSlots { v with score := fun n => score (at' n) n } f need (ps.map (screeId s c)), ps.any (screePoisoned s c))

/-- SEARCH and SCREE_SCAN for one request at start ticket `t` (R287 to R294). -/
def searchWork (s : State) (r : Req) (p : Plan) (t : Ticket) (kinds : List Nat) : State × Req × Work :=
  match findColl s r.desc.coll, p.search? r.desc.coll with
  | some c, some k =>
    if c.version = 0 then (s, r, ⟨emptyOut r.ticket, some (rejected 6), false⟩)
    else
      let q := preparedQuery c r
      let sc := scorers s c q.1
      let f := filterOf p r.desc.tenant r.desc.coll
      let v := collView s c t c.overlay sc.1
      let walk := if kinds.contains 1 then walkPart s c v f k else (⟨0, 0, [], [], [], [], {}⟩, false)
      let scan := if kinds.contains 2 then scanPart s c v f k.refine sc.2.1 else (([], false), false)
      let m := mergeLists true k.refine [r.list, walk.1.kept, scan.1.1]
      let later := (r.agenda.drop 1).any fun g => g.any fun x => kindOf p x == 1 || kindOf p x == 2
      let short := f.isSome && !later && decide (m.1.length < k.refine)
      let s := countWalk walk.1.counts (countArith { sat := sc.2.2.sat, nan := sc.2.2.nan, flush := q.2 } (mergeCounted r m.2 s))
      let s := if short then { s with srch.filterShort := satInc s.srch.filterShort } else s
      let out : StepOut := { emptyOut r.ticket with list := m.1, nanSeen := walk.1.counts.nan || scan.1.2 || decide (0 < m.2.nan),
                                                    filterShort := short, indexVersion := c.version }
      let bad := walk.2 || scan.2 || codebookPoisoned s c
      match drawPages s r.desc.tenant 7 (Config.spillPages walk.1.visited.length) [] with
      | .ok ps => (s, { r with drawn := r.drawn ++ ps }, ⟨out, none, bad⟩)
      | .error d => (s, r, ⟨out, some { status := 7, detail := d }, bad⟩)
  | _, _ => (s, r, ⟨emptyOut r.ticket, some (rejected 6), false⟩)

/-- REFINE for one request (R301). -/
def refineWork (s : State) (r : Req) (p : Plan) (t : Ticket) : State × Req × Work :=
  match findColl s r.desc.coll, p.search? r.desc.coll with
  | some c, some k =>
    let q := preparedQuery c r
    let alive (e : Entry) : Bool :=
      let st := slotAt s c t (localSlot e.payload)
      st.isLive && st.gen == genOf e.payload
    let keep := r.list.filter alive
    let scored := keep.map fun e => (⟨exactScore c.par.metric q.1 (slotVector s c (localSlot e.payload)), e.payload⟩ : Entry)
    let good := scored.filter fun e => !f32IsNan e.score
    let s := countArith { flush := q.2 } { s with srch.candDeleted := satAdd s.srch.candDeleted (r.list.length - keep.length) }
    let bad := keep.any fun e => (objBytes s c.spec.vectors (c.vectorAt (localSlot e.payload)) c.vecLen).2
    (s, r, ⟨{ emptyOut r.ticket with list := (keyDesc good).take k.kKeep, nanSeen := good.length != scored.length,
                                     filterShort := r.filterShort, indexVersion := r.indexVersion }, none, bad⟩)
  | _, _ => (s, r, ⟨emptyOut r.ticket, some (rejected 6), false⟩)

/-- Special pieces of a pair (R336). -/
def pairSpecials (p : Plan) (k : RerankSpec) : List Nat × List Nat × List Nat :=
  let bos := ((p.lattice.bind (·.bosId)).toList)
  let eos := ((p.lattice.bind (·.eosId)).toList)
  (bos, (optId k.sepId).toList, eos)

/-- RERANK for one request at its fetch (R336, R337). -/
def rerankWork (s : State) (r : Req) (p : Plan) (t : Ticket) (model : Nat) : State × Req × Work :=
  match p.rerank? model with
  | none => (s, r, ⟨emptyOut r.ticket, none, false⟩)
  | some k =>
    let sp := pairSpecials p k
    let used := r.tokens.length + sp.1.length + sp.2.1.length + sp.2.2.length
    if k.pairMax ≤ used then (s, r, ⟨emptyOut r.ticket, some (rejected 0x20), false⟩)
    else
      let room := k.pairMax - used
      let got := fetchAll s r t (dedup (rerankIds r))
      let ok := readyOnes got
      let s := countFetch got { s with rrk.trunc := satAdd s.rrk.trunc (ok.filter fun x => decide (room < x.2.length)).length }
      let cut := ok.map fun x => (x.1, x.2.take room)
      let pairs := cut.map fun x => (x.1, sp.1 ++ r.tokens ++ sp.2.1 ++ x.2 ++ sp.2.2)
      (s, r, ⟨{ emptyOut r.ticket with passages := cut, pairs := pairs, tokens := pairs.flatMap (·.2),
                                       filterShort := r.filterShort, indexVersion := r.indexVersion }, none, false⟩)

/-- Tokens that a stage's model reads for one request (R234, R343, R354). -/
def stageTokens (s : State) (r : Req) (p : Plan) (kind : Nat) : List Nat :=
  match kind with
  | 0 => ((p.lattice.map fun l => encoderInput l r.tokens)).getD r.tokens
  | 5 => r.tokens.dropLast
  | 6 => match r.dec with
    | some d => [(d.emitted.getLast?).getD (((s.dec.caches.find? (·.handle == d.handle)).map (·.lastToken)).getD 0)]
    | none => []
  | _ => []

/-- The work of a whole step group for one request. -/
def groupWork (s : State) (r : Req) (p : Plan) (t : Ticket) (g : List Nat) : State × Req × Work :=
  let kinds := g.map (kindOf p)
  if kinds.contains 1 || kinds.contains 2 then searchWork s r p t kinds
  else if kinds.contains 3 then refineWork s r p t
  else if kinds.contains 4 then
    rerankWork s r p t (((g.find? fun x => kindOf p x == 4).bind p.stage?).map (·.model) |>.getD 0xFFFF)
  else (s, r, ⟨{ emptyOut r.ticket with tokens := g.flatMap fun x => stageTokens s r p (kindOf p x), list := r.list,
                                        filterShort := r.filterShort, indexVersion := r.indexVersion }, none, false⟩)

/-! ### Gathers of a step (R257 to R264) -/

/-- The table that a group's models read. -/
def groupTable (p : Plan) (g : List Nat) : Option TableSpec :=
  g.findSome? fun x => (p.stage? x).bind fun st => modelTable p st.model

/-- What a request's indices do to it before any is read (R257). -/
def indexReject (t : Table) (w : Work) : Option (Outcome × Bool) :=
  if w.out.tokens.isEmpty then none
  else if t.version = 0 then some (rejected 0x28, false)
  else if w.out.tokens.any fun i => i != padIndex && decide (t.spec.rows ≤ i) then some (rejected 0x20, true)
  else none

/-- Rows of a table on this device for a step's batch (R255, R256, R258). -/
def localGather (t : Table) (idx : List Nat) (s : State) : State × List (Nat × Nat × List W32) × Bool :=
  let rows := (dedup (idx.filter (· != padIndex))).map fun i => (i, decodeRow s t.spec t.version i)
  let bad := (idx.filter fun i => rows.any fun x => x.1 == i && x.2.bad).length
  let s := { s with gth.dirBad := satAdd s.gth.dirBad bad,
                    gth.fetchSaved := satAdd s.gth.fetchSaved (fetchSaved t.spec t.spec.sliceWidth idx) }
  (s, rows.map fun x => (t.spec.table, x.1, x.2.elems), rows.any fun x => x.2.poisoned)

/-- Ask every member that may hold a slice for the first pass of a remote gather (R263). -/
def sendGather (g : Gather) (r : Req) (s : State) : State :=
  match g.passes with
  | [] => s
  | p :: _ => g.members.foldl (fun s n => send n 0 g.ticket (.gatherReq g.table g.version (hardLeft s r) p) s) s

/-- Members that hold a slice of a table: those that reported one, or, where the set came by no domain swap, any. -/
def sliceHolders (s : State) (table : Nat) : List Node :=
  if s.cfg.slices.isEmpty then ((ownMembers s).filter (·.state == .up)).map (·.node)
  else (s.cfg.slices.filter fun x => x.2.any (·.table == table)).map (·.1)

/-- Start a remote gather for a step (R263). -/
def remoteGather (t : Table) (r : Req) (step : Ticket) (idx : List Nat) (s : State) : State :=
  let ps := batchPasses t.spec t.spec.dims idx
  let ms := sliceHolders s t.spec.table
  let s := { s with gth.fetchSaved := satAdd s.gth.fetchSaved (fetchSaved t.spec t.spec.dims idx) }
  if ps.isEmpty then s
  else
    let g : Gather := ⟨r.mgr, step, t.spec.table, t.version, ps, ms, []⟩
    sendGather g r { s with gth.gathers := s.gth.gathers ++ [g] }

/-! ### STEP_START -/

/-- The works of a batch, in ticket order. -/
def batchWorks (p : Plan) (t : Ticket) (g : List Nat) (rs : List Req) (s : State) : State × List (Req × Work) :=
  rs.foldl (fun x r => let w := groupWork x.1 r p t g; (w.1, x.2 ++ [(w.2.1, w.2.2)])) (s, [])

/-- Works of a batch after the table's index checks; a request that its own work ends keeps its outcome. -/
def checkIndices (table : Option Table) (ws : List (Req × Work)) (s : State) : State × List (Req × Work) :=
  match table with
  | none => (s, ws)
  | some t => ws.foldl (fun x w =>
    match w.2.reject, indexReject t w.2 with
    | none, some (o, range) =>
      (if range then { x.1 with gth.idxRange := satInc x.1.gth.idxRange } else x.1, x.2 ++ [(w.1, { w.2 with reject := some o })])
    | _, _ => (x.1, x.2 ++ [w])) (s, [])

/-- A step begins with start ticket `t` (R104, R105): it pins what it reads, and requests that cannot run end. -/
def beginStep (epoch : Nat) (g : List Nat) (rs : List Req) (p : Plan) (t : Ticket) (s : State) : State :=
  let w := batchWorks p t g rs s
  let spec := groupTable p g
  let table := spec.bind fun x => findTable w.1 x.table
  let c := checkIndices table w.2 w.1
  let good := c.2.filter (·.2.reject.isNone)
  let s := c.1
  let idx := good.flatMap (·.2.out.tokens)
  let got : State × List (Nat × Nat × List W32) × Bool := match table, good.head? with
    | some tb, some f => if tb.spec.remote then (remoteGather tb f.1 t idx s, [], false) else localGather tb idx s
    | _, _ => (s, [], false)
  let s := got.1
  let counts := match table with
    | some tb => if tb.spec.remote then [] else good.flatMap fun x => x.2.out.tokens.map fun i => (tb.spec.table, i, x.1.ticket)
    | none => []
  let colls := dedup (good.filterMap fun x => if x.2.out.indexVersion = 0 then none else some (x.1.desc.coll, x.2.out.indexVersion))
  let step : Step := { stages := g, epoch := epoch, start := t, began := s.now, batch := good.map (·.1.ticket),
                       outs := good.map (·.2.out), dropped := [], pins := colls,
                       tablePins := table.toList.map fun tb => (tb.spec.table, tb.version), rows := got.2.1, counts := counts }
  let s := good.foldl (fun s x => setReq { x.1 with place := .running, begun := true } s) s
  let s := if good.isEmpty then s else { s with job.steps := s.job.steps ++ [step] }
  let s := (c.2.filter (·.2.reject.isSome)).foldl (fun s x => finish x.1 (x.2.reject.getD {status := 5}) s) s
  if got.2.2 || good.any fun x => x.2.poisoned then jobFault 1 s else s

/-- Steps issue: the device serves a job and its Benches are out of their deep states (R104, R532). -/
def stepsRun (s : State) : Bool := (s.job.phase == 1 || s.job.phase == 2) && decide (s.pwr.state < 2)

/-- STEP_START (R104, R105). -/
def execStepStart (stage : Nat) (s : State) : Host.Outcome State Fault Refusal :=
  .next (whenServing s fun s =>
    if !stepsRun s || s.job.steps.any (fun p => p.stages.contains stage) then s
    else
      let x := formBatch stage s
      match x.2.lead with
      | none => x.1
      | some l => match planSet x.1 l.1 with
        | some q => stamped x.1 fun s t => beginStep l.1 l.2.1 x.2.batch q.plan t s
        | none => x.1)

/-- ISSUE_BOUNDARY: the sequencer reads the mask (R106, R119). -/
def execIssueBoundary (bench : Nat) (s : State) : Host.Outcome State Fault Refusal :=
  .next (whenServing s fun s =>
    let mark (p : Step) : Step :=
      if (issueOf s p.epoch p.stages).contains bench then
        { p with dropped := dedup (p.dropped ++ p.batch.filter fun t => (findReq s t).isNone) }
      else p
    { s with job.steps := s.job.steps.map mark })

/-- STEP_WATCHDOG (R123). -/
def execStepWatchdog (stage : Nat) (s : State) : Host.Outcome State Fault Refusal :=
  .next (whenServing s fun s =>
    if s.job.steps.any fun p => p.stages.contains stage && past s (p.began + 1) 50000000 then jobFault 4 s else s)

/-- QUEUE_SLOT_FREE: held requests enter the queue in ticket order while it has room (R31). -/
def execQueueSlotFree (stage : Nat) (s : State) : Host.Outcome State Fault Refusal :=
  .next (whenServing s fun s =>
    let held := sortBy (fun a b => ticketLe a.ticket b.ticket)
      (s.job.reqs.filter fun r => r.place == .held && (r.agenda.headD []).contains stage)
    held.foldl (fun s r => match r.plan s with
      | some p => if groupRoom s p (r.agenda.headD []) then setReq { r with place := .queue } s else s
      | none => s) s)

/-! ### STEP_END -/

/-- The encoder's vector as BF16 values (R30 step 3, R181), with what the conversions count. -/
def encode (m : Model) (input : List Nat) : List W32 × ConvCount :=
  let qs := (List.range m.hidden).map fun i => convFloat fmtBF16 (f32 (Config.embedElem m.ref m.digest input i))
  (qs.map fun q => widen32 fmtBF16 q.1, (qs.map (·.2)).foldl ConvCount.add {})

/-- A GENERIC stage's program on every element of a request's vector, with results flushed (R49, R206). -/
def genericVector (p : Plan) (st : Stage) (xs : List W32) : List W32 × Nat :=
  match p.prog? st.microprog with
  | none => (xs, 0)
  | some g =>
    let ys := xs.map (sfuApply g.outFormat (.prog g))
    (ys.map (·.1), (ys.map (·.2)).sum)

/-- Scores of a rerank step (R338): NaNs are removed and counted. -/
def scorePairs (m : Model) (rows : List (Nat × Nat × List W32)) (table : Option TableSpec) (o : StepOut) : List Entry :=
  o.pairs.map fun x => ⟨Config.pairScore m.ref m.digest (modelInput rows table x.2), x.1⟩

/-- One stage's part of what a step delivers to a request that goes on. -/
def stageDeliver (p : Plan) (k : Step) (o : StepOut) (stage : Nat) (x : Req × State) : Req × State :=
  let r := x.1
  let s := x.2
  match p.stage? stage with
  | none => x
  | some st =>
    match st.kind, p.model? st.model with
    | 0, some m =>
      let v := encode m (modelInput k.rows (modelTable p st.model) o.tokens)
      ({ r with vector := v.1 }, countArith { sat := v.2.sat, nan := v.2.nan } s)
    | 1, _ | 2, _ | 3, _ =>
      ({ r with list := o.list, nanSeen := r.nanSeen || o.nanSeen, filterShort := o.filterShort,
                indexVersion := o.indexVersion, holds := dedup (r.holds ++ [(r.desc.coll, o.indexVersion)]) }, s)
    | 4, some m =>
      let es := scorePairs m k.rows (modelTable p st.model) o
      let good := es.filter fun e => !f32IsNan e.score
      ({ r with list := keyDesc good, passages := o.passages, reranked := true,
                nanSeen := r.nanSeen || good.length != es.length },
       { s with rrk.pairs := satAdd s.rrk.pairs es.length, scr.nanDropped := satAdd s.scr.nanDropped (es.length - good.length) })
    | 7, _ =>
      let v := genericVector p st r.vector
      ({ r with vector := v.1 }, countArith { flush := v.2 } s)
    | _, _ => x

/-- A step's end for one request of its batch. -/
def deliver (p : Plan) (k : Step) (o : StepOut) (s : State) : State :=
  match findReq s o.ticket with
  | none => s
  | some r =>
    if k.dropped.contains o.ticket || r.place != .running then s
    else
      let kinds := k.stages.map (kindOf p)
      match genOfPlan p with
      | some (m, g) =>
        if kinds.contains 5 then prefillEnd m (modelInput k.rows (modelTable p m.ref) o.tokens) r s
        else if kinds.contains 6 then
          emitToken p m g (rowsOf k (modelTable p m.ref) o.tokens) r s
        else onward r s
      | none => onward r s
where
  /-- Rows of the tokens a decode step reads. -/
  rowsOf (k : Step) (table : Option TableSpec) (toks : List Nat) : List Nat := (modelInput k.rows table toks).drop toks.length
  /-- Go on to the next group. -/
  onward (r : Req) (s : State) : State :=
    let x := k.stages.foldl (fun x n => stageDeliver p k o n x) (r, s)
    advance phases { x.1 with agenda := x.1.agenda.drop 1, place := .held } x.2

/-- Counters of a step's positions whose requests are not masked (R261). -/
def stepCounts (k : Step) (s : State) : State :=
  let live := k.counts.filter fun c => (findReq s c.2.2).isSome && !k.dropped.contains c.2.2
  k.tablePins.foldl (fun s tp => match findTable s tp.1 with
    | some t => addCounts t.spec tp.2 ((live.filter (·.1 == tp.1)).map (·.2.1)) s
    | none => s) s

/-- A remote gather still holds a step that has a request left (R264). -/
def gatherPending (s : State) (k : Step) : Bool :=
  s.gth.gathers.any (fun g => g.step == k.start) && k.batch.any fun t => (findReq s t).isSome && !k.dropped.contains t

/-- STEP_END (R104, R119). -/
def execStepEnd (stage : Nat) (s : State) : Host.Outcome State Fault Refusal :=
  .next (whenServing s fun s =>
    match s.job.steps.find? fun p => p.stages.contains stage with
    | none => s
    | some k =>
      if gatherPending s k then s
      else
        let s := { s with job.steps := s.job.steps.filter (·.start != k.start),
                          gth.gathers := s.gth.gathers.filter (·.step != k.start) }
        match planSet s k.epoch with
        | none => s
        | some q => stamped s fun s _ => retirePubs (k.outs.foldl (fun s o => deliver q.plan k o s) (stepCounts k s)))

end Sys2Proof.Machine
end

