-- ==== Sys2Proof/Machine/Assay.lean ====
section
/-! DEFINITION. Tiles: the Assay's verdict, accumulation and post-processing, retries, spares and fences (08 R193,
R198 to R201; 20 R541). -/

namespace Sys2Proof.Machine

def setBench (b : Nat) (x : Bench) (s : State) : State := { s with flt.benches := s.flt.benches.set b x }

/-- Address of a word in the accumulator files, as cells: nine physical Slabs of 65,536 words to a Bench (R185). -/
def accAddr (bench phys word : Nat) : Nat := ((bench * 9 + phys) * 65536 + word) * 4

/-- Bytes of a Bench store (R185). -/
def storeBytes : Nat := 6291456

/-! ### Fences (R201) -/

/-- Replace a fenced Bench in a binding with the lowest reserved Bench that it does not issue to; none where there is
none. -/
def rebind (fenced : List Nat) (bench : Nat) (b : Binding) : Option Binding :=
  if b.issue.contains bench then
    let free := (sortBy (fun x y => decide (x ≤ y)) b.reserved).find? fun x => !b.issue.contains x && !fenced.contains x
    free.map fun x => { b with issue := b.issue.map fun y => if y = bench then x else y }
  else some b

/-- A plan set after a fence, and whether every stage keeps the Benches it needs. -/
def rebindSet (fenced : List Nat) (bench : Nat) (p : PlanSet) : PlanSet × Bool :=
  let bs := p.binding.map fun b => (b, rebind fenced bench b)
  ({ p with binding := bs.map fun x => x.2.getD x.1 }, bs.all (·.2.isSome))

/-- The stage that a Bench works for, for the record of its fence (R506). -/
def stageOfBench (s : State) (bench : Nat) : Nat :=
  (((s.cfg.active.toList ++ s.cfg.retiring.toList).flatMap (·.binding)).find? fun b => b.reserved.contains bench).map (·.stage)
    |>.getD 0xFFFF

/-- A step whose Bench is fenced runs again for its unmasked requests, with its start ticket and pins. -/
def repeatStep (s : State) (p : Step) : Step :=
  let live (t : Ticket) : Bool := (findReq s t).isSome && !p.dropped.contains t
  { p with began := s.now, batch := p.batch.filter live, outs := p.outs.filter fun o => live o.ticket, dropped := [] }

/-- Fence a Bench: its record, its steps' repetition, its replacement, or the job fault (R201, R123). -/
def fenceBench (bench : Nat) (attempts : Nat) (s : State) : State :=
  let b := s.flt.benches.getD bench {}
  if b.fenced then s
  else
    let hit (p : Step) : Bool := (issueOf s p.epoch p.stages).contains bench
    let stage := stageOfBench s bench
    let s := { s with job.steps := s.job.steps.map fun (p : Step) => if hit p then repeatStep s p else p,
                      flt.retrying := s.flt.retrying.filter (·.1 != bench),
                      flt.benchFenced := satInc s.flt.benchFenced }
    let s := setBench bench { b with fenced := true } s
    let fs := fencedBenches s
    let a := s.cfg.active.map (rebindSet fs bench)
    let r := s.cfg.retiring.map (rebindSet fs bench)
    let ok := (a.map (·.2)).getD true && (r.map (·.2)).getD true
    let s := { s with cfg.active := a.map (·.1), cfg.retiring := r.map (·.1) }
    let s := loadFenced s
    stamped s fun s t =>
      let s := event t 0x03 (benchLoc bench 0xFFFF) stage attempts 3 0 [] s
      if ok then s else jobFault 2 s

/-! ### Tiles -/

/-- The accumulator word of an output element before this tile (R169, R193). -/
def accBefore (s : State) (bench phys : Nat) (t : Tile) (r c : Nat) : W32 :=
  if t.first then 0 else BitVec.ofNat 32 (leNat (cellsGet unwritten s.flt.accs (accAddr bench phys (t.accWord r c)) 4))

/-- Every output element of a tile, row by row. -/
def Tile.elements (t : Tile) : List (Nat × Nat) :=
  (List.range t.actRows.length).flatMap fun r => (List.range t.cols.length).map fun c => (r, c)

/-- Commit a tile (R168, R171, R174, R200): its accumulators, and, where it finishes its outputs, post-processing into
the Bench store. -/
def commitTile (bench phys : Nat) (t : Tile) (s : State) : State :=
  let vs := t.elements.map fun x => (x, accRun t.native32 (accBefore s bench phys t x.1 x.2) (t.sums x.1 x.2))
  let accs := vs.foldl (fun cs v => cellsPut unwritten (accAddr bench phys (t.accWord v.1.1 v.1.2)) (toLe 4 v.2.1.toNat) cs) s.flt.accs
  let s := { s with flt.accs := accs, job.intAccSat := satAdd s.job.intAccSat (vs.filter (·.2.2)).length }
  match t.post with
  | none => s
  | some p =>
    let value (r c : Nat) : W32 := ((vs.find? fun v => v.1 == (r, c)).map (·.2.1)).getD 0
    let o := t.post' p value
    let base := bench * storeBytes
    let fit := o.1.take (storeBytes - t.storeAt)
    countArith o.2 { s with flt.store := if t.storeAt < storeBytes then cellsPut unwritten (base + t.storeAt) fit s.flt.store else s.flt.store }

/-- Steps 4 to 6 of R200: the physical Slab is retired, and the spare takes its place, or the Bench is fenced. -/
def retireSlab (bench slab phys : Nat) (t : Tile) (s : State) : State :=
  let b := s.flt.benches.getD bench {}
  let spare := !b.logical.contains 8 && !b.retired.getLsbD 8
  let b := { b with retired := b.retired ||| BitVec.ofNat 9 (2 ^ phys), logical := if spare then b.logical.set slab 8 else b.logical }
  let s := setBench bench b { s with flt.slabRetired := satInc s.flt.slabRetired,
                                     flt.retrying := s.flt.retrying.filter fun x => x != (bench, slab, t.ticket) }
  stamped s fun s k =>
    let s := event k 0x02 (benchLoc bench phys) 0 2 (if spare then 2 else 3) t.ticket [] s
    if spare then s else fenceBench bench 2 s

/-- A tile's end on a Slab in logical position `slab` (R199, R200). -/
def tileDone (bench slab : Nat) (t : Tile) (s : State) : State :=
  let b := s.flt.benches.getD bench {}
  let phys := b.logical.getD slab 0
  let key := (bench, slab, t.ticket)
  let again := s.flt.retrying.contains key
  if b.fenced then s
  else if t.skipped then
    commitTile bench phys t { s with flt.assaySkip := satInc s.flt.assaySkip, flt.retrying := s.flt.retrying.filter (· != key) }
  else if t.passes then
    let s := commitTile bench phys t { s with flt.retrying := s.flt.retrying.filter (· != key) }
    if again then
      stamped { s with flt.assayTransient := satInc s.flt.assayTransient } fun s k => event k 0x01 (benchLoc bench phys) 0 2 1 t.ticket [] s
    else s
  else if again then retireSlab bench slab phys t s
  else { s with flt.retrying := s.flt.retrying ++ [key] }

/-- TILE_COMPLETE (R199, R200). -/
def execTileComplete (bench slab : Nat) (tile : Tile) (s : State) : Host.Outcome State Fault Refusal :=
  .next (whenServing s fun s => if bench < 96 && slab < 8 then tileDone bench slab tile s else s)

/-- INTEGRATED_VOLTAGE_REGULATOR_FAULT (R541). -/
def execIntegratedVoltageRegulatorFault (bench : Nat) (s : State) : Host.Outcome State Fault Refusal :=
  .next (whenServing s fun s => if bench < 96 then fenceBench bench 1 s else s)

end Sys2Proof.Machine
end

