-- ==== Sys2Proof/Machine/Intake.lean ====
section
/-! DEFINITION. Submissions, the range check, acceptance and the mirror, completions, release and fetch (05 R107 to R114;
06 R138 to R160; 17 R449 to R451; 18 R475 to R477). -/

namespace Sys2Proof.Machine

/-! ### The range check (R107 to R109, R114) -/

/-- A number as an FP32 bound. -/
def f32Within (lo hi x : W32) : Bool := !f32IsNan x && f32Le lo x && f32Le x hi

/-- Element sizes a collection's vectors may have on this device (R108). -/
def vecSizes (p : Plan) (coll : Nat) : List Nat :=
  match p.coll? coll with
  | some c => [elemBytes c.vecFormat]
  | none => [2, 4]

/-- Budgets of a descriptor, the policy's where it gives none (R114). -/
def budgets (p : Plan) (d : Desc) : Nat × Nat :=
  let pol := p.policy? d.policy
  (if d.softUs = 0 then (pol.map (·.softUs)).getD 0 else d.softUs, if d.hardUs = 0 then (pol.map (·.hardUs)).getD 0 else d.hardUs)

/-- An INSERT payload: a vector and a whole passage record (R405). -/
def insertOk (s : State) (p : Plan) (d : Desc) (payload : List Byte) : Bool :=
  let dims := ((p.search? d.coll).map (·.dims)).getD 0
  (vecSizes p d.coll).any fun e => recordOk (payload.drop (dims * e)) p.vocab.length (blockBytes s)

/-- The payload agrees with its type (R108, R236, R342). -/
def payloadOk (s : State) (p : Plan) (d : Desc) (payload : List Byte) : Bool :=
  let n := d.payloadLen
  n == payload.length &&
  match d.type with
  | 0 | 1 => decide (1 ≤ n) && decide (n ≤ 65536)
  | 2 => (vecSizes p d.coll).any fun e => n == ((p.search? d.coll).map (·.dims)).getD 0 * e
  | 3 => decide (13 ≤ n) && decide (n ≤ 1048576) && decide (1 ≤ u32 payload d.textLen) &&
      n == d.textLen + 4 + 8 * u32 payload d.textLen
  | 4 => decide (12 ≤ n) && decide (n ≤ 1048576) && n == 4 + 8 * u32 payload 0
  | 5 => decide (4 ≤ n) && decide (n ≤ 1048576) && n % 4 == 0 && (tokensOf payload).all (· < p.vocab.length) &&
      match genOfPlan p with
      | some (_, g) => decide (n / 4 < g.ctxMax)
      | none => true
  | 7 => decide (1 ≤ n) && decide (n ≤ 1048576) && insertOk s p d payload
  | _ => n == 0

/-- The fields of R107 in ascending offset, each with whether it is in range. -/
def fieldChecks (s : State) (p : Plan) (d : Desc) : List (Nat × Bool) :=
  let ty := d.type
  let only (ok : Bool) (off len : Nat) (here : Bool) : Nat × Bool := (off, if here then ok else zeroAt d off len)
  let isDec := ty == 6
  let tmpl := ty == 0 || ty == 4
  let b := budgets p d
  let usesColl := ty == 0 || ty == 2 || ty == 7 || ty == 8 || ty == 9
  let ctx := (genOfPlan p).map fun g => g.2.ctxMax
  [(0x00, decide (ty ≤ 10)),
   (0x01, bitsOf (u8 d 1) 2 6 == 0 && (isDec || !d.streams)),
   (0x02, (p.policy? d.policy).isSome),
   only (p.template? d.template).isSome 0x03 1 tmpl,
   (0x04, decide (d.tenant ≤ 1023)),
   (0x06, if usesColl then (p.search? d.coll).isSome else d.coll == 0xFFFF),
   (0x08, bitsOf (u64 d 8) 48 16 == 0),
   (0x10, decide (b.1 < b.2) && decide (b.2 ≤ 10000000)),
   only (if ty = 3 then decide (d.k ≤ 4096) else decide (d.k ≤ ((p.search? d.coll).map (·.kKeep)).getD 0)) 0x18 2
     (ty == 0 || ty == 2 || ty == 3),
   only (if isDec then decide (1 ≤ d.budget)
         else decide (d.budget ≤ ((p.template? d.template).map (·.budgetDefault)).getD 0) &&
           (ty != 0 || decide (d.budget < ctx.getD 0x10000))) 0x1A 2 (tmpl || isDec),
   only (d.stopSet == 0xFF || (p.stopSet? d.stopSet).isSome) 0x1C 1 isDec,
   only (d.grammar == 0xFF || (p.grammar? d.grammar).isSome) 0x1D 1 isDec,
   (0x1E, zeroAt d 0x1E 2),
   only (decide (1 ≤ d.textLen) && decide (d.textLen ≤ 1048564)) 0x24 4 (ty == 3),
   only (ty != 10 || (decide (d.object < 2 ^ 32) && (findTable s d.object).isSome)) 0x28 8 (isDec || ty == 8 || ty == 10),
   only true 0x30 8 isDec,
   (0x38, zeroAt d 0x38 8),
   only (f32Within 0 0x41800000 (w32At d 0x40)) 0x40 4 isDec,
   only (f32Within 0 f32One (w32At d 0x44) && f32Lt 0 (w32At d 0x44)) 0x44 4 isDec,
   only (decide (u8 d 0x48 ≤ 64)) 0x48 1 isDec,
   (0x49, zeroAt d 0x49 3),
   only (f32Within f32One 0x41000000 (w32At d 0x4C)) 0x4C 4 isDec,
   only (f32Within 0xC0800000 0x40800000 (w32At d 0x50)) 0x50 4 isDec,
   only (f32Within 0xC0800000 0x40800000 (w32At d 0x54)) 0x54 4 isDec,
   (0x58, zeroAt d 0x58 8),
   (0x68, zeroAt d 0x68 24)]

/-- The `detail` of the first failure of R109, none where the descriptor is in range. -/
def rangeCheck (s : State) (p : Plan) (d : Desc) (payload : List Byte) : Option Nat :=
  match (fieldChecks s p d).find? fun c => !c.2 with
  | some c => some c.1
  | none =>
    if !payloadOk s p d payload then some 0x20
    else if d.type < 7 && d.type != 4 && (p.route? d.type).isNone then some 0
    else none

/-! ### Acceptance (R138 to R142) -/

/-- The epoch under which a request stamped now runs: the next one once a swap ticket is stamped (R80). -/
def intakeEpoch (s : State) : Nat :=
  if s.cfg.swap.isSome || ((s.cfg.domSwap.bind (·.point)).isSome) then (s.cfg.setEpoch.toNat + 1) % 65536 else s.cfg.setEpoch.toNat

/-- The plan of that epoch. -/
def intakePlan (s : State) : Option Plan :=
  if s.cfg.swap.isSome || ((s.cfg.domSwap.bind (·.point)).isSome) then s.cfg.shadow.map (·.plan) else activePlan s

/-- A fresh request. -/
def newReq (t : Ticket) (boss : Option Node) (mgr : Ticket) (shard : Nat) (d : Desc) (payload : List Byte) (epoch start soft hard : Nat)
    (place : Place) : Req :=
  { ticket := t, mgr := mgr, boss := boss, shard := shard, desc := d, payload := payload, epoch := epoch, start := start,
    soft := soft, hard := hard, softPassed := false, hardPassed := false, begun := false, phase := 0, place := place,
    agenda := [], tokens := [], vector := [], list := [], merged := [], passages := [], placed := [], packed := [],
    answers := [], waitFor := [], degraded := 0, filterShort := false, nanSeen := false, indexVersion := 0, holds := [],
    drawn := [], dec := none, decodeNode := 0, sent := false, owed := false, heldForReplica := false, reranked := false,
    ending := 0, again := false }

/-- Requests accepted here and not yet in their first stage (R111, R128). -/
def intakeQueued (s : State) : Nat := (s.job.reqs.filter fun r => r.boss.isNone && !r.begun).length

def highSeq (s : State) (stream : Nat) : Option Nat := (s.wb.streams.find? (·.1 == stream)).map (·.2)

/-- Accept a stamped descriptor: journal it and wait for the mirror, or go on at once (R140). -/
def accept (src : Node) (txn : W16) (t : Ticket) (d : Desc) (payload : List Byte) (reject : Option Nat) (s : State) : State :=
  let b := ((intakePlan s).map fun p => budgets p d).getD (0, 0)
  let j := journal 1 t d.tag (d ++ payload) s
  let r := newReq t none t 0 d payload (intakeEpoch s) s.now b.1 b.2 (.acceptance j.2 src txn reject)
  let s := addReq r j.1
  if mirrored s then s else acceptDone r s

/-- Intake of a whole submission at its ticket (R139). -/
def intake (src : Node) (txn : W16) (d : Desc) (payload : List Byte) (t : Ticket) (s : State) : State :=
  let refuse (o : Nat) (s : State) : State := send src txn 0 (.intakeAck d.tag o) s
  match s.wb.held.find? (·.1 == d.tag) with
  | some h => send src txn h.2 (.intakeAck d.tag 1) { s with wb.dupSubmit := satInc s.wb.dupSubmit }
  | none =>
    if s.dom.superseded then s
    else if !accepts s || s.job.phase != 1 || s.wb.seqWarn then refuse 3 s
    else if decide (65536 ≤ intakeQueued s) || decide (4194304 ≤ s.wb.held.length) || journalFull s then
      refuse 2 { s with dlm.intakeFull := satInc s.dlm.intakeFull }
    else
      match highSeq s d.stream with
      | some h =>
        if d.seq ≤ h then accept src txn t d payload (some 8) { s with wb.orderReject := satInc s.wb.orderReject }
        else row5 s
      | none => row5 s
where
  row5 (s : State) : State :=
    let s' := { s with wb.streams := upsert (·.1 == d.stream) (d.stream, d.seq) s.wb.streams }
    accept src txn t d payload ((intakePlan s).bind fun p => rangeCheck s p d payload) s'

/-- Stamp a whole submission (R449). -/
def stampSubmission (src : Node) (txn : W16) (d : Desc) (payload : List Byte) (s : State) : State :=
  stamped s fun s t => if s.wb.seqStop then s else intake src txn d payload t s

def badTxn (s : State) : State := { s with lnk.badTxn := satInc s.lnk.badTxn }

def findSub (s : State) (src : Node) (txn : W16) : Option Sub := s.wb.subs.find? fun x => x.src == src && x.txn == txn

def dropSub (src : Node) (txn : W16) (s : State) : State :=
  { s with wb.subs := s.wb.subs.filter fun x => !(x.src == src && x.txn == txn) }

/-- SUBMIT (R449). -/
def execSubmit (src : Node) (txn : W16) (desc data : List Byte) (s : State) : Host.Outcome State Fault Refusal :=
  .next (whenServing s fun s =>
    let n := Desc.payloadLen desc
    if desc.length != 128 then badTxn s
    else if 1048576 < n then stampSubmission src txn desc data s
    else if data.length != min n 65536 then badTxn s
    else if data.length = n then stampSubmission src txn desc data s
    else if (findSub s src txn).isSome then s
    else if decide (1024 ≤ s.wb.subs.length) || decide (128 * mib < (s.wb.subs.map (·.data.length)).sum + data.length) then
      { s with lnk.reasmDrop := satInc s.lnk.reasmDrop }
    else { s with wb.subs := s.wb.subs ++ [⟨src, txn, desc, data, s.now⟩] })

/-- CONT (R449, R454). -/
def execCont (src : Node) (txn : W16) (off : Nat) (data : List Byte) (s : State) : Host.Outcome State Fault Refusal :=
  .next (whenServing s fun s =>
    match findSub s src txn with
    | none => badTxn s
    | some x =>
      if off + data.length ≤ x.data.length && off % 65536 == 0 then s
      else if off != x.data.length || data.length != min (x.desc.payloadLen - off) 65536 then badTxn (dropSub src txn s)
      else
        let all := x.data ++ data
        if all.length = x.desc.payloadLen then stampSubmission src txn x.desc all (dropSub src txn s)
        else { s with wb.subs := s.wb.subs.map fun y => if y.src = src && y.txn = txn then { y with data := all, last := s.now } else y })

/-- SUBMISSION_TIMEOUT (R449). -/
def execSubmissionTimeout (src : Node) (txn : W16) (s : State) : Host.Outcome State Fault Refusal :=
  .next (whenServing s fun s => match findSub s src txn with
    | some x => if past s x.last 1000000 then { dropSub src txn s with lnk.subIncomplete := satInc s.lnk.subIncomplete } else s
    | none => s)

/-! ### The journal and its mirror -/

/-- Reclaim the entries of released tickets (R143); an INTAKE entry stays while a replica is owed it (R477). -/
def reclaim (s : State) : State :=
  let released (t : Ticket) : Bool := s.wb.journal.any fun e => e.kind == 3 && e.ticket == t
  let owed (t : Ticket) : Bool := s.dom.owed.any (·.1 == t)
  { s with wb.journal := s.wb.journal.filter fun e =>
      if e.kind = 1 || e.kind = 2 || e.kind = 3 then !released e.ticket || (owed e.ticket && e.kind != 2) else true }

/-- What an entry changes on the mirror beside its journal: `high_seq` and the held set (R138, R149). -/
def mirrorTrack (e : JEntry) (s : State) : State :=
  match e.kind with
  | 1 =>
    let hi := max (tagSeq e.tag) ((highSeq s (tagStream e.tag)).getD 0)
    { s with wb.streams := upsert (·.1 == tagStream e.tag) (tagStream e.tag, hi) s.wb.streams,
             wb.held := upsert (·.1 == e.tag) (e.tag, e.ticket) s.wb.held }
  | 3 => { s with wb.held := s.wb.held.filter (·.2 != e.ticket) }
  | 5 => { s with wb.streams := s.wb.streams.filter (·.1 != tagStream e.tag) }
  | _ => s

/-- MIRROR_ENTRY (R140 step 3, R475). -/
def execMirrorEntry (src : Node) (mgrEpoch : W32) (e : JEntry) (s : State) : Host.Outcome State Fault Refusal :=
  .next (whenServing s fun s => stamped s fun s _ =>
    if isManager s then
      if mgrEpoch.ult s.dom.mgrEpoch then send src 0 e.ticket (.mirrorAck e.pos true) s else s
    else if role s = 1 then
      let s := if s.wb.journal.any (·.pos == e.pos) then s
        else reclaim (mirrorTrack e { s with wb.journal := s.wb.journal ++ [e], wb.journalPos := e.pos + 1, wb.tail := s.wb.tail + entryLen e })
      send src 0 e.ticket (.mirrorAck e.pos false) s
    else s)

/-- Step 3 of R140 has succeeded, or is no longer waited for, for the entry at a position: what waited for it goes on. -/
def entryDone (pos : W64) (s : State) : State :=
  let s := (s.job.reqs.filter fun r => match r.place with
    | .acceptance p _ _ _ => p == pos
    | _ => false).foldl (fun s r => acceptDone r s) s
  let s := match s.gth.pubs.find? (·.pos == some pos) with
    | some b => publishSend b s
    | none => s
  match s.cfg.domSwap with
  | some d => match d.point with
    | some (t, p) => if p = pos then domCommitSend d t s else s
    | none => s
  | none => s

/-- The mirror holds the entry at a position; with none left to wait for, the copy is whole (R142, R476). -/
def mirrorHolds (pos : W64) (s : State) : State :=
  let left := s.wb.mirrorWait.filter (·.1 != pos)
  if left.isEmpty then { s with wb.mirrorWait := left, wb.mirrorOk := true, wb.solo := false } else { s with wb.mirrorWait := left }

/-- MIRROR_ACK (R140, R142, R475, R476). -/
def execMirrorAck (src : Node) (pos : W64) (superseded : Bool) (s : State) : Host.Outcome State Fault Refusal :=
  .next (whenServing s fun s => stamped s fun s _ =>
    if !isManager s || s.dom.mirrorNode != some src then s
    else if superseded then { s with dom.superseded := true }
    else if s.wb.mirrorWait.any (·.1 == pos) then entryDone pos (mirrorHolds pos s)
    else s)

/-- The manager goes on alone (R142). -/
def goSolo (s : State) : State :=
  let waits := s.wb.mirrorWait.map (·.1)
  let s := { s with wb.solo := true, wb.mirrorOk := false, wb.mirrorWait := [] }
  let s := stamped s fun s t => event t 0x53 devLoc 0 2 0 0 [] s
  waits.foldl (fun s p => entryDone p s) s

/-- MIRROR_ACK_TIMEOUT (R140 step 3, R142). -/
def execMirrorAckTimeout (pos : W64) (s : State) : Host.Outcome State Fault Refusal :=
  .next (whenServing s fun s => match s.wb.mirrorWait.find? (·.1 == pos) with
    | some (_, since, retried) =>
      if !past s since 100000 || !isManager s || s.dom.superseded then s
      else if retried then (if s.wb.solo then { s with wb.mirrorWait := [] } else goSolo s)
      else
        let s := { s with wb.mirrorWait := s.wb.mirrorWait.map fun (x : W64 × Nat × Bool) => if x.1 = pos then (pos, s.now, true) else x }
        match s.dom.mirrorNode, s.wb.journal.find? (fun (e : JEntry) => e.pos == pos) with
        | some n, some e => send n 0 e.ticket (.mirrorEntry e) s
        | _, _ => s
    | none => s)

/-- A mirror joins or returns: the live journal is copied to it (R476). -/
def mirrorJoin (n : Node) (s : State) : State :=
  let s := { s with dom.mirrorNode := some n, wb.solo := true,
                    wb.mirrorWait := s.wb.journal.map fun (e : JEntry) => (e.pos, s.now, false) }
  let s := s.wb.journal.foldl (fun s e => send n 0 e.ticket (.mirrorEntry e) s) s
  if s.wb.journal.isEmpty then { s with wb.solo := false, wb.mirrorOk := true } else s

/-! ### Posting (R150 to R152) -/

/-- Keep the time at which an enabled ring became full (R152). -/
def Ring.clock (r : Ring) (now : Nat) : Ring :=
  { r with fullSince := if r.enable && r.full then some (r.fullSince.getD now) else none }

/-- Every accepted request of lower `stream_seq` on the stream has been posted (R150). -/
def streamTurn (s : State) (c : Comp) : Bool :=
  let before (tag : W64) : Bool := tagStream tag == tagStream c.tag && decide (tagSeq tag < tagSeq c.tag)
  !(s.job.reqs.any fun r => r.boss.isNone && before r.desc.tag) && !(s.wb.holdback.any fun d => before d.tag)

/-- Write a completion record to its ring (R151). -/
def postRecord (c : Comp) (s : State) : State :=
  let c := { c with phase := s.wb.cq.pass }
  let s := ringWrite s.wb.cqBase s.wb.cq (c.bytes c.phase) s
  { s with wb.cq := s.wb.cq.next.clock s.now, wb.holdback := s.wb.holdback.filter (·.ticket != c.ticket),
           wb.posted := s.wb.posted ++ [c] }

/-- Room for a COMPLETE entry (R144). -/
def completeFits (s : State) (c : Comp) : Bool :=
  decide (journalUsed s + roundUp (32 + 64 + c.result.length) 64 ≤ journalSize s)

/-- COMPLETION_POST (R150, R151). -/
def execCompletionPost (ticket : Ticket) (s : State) : Host.Outcome State Fault Refusal :=
  .next (whenServing s fun s => match s.wb.holdback.find? (·.ticket == ticket) with
    | none => s
    | some c =>
      if !accepts s || !streamTurn s c || !s.wb.cq.open then s
      else match c.pos with
        | some p => if s.wb.mirrorWait.any (·.1 == p) && !s.wb.solo then s else postRecord c s
        | none =>
          if !completeFits s c then s
          else
            let j := journal 2 c.ticket c.tag (c.bytes false ++ c.result) s
            let s := journaled c.ticket j.2 j.1
            if mirrored s then s else postRecord { c with pos := some j.2 } s)

/-- CQ_STALLED (R152). -/
def execCqStalled (s : State) : Host.Outcome State Fault Refusal :=
  .next (whenServing s fun s => match s.wb.cq.fullSince with
    | some t => if past s t 1000000000 && !s.wb.cqStalled then
        stamped { s with wb.cqStalled := true } fun s k => event k 0x64 devLoc 0 1 0 0 [] s else s
    | none => s)

/-- A write to WB_CQ_CTRL (R152, R159, R160). -/
def cqControl (v : W64) (s : State) : State :=
  match s.wb.cq.control v with
  | some r => { s with wb.cq := r.clock s.now, wb.cqStalled := s.wb.cqStalled && r.head == s.wb.cq.head && r.enable }
  | none => s

/-- A write to TXT_SR_CTRL (R249, R250). -/
def srControl (v : W64) (s : State) : State :=
  match s.txt.sr.control v with
  | some r => pumpStreams { s with txt.sr := r }
  | none => s

/-- A write to FLT_ALERT_CTRL (R523). -/
def alertControl (v : W64) (s : State) : State :=
  match s.flt.alert.control v with
  | some r => { s with flt.alert := r, flt.minSeverity := v.extractLsb' 49 2 }
  | none => s

/-- CQ_CTRL_WRITE (R159, R160). -/
def execCqCtrlWrite (c : Cmd) (data : W64) (s : State) : Host.Outcome State Fault Refusal :=
  .next (mgmtWrite c rCqCtrl data (fun _ s => if accepts s || role s = 1 then cqControl data s else s) s)

/-- SR_CTRL_WRITE (R249). -/
def execSrCtrlWrite (c : Cmd) (data : W64) (s : State) : Host.Outcome State Fault Refusal :=
  .next (mgmtWrite c rSrCtrl data (fun _ s => if accepts s || role s = 1 then srControl data s else s) s)

/-- ALERT_CTRL_WRITE (R523). -/
def execAlertCtrlWrite (c : Cmd) (data : W64) (s : State) : Host.Outcome State Fault Refusal :=
  .next (mgmtWrite c rAlertCtrl data (fun _ => alertControl data) s)

/-! ### Release and fetch (R153 to R155) -/

def releaseMissed (s : State) : State := { s with wb.releaseMiss := satInc s.wb.releaseMiss }

/-- R154. -/
def releaseTicket (v : W64) (s : State) : State :=
  if !accepts s then s
  else match s.wb.posted.find? (·.ticket == v) with
    | some c =>
      if s.wb.held.any fun h => h.2 == v then
        let j := journal 3 v c.tag [] s
        reclaim { j.1 with wb.held := s.wb.held.filter (·.2 != v), wb.posted := s.wb.posted.filter (·.ticket != v) }
      else releaseMissed s
    | none => releaseMissed s

/-- R155. -/
def streamReset (v : W64) (s : State) : State :=
  if !accepts s then s
  else
    let n := tagStream v
    if s.wb.held.any fun h => tagStream h.1 == n then releaseMissed s
    else
      let j := journal 5 0 (v &&& 0xFFF) [] s
      { j.1 with wb.streams := s.wb.streams.filter (·.1 != n) }

/-- RELEASE_TICKET (R154). -/
def execReleaseTicket (c : Cmd) (ticket : Ticket) (s : State) : Host.Outcome State Fault Refusal :=
  .next (mgmtWrite c rRelease ticket (fun _ => releaseTicket ticket) s)

/-- STREAM_RESET (R155). -/
def execStreamReset (c : Cmd) (stream : BitVec 12) (s : State) : Host.Outcome State Fault Refusal :=
  .next (mgmtWrite c rStreamReset (stream.zeroExtend 64) (fun _ => streamReset (stream.zeroExtend 64)) s)

/-- FETCH (R153, R451). -/
def execFetch (src : Node) (txn : W16) (ticket : Ticket) (s : State) : Host.Outcome State Fault Refusal :=
  .next (whenServing s fun s => stamped s fun s _ =>
    match s.wb.posted.find? (·.ticket == ticket) with
    | some c =>
      let bytes := c.bytes c.phase ++ c.result
      ((chunks 65536 (bytes.length / 65536 + 1) bytes).mapIdx fun i x => (65536 * i, x)).foldl
        (fun s p => send src txn ticket (.fetchResp 0 p.1 p.2) s) s
    | none =>
      let pending := s.wb.holdback.any (·.ticket == ticket) || s.job.reqs.any fun r => r.boss.isNone && r.ticket == ticket
      send src txn ticket (.fetchResp (if pending then 6 else 5) 0 []) s)

/-! ### Running the journal again (R149, R156) -/

/-- A completion as its COMPLETE entry keeps it. -/
def compOf (e : JEntry) : Comp :=
  let b := e.body
  let fl := u8 b 0x11
  { ticket := e.ticket, tag := e.tag, status := u8 b 0x10, filterShort := fl.testBit 2, nanSeen := fl.testBit 3,
    shortK := fl.testBit 4, degraded := u8 b 0x12, endReason := u8 b 0x13, detail := u32 b 0x14,
    cookie := BitVec.ofNat 64 (u64 b 0x18), result0 := BitVec.ofNat 64 (u64 b 0x20), node := BitVec.ofNat 16 (u16 b 0x28),
    nValid := u16 b 0x2A, elapsedUs := u32 b 0x2C, indexVersion := u32 b 0x34, result := b.drop 64, pos := some e.pos }

/-- The `detail` with which a journaled request completes at once: an entry behind a higher one of its stream is row 4 of
R139. -/
def journalReject (s : State) (e : JEntry) : Option Nat :=
  let later := s.wb.journal.any fun f => f.kind == 1 && decide (f.pos.toNat < e.pos.toNat) &&
    tagStream f.tag == tagStream e.tag && decide (tagSeq e.tag ≤ tagSeq f.tag)
  if later then some 8 else (activePlan s).bind fun p => rangeCheck s p (e.body.take 128) (e.body.drop 128)

/-- Run one journaled request again: its ticket and tag stay, its budgets count from now (log 33). -/
def reissueEntry (e : JEntry) (s : State) : State :=
  let d : Desc := e.body.take 128
  let b := ((activePlan s).map fun p => budgets p d).getD (0, 0)
  let r := { newReq e.ticket none e.ticket 0 d (e.body.drop 128) s.cfg.setEpoch.toNat s.now b.1 b.2 .text with again := true }
  let s := addReq r { s with wb.reissued := satInc s.wb.reissued }
  match journalReject s e with
  | some off => finish r (rejected off) s
  | none => begin' r s

/-- A journal entry of this kind and ticket stands. -/
def hasEntry (s : State) (k : Nat) (t : Ticket) : Bool := s.wb.journal.any fun e => e.kind == k && e.ticket == t

/-- What the journal says is held, and the completions to post again, in stream order (R138, R149). -/
def resumeHeld (s : State) : State :=
  let comps := (s.wb.journal.filter fun e => e.kind == 2 && !hasEntry s 3 e.ticket).map compOf
  let held := (s.wb.journal.filter fun e => e.kind == 1 && !hasEntry s 3 e.ticket).map fun e => (e.tag, e.ticket)
  { s with wb.holdback := s.wb.holdback ++ comps.filter fun c => !(s.wb.holdback.any (·.ticket == c.ticket)),
           wb.posted := [], wb.held := held }

/-- Requests with an INTAKE and no COMPLETE entry run again (R149). -/
def resumeWork (s : State) : State :=
  let todo := s.wb.journal.filter fun e => e.kind == 1 && !hasEntry s 2 e.ticket && !hasEntry s 3 e.ticket
  todo.foldl (fun s e => if (findReq s e.ticket).isSome then s else reissueEntry e s) s

/-- R149 on a mirror that takes over. -/
def resumeJournal (s : State) : State := resumeWork (resumeHeld s)

/-! ### JOB_CMD (R126) -/

/-- Open the job; work that the journal kept through a reset runs again on it (R149, R156; log 33). -/
def openJob (jobId : W32) (s : State) : State :=
  let t := jobOpen jobId s
  if s.job.phase = 0 && t.job.phase = 1 && accepts t then resumeWork t else t

/-- A write to JOB_CMD (R126). -/
def jobCommand (v : W64) (t : Ticket) (s : State) : State :=
  let op := opBits v 0 2
  if regBit v 2 then (if op = 0 then forceFault t s else { s with job.cmdCode := 4 })
  else if op = 1 then openJob (v.extractLsb' 32 32) s
  else if op = 2 then endDrain s
  else if op = 3 then endAbort s
  else s

/-- JOB_OPEN (R100). -/
def execJobOpen (c : Cmd) (jobId : W32) (s : State) : Host.Outcome State Fault Refusal :=
  .next (mgmtWrite c rJobCmd (hi32 jobId ||| 1) (jobCommand (hi32 jobId ||| 1)) s)

/-- END_DRAIN (R103). -/
def execEndDrain (c : Cmd) (s : State) : Host.Outcome State Fault Refusal :=
  .next (mgmtWrite c rJobCmd 2 (jobCommand 2) s)

/-- END_ABORT (R103). -/
def execEndAbort (c : Cmd) (s : State) : Host.Outcome State Fault Refusal :=
  .next (mgmtWrite c rJobCmd 3 (jobCommand 3) s)

/-- FORCE_FAULT (R126). -/
def execForceFault (c : Cmd) (s : State) : Host.Outcome State Fault Refusal :=
  .next (mgmtWrite c rJobCmd 4 (jobCommand 4) s)

end Sys2Proof.Machine
end

