-- ==== Sys2Proof/Machine/Fanout.lean ====
section
/-! DEFINITION. Work between members: answers (06 R147), forwarded work (18 R473, R474), stream records (10 R239), and the
loss of a member (18 R480; 14 R351). -/

namespace Sys2Proof.Machine

/-! ### The loss of a member (R480, R351) -/

/-- The passages of a rerank phase that one shard, or a peer domain, is asked for. -/
def idsFor (r : Req) (p : Plan) (shard : Nat) : List W64 :=
  (rerankIds r).filter fun id => match shardEntry p r.desc.coll id with
    | some e => e.shard == shard
    | none => decide (0x1000000 ≤ shard)

/-- The node a shard's work goes to now: an UP replica, or the manager of a peer domain; 0 where there is none. -/
def nodeFor (s : State) (r : Req) (p : Plan) (shard : Nat) : Node :=
  if 0x1000000 ≤ shard then ((leadPeers s r p).find? fun n => peerShard n == shard && isUp s n).getD 0
  else
    let es := if r.desc.coll = 0xFFFF then p.shardMaps.flatMap (·.shards) else shardsOf p r.desc.coll
    ((es.find? (·.shard == shard)).map (pickNode s r.mgr)).getD 0

/-- Reissue a read that a lost member holds to another replica (R146, R480); with none it waits for the member. -/
def reissueRead (rerank : Bool) (lost : Node) (r : Req) (s : State) : State :=
  match r.plan s with
  | none => s
  | some p =>
    let mine := r.waitFor.filter fun x => x.2 == lost && !(r.answers.any (·.shard == x.1))
    mine.foldl (fun s x =>
      let n := nodeFor s r p x.1
      if n = 0 || n = lost then s
      else
        let r := (findReq s r.ticket).getD r
        let s := setReq { r with waitFor := r.waitFor.map fun w => if w = x then (x.1, n) else w } { s with wb.reissued := satInc s.wb.reissued }
        if rerank then send n 0 r.mgr (.rerankFwd (headOf s r x.1 true false) r.desc r.tokens (idsFor r p x.1)) s
        else sendWork r true false (x.1, n) s) s

/-- The outcome of a mutation or FOLD whose replicas have answered (R308, R469). -/
def mutationOutcome (r : Req) : Outcome :=
  match r.answers.find? (·.status != 0) with
  | some a => { status := a.status, detail := a.detail, result0 := a.result0 }
  | none =>
    let vs := r.answers.map (·.result0)
    { status := 0, result0 := if r.desc.type = 9 then (vs.drop 1).foldl (fun a b => if b.ult a then b else a) (vs.headD 0) else vs.headD 0 }

/-- Complete a mutation or FOLD once no replica is waited for. -/
def awayDone (r : Req) (s : State) : State :=
  if r.waitFor.isEmpty then finish r (if r.answers.isEmpty then rejected 0x28 else mutationOutcome r) s else setReq r s

/-- A mutation or FOLD stops waiting for a lost member; a shard with no other UP replica holds it (R480). -/
def mutationLost (lost : Node) (r : Req) (s : State) : State :=
  match r.plan s with
  | none => s
  | some p =>
    let keep := r.waitFor.filter (·.2 != lost)
    let gone := r.waitFor.filter (·.2 == lost)
    let held := gone.filter fun x =>
      !(r.answers.any (·.shard == x.1)) && !(keep.any (·.1 == x.1)) &&
        ((shardsOf p r.desc.coll).find? (·.shard == x.1)).all fun e => (upReplicas s e).isEmpty
    awayDone { r with waitFor := keep ++ held.map fun x => (x.1, 0), heldForReplica := r.heldForReplica || !held.isEmpty } s

/-- A prompt whose prefill or decode device is lost starts again (R350, R351; log 35). -/
def promptLost (r : Req) (other : Node) (s : State) : State :=
  let s := if other = 0 then s else send other 0 r.mgr (.cancelFwd false) s
  sendPrompt r { s with wb.reissued := satInc s.wb.reissued }

/-- What a request does when a member it waits for is lost. -/
def reqLost (lost : Node) (t : Ticket) (s : State) : State :=
  match findReq s t with
  | none => s
  | some r =>
    match r.place with
    | .answers rr => reissueRead rr lost r s
    | .away =>
      if !(r.waitFor.any (·.2 == lost)) then s
      else if r.desc.type = 6 then finish r (if r.ending = 0 then rejected 0x28 else { status := r.ending }) s
      else mutationLost lost r s
    | .prefill d c => if d = lost then promptLost r c s else if c = lost then promptLost r d s else s
    | _ => s

/-- Every request that waits for a lost member, in ticket order (R146, R480). -/
def absorbLoss (lost : Node) (s : State) : State :=
  (sortBy (fun a b => ticketLe a b) (s.job.reqs.map (·.ticket))).foldl (fun s t => reqLost lost t s) s

def setMember (m : Member) (s : State) : State :=
  { s with dom.members := s.dom.members.map fun x => if x.node = m.node then m else x }

def findMember (s : State) (n : Node) : Option Member := s.dom.members.find? (·.node == n)

/-- A member whose job ended by a fault counts as lost until its job is open again (R124, R472): the manager swaps its
shadow in. -/
def memberFault (n : Node) (s : State) : State :=
  match findMember s n with
  | some m =>
    let s := setMember { m with state := .lost, inJob := false } s
    absorbLoss n (send n 0 0 (.mwrite rCfgSwap 1) s)
  | none => s

/-! ### ANSWER (R147) -/

def dupAnswer (s : State) : State := { s with wb.dupAnswer := satInc s.wb.dupAnswer }

/-- A replica that answers a mutation owes nothing more for it (R477). -/
def clearOwed (t : Ticket) (shard : Nat) (n : Node) (s : State) : State :=
  reclaim { s with dom.owed := s.dom.owed.filter fun x => !(x.1 == t && x.2.1 == shard && x.2.2 == n) }

/-- An answer for a request that waits for it. -/
def takeAnswer (src : Node) (a : Answer) (r : Req) (s : State) : State :=
  let dup := r.answers.any (·.shard == a.shard)
  match r.place with
  | .answers _ =>
    if a.status = 4 then memberFault src s
    else if dup || !(r.waitFor.any (·.1 == a.shard)) then dupAnswer s
    else whenAnswered { r with answers := r.answers ++ [a] } s
  | .away =>
    if r.desc.type = 6 then
      if a.status = 4 then memberFault src s
      else
        finish { r with degraded := r.degraded ||| a.degraded, nanSeen := r.nanSeen || a.nanSeen }
          { status := if r.ending = 0 then a.status else r.ending, detail := if r.ending = 0 then a.detail else 0,
            result0 := a.result0, endReason := a.endReason, result := a.bytes } s
    else if a.status = 4 then memberFault src s
    else
      let s := clearOwed a.ticket a.shard src s
      let r := { r with waitFor := r.waitFor.filter (· != (a.shard, src)) }
      if dup then awayDone r (dupAnswer s) else awayDone { r with answers := r.answers ++ [a] } s
  | .prefill d _ =>
    if d != src then dupAnswer s
    else if a.status = 4 then memberFault src s
    else if a.status = 5 || a.status = 7 then finish r { status := a.status, detail := a.detail } s
    else s
  | _ => dupAnswer s

/-- ANSWER (R147, R33). -/
def execAnswer (src : Node) (a : Answer) (s : State) : Host.Outcome State Fault Refusal :=
  .next (whenServing s fun s => stamped s fun s _ =>
    match s.job.reqs.find? fun r => r.mgr == a.ticket && (r.place == .away || r.place == .answers false || r.place == .answers true ||
        (match r.place with
         | .prefill _ _ => true
         | _ => false)) with
    | some r => takeAnswer src a r s
    | none => dupAnswer (clearOwed a.ticket a.shard src s))

/-! ### Forwarded work (R96, R474) -/

/-- Refuse work with an ANSWER. -/
def refuseWork (src : Node) (h : FwdHead) (status : Nat) (s : State) : State :=
  let a : Answer := {
    ticket := h.ticket, shard := h.shard, status := status, filterShort := false, nanSeen := false, degraded := 0,
    indexVersion := 0, result0 := 0, detail := 0, endReason := 0, list := [], passages := [], bytes := [] }
  send src 0 h.ticket (.answer a) s

/-- Adopt a higher manager epoch and its manager (R474). -/
def adoptManager (src : Node) (e : Nat) (s : State) : State :=
  if s.dom.mgrEpoch.toNat < e then { s with dom.mgrEpoch := BitVec.ofNat 32 e, dom.mgrNode := some src } else s

/-- The epoch can run, now or after the swap that is under way (R80, R96). -/
def epochComing (s : State) (e : Nat) : Bool :=
  (planSet s e).isSome || (s.cfg.swap.isSome && e == (s.cfg.setEpoch.toNat + 1) % 65536)

/-- Take in forwarded work at its own ticket: refused (R96, R474), attached to what runs already, or begun. -/
def takeWork (src : Node) (h : FwdHead) (t : Ticket) (r : Req) (s : State) : State :=
  let own := nodeDomain src == nodeDomain (myNode s)
  if own && decide (h.mgrEpoch < s.dom.mgrEpoch.toNat) then
    refuseWork src h 5 { s with dom.staleEpoch := satInc s.dom.staleEpoch }
  else
    let s := if own then adoptManager src h.mgrEpoch s else s
    match s.job.reqs.find? fun q => q.boss.isSome && q.mgr == h.ticket && q.shard == h.shard && q.phase == r.phase with
    | some q => setReq { q with boss := some src, owed := q.owed || h.owed } s
    | none =>
      match s.dec.ended.find? fun x => x.1 == h.ticket with
      | some x => send src 0 h.ticket (.answer x.2.2) s
      | none =>
        if s.job.phase != 1 && s.job.phase != 2 then refuseWork src h 4 s
        else
          let s := if !epochComing s h.epoch && (s.cfg.prepared.map (·.epoch)) = some h.epoch then commitPrepared h.epoch t s else s
          if epochComing s h.epoch then beginWork r (addReq r s) else refuseWork src h 4 s

/-- A forwarded request in its phase. -/
def fwdReq (src : Node) (h : FwdHead) (t : Ticket) (desc input : List Byte) (phase : Nat) (s : State) : Req :=
  { newReq t (some src) h.ticket h.shard desc input h.epoch s.now h.softLeft h.hardLeft .held with phase := phase, owed := h.owed }

/-- WORK_FWD (R474). -/
def execWorkFwd (src : Node) (h : FwdHead) (desc input : List Byte) (s : State) : Host.Outcome State Fault Refusal :=
  .next (whenServing s fun s => stamped s fun s t =>
    let r := fwdReq src h t desc input (if Desc.type desc = 6 then 4 else 1) s
    let fmt := if Desc.type desc = 0 then 6 else
      (((planSet s h.epoch).bind fun q => q.plan.coll? (Desc.coll desc)).map (·.vecFormat)).getD 6
    takeWork src h t { r with vector := if Desc.type desc = 0 || Desc.type desc = 2 then vecOf fmt input else [] } s)

/-- RERANK_FWD (R337). -/
def execRerankFwd (src : Node) (h : FwdHead) (desc : List Byte) (tokens : List Nat) (ids : List W64) (s : State) :
    Host.Outcome State Fault Refusal :=
  .next (whenServing s fun s => stamped s fun s t =>
    let r := fwdReq src h t desc [] 2 s
    takeWork src h t { r with tokens := tokens, merged := ids.map fun x => ⟨0, x⟩ } s)

/-- PROMPT (R349 step 1). -/
def execPrompt (src : Node) (h : FwdHead) (desc : List Byte) (decodeNode : Node) (tokens : List Nat) (s : State) :
    Host.Outcome State Fault Refusal :=
  .next (whenServing s fun s => stamped s fun s t =>
    let r := fwdReq src h t desc [] 3 s
    takeWork src h t { r with tokens := tokens, decodeNode := decodeNode } s)

/-- STREAM_REC: the manager writes a decode device's record to its ring (R239). -/
def execStreamRec (_src : Node) (record : List Byte) (s : State) : Host.Outcome State Fault Refusal :=
  .next (whenServing s fun s => stamped s fun s _ =>
    if !accepts s then s
    else if record.length != 64 then badTxn s
    else pumpStreams { s with txt.srWaiting := s.txt.srWaiting ++ [record] })

end Sys2Proof.Machine
end

