-- ==== Sys2Proof/Machine/Prompts.lean ====
section
/-! DEFINITION. Tokenizing and packing (10 R226 to R246), and the move of a prompt's cache (14 R343 to R353). -/

namespace Sys2Proof.Machine

/-! ### TOKENIZE and PACK -/

/-- The text of a request's payload (R108). -/
def queryText (r : Req) : List Byte := if r.desc.type = 3 then r.payload.take r.desc.textLen else r.payload

/-- A request with its tokens goes on its way (R36). -/
def afterText (r : Req) (s : State) : State :=
  if r.desc.type = 3 then
    if isManager s then rerankAway r s else advance phases (startPhase 2 r s) (setReq r s)
  else advance phases (startPhase 0 r s) (setReq r s)

/-- TOKENIZE (R226 to R235). -/
def execTokenize (ticket : Ticket) (s : State) : Host.Outcome State Fault Refusal :=
  .next (whenServing s fun s => match findReq s ticket with
    | none => s
    | some r =>
      if r.place != .text then s
      else match (r.plan s).bind fun p => p.normTables.bind fun t => p.lattice.map fun l => tokenizeText t l p.vocab (queryText r) with
        | none => finish r (rejected 0) s
        | some k =>
          let s := countText k s
          if k.refused then finish r (rejected 0x20) s else afterText { r with tokens := k.tokens } s)

/-- Candidates of a prompt in order, as the packer meets them (R245): a PACK on one device fetches them now. -/
def packList (r : Req) (t : Ticket) (s : State) : List (W64 × PackPassage) :=
  let ids := if r.desc.type = 4 then idsOf r.payload else r.list.map (·.payload)
  if r.desc.type = 4 && !isManager s then fetchAll s r t ids
  else ids.map fun id => match r.passages.find? (·.1 == id) with
    | some x => (id, .ready x.2)
    | none => (id, .skipped)

/-- What a PACK's result region holds (R246). -/
def packedBytes (k : PackResult) : List Byte := k.placed.flatMap (fun p => toLe 8 p.toNat) ++ tokensBytes k.tokens

/-- Pack a request's prompt with the fetch at ticket `t` (R245), and send it on. -/
def packNow (r : Req) (t : Ticket) (s : State) : State :=
  match (r.plan s).bind (·.template? r.desc.template) with
  | none => finish r (rejected 3) s
  | some tm =>
    let k := packPrompt tm r.desc.budget (if r.desc.type = 4 then [] else r.tokens) (packList r t s)
    if k.refused then finish r (rejected 0x1A) s
    else
      let s := { s with txt.packSkip := satAdd s.txt.packSkip k.packSkip, txt.tokMismatch := satAdd s.txt.tokMismatch k.tokMismatch }
      let r := { r with packed := k.tokens, placed := k.placed }
      if r.desc.type = 4 then finish r { status := okStatus r, result := packedBytes k, nValid := k.placed.length } s
      else if k.tokens.isEmpty then finish r (rejected 0x20) s
      else if isManager s then sendPrompt r (setReq r s) else localPrompt r (setReq r s)

/-- PACK (R245); a prompt that no member could take is offered again (log 27). -/
def execPack (ticket : Ticket) (s : State) : Host.Outcome State Fault Refusal :=
  .next (whenServing s fun s => match findReq s ticket with
    | none => s
    | some r =>
      if r.place != .pack then s
      else if !r.packed.isEmpty then sendPrompt r s
      else if r.desc.type = 4 && !isManager s then stamped s fun s t => packNow r t s
      else packNow r 0 s)

/-! ### Opening a cache (R349 steps 2 and 3) -/

/-- CACHE_OPEN on the decode device. -/
def execCacheOpen (src : Node) (ticket : Ticket) (promptLen lastToken kvFormat layers : Nat) (s : State) :
    Host.Outcome State Fault Refusal :=
  .next (whenServing s fun s => stamped s fun s _ =>
    if s.job.phase != 1 && s.job.phase != 2 then send src 0 ticket .noRoom s
    else match openCache ticket promptLen lastToken kvFormat layers s with
      | some (s, h) => send src 0 ticket (.opened h) s
      | none => send src 0 ticket .noRoom s)

/-- The move that waits for the decode device's answer. -/
def openingMove (s : State) (src : Node) (t : Ticket) : Option PfMove :=
  s.dec.moves.find? fun v => v.mgr == t && v.decode == src && v.handle.isNone

/-- OPENED: the prompt enters the prefill stage's queue. -/
def execOpened (src : Node) (ticket : Ticket) (handle : W64) (s : State) : Host.Outcome State Fault Refusal :=
  .next (whenServing s fun s => stamped s fun s _ =>
    match openingMove s src ticket with
    | none => s
    | some v =>
      let s := setMove { v with handle := some handle, retryAt := none } s
      match findReq s v.ticket with
      | none => s
      | some r =>
        let r := startPhase 3 r s
        if r.agenda.isEmpty then finish r (rejected 0) s else advance phases r s)

/-- NO_ROOM. -/
def execNoRoom (src : Node) (ticket : Ticket) (s : State) : Host.Outcome State Fault Refusal :=
  .next (whenServing s fun s => stamped s fun s _ =>
    match openingMove s src ticket with
    | some v => setMove { v with retryAt := some s.now } s
    | none => s)

/-- CACHE_OPEN_RETRY: step 2 again every 100 µs. -/
def execCacheOpenRetry (ticket : Ticket) (s : State) : Host.Outcome State Fault Refusal :=
  .next (whenServing s fun s => match findMove s ticket, findReq s ticket with
    | some v, some r =>
      match v.retryAt with
      | none => s
      | some at0 =>
        if !past s at0 100000 || v.handle.isSome then s
        else if v.decode = myNode s then
          let o := openLocal r s
          match o.2 with
          | some _ => advance phases r o.1
          | none => o.1
        else
          let d := if v.decode = 0 then (memberPair s (myNode s)).getD 0 else v.decode
          let sh := cacheShape s r
          if d = 0 then setMove { v with retryAt := some s.now } s
          else send d 0 r.mgr (.cacheOpen v.tokens.length (v.tokens.getLastD 0) sh.1 sh.2) (setMove { v with decode := d, retryAt := none } s)
    | _, _ => s)

/-! ### Blocks (R346, R350, R453) -/

def setCache (c : Cache) (s : State) : State := { s with dec.caches := s.dec.caches.map fun (x : Cache) => if x.handle = c.handle then c else x }

/-- Order of blocks in a cache. -/
def blockLe (a b : Nat × Nat × KvHead × List Byte) : Bool := decide (a.1 < b.1) || (a.1 == b.1 && decide (a.2.1 ≤ b.2.1))

/-- Bytes of a block's segments that have come, laid in order; none while a byte is missing. -/
def joinSegments (len : Nat) (segs : List (Nat × List Byte)) : Option (List Byte) :=
  let all := (sortBy (fun a b => decide (a.1 ≤ b.1)) segs).foldl (fun (acc : List Byte) x =>
    if x.1 ≤ acc.length then acc ++ x.2.drop (acc.length - x.1) else acc) []
  if all.length = len then some all else none

/-- KV_BLOCK on the decode device (R349 step 5, R350, R453). -/
def execKvBlock (src : Node) (h : KvHead) (segOff : Nat) (data : List Byte) (s : State) : Host.Outcome State Fault Refusal :=
  .next (whenServing s fun s => stamped s fun s _ =>
    match s.dec.caches.find? (·.handle == h.handle) with
    | none => s
    | some c =>
      if c.written.any fun w => w.1 == h.layer && w.2.1 == h.index then
        if h.dataLen ≤ segOff + data.length then
          send src 0 h.ticket (.kvAck h.handle h.layer h.index) { s with dec.kvDup := satInc s.dec.kvDup }
        else s
      else if decide (h.dataLen < segOff + data.length) || decide (c.layers ≤ h.layer) then badTxn s
      else
        let segs := upsert (fun (x : Nat × Nat × Nat × List Byte) => x.1 == h.layer && x.2.1 == h.index && x.2.2.1 == segOff)
          (h.layer, h.index, segOff, data) c.segments
        let mine := (segs.filter fun x => x.1 == h.layer && x.2.1 == h.index).map fun x => (x.2.2.1, x.2.2.2)
        match joinSegments h.dataLen mine with
        | none => setCache { c with segments := segs } s
        | some all =>
          let c := { c with written := insertBy blockLe (h.layer, h.index, h, all) c.written,
                            segments := segs.filter fun x => !(x.1 == h.layer && x.2.1 == h.index) }
          send src 0 h.ticket (.kvAck h.handle h.layer h.index) (setCache c s))

/-- KV_ACK on the prefill device: the block is freed; with the last one PREFILL_DONE goes out (R349 step 6). -/
def execKvAck (_src : Node) (handle : W64) (layer index : Nat) (s : State) : Host.Outcome State Fault Refusal :=
  .next (whenServing s fun s => stamped s fun s _ =>
    match s.dec.moves.find? fun v => v.handle == some handle && v.decode != myNode s with
    | none => s
    | some v =>
      let sent := v.sent.any fun x => x.1 == layer && x.2.1 == index
      if !sent || v.acked.contains (layer, index) then s
      else
        let v := { v with acked := v.acked ++ [(layer, index)],
                          blocks := v.blocks.filter fun b => !(b.1.layer == layer && b.1.index == index) }
        if v.acked.length = v.sent.length then moveDone v (setMove v s) else setMove v s)

/-- KV_RESEND_TIMEOUT (R350): once more, then the loss is lasting. -/
def execKvResendTimeout (handle : W64) (layer index : Nat) (s : State) : Host.Outcome State Fault Refusal :=
  .next (whenServing s fun s =>
    match s.dec.moves.find? fun v => v.handle == some handle && v.decode != myNode s with
    | none => s
    | some v =>
      match v.sent.find? fun x => x.1 == layer && x.2.1 == index with
      | none => s
      | some x =>
        if !past s x.2.2.1 1000000 || v.acked.contains (layer, index) then s
        else if x.2.2.2 then
          let boss := ((findReq s v.ticket).bind (·.boss)).getD 0
          let s := dropReq v.ticket { s with dec.moves := s.dec.moves.filter (·.ticket != v.ticket) }
          send boss 0 v.mgr (.kvLost handle) s
        else
          let s := { s with dec.kvResend := satInc s.dec.kvResend }
          let s := setMove { v with sent := v.sent.map fun y => if y.1 = layer ∧ y.2.1 = index then (layer, index, s.now, true) else y } s
          match v.blocks.find? fun b => b.1.layer == layer && b.1.index == index with
          | some b => sendBlock v.decode b.1 b.2 s
          | none => s)

/-- The request whose prompt is with a prefill device. -/
def prefillReq (s : State) (src : Node) (t : Ticket) : Option (Req × Node) :=
  s.job.reqs.findSome? fun r => match r.place with
    | .prefill d c => if d = src && r.mgr == t then some (r, c) else none
    | _ => none

/-- KV_LOST on the manager (R350). -/
def execKvLost (src : Node) (ticket : Ticket) (handle : W64) (s : State) : Host.Outcome State Fault Refusal :=
  .next (whenServing s fun s => stamped s fun s _ =>
    match prefillReq s src ticket with
    | some (r, c) =>
      let d : Node := if c = 0 then handle.extractLsb' 0 16 else c
      sendPrompt r (send d 0 ticket (.cacheDrop handle) { s with wb.reissued := satInc s.wb.reissued })
    | none => s)

/-- CACHE_DROP on the decode device (R350). -/
def execCacheDrop (_src : Node) (handle : W64) (s : State) : Host.Outcome State Fault Refusal :=
  .next (whenServing s fun s => stamped s fun s _ => freeCaches (·.handle == handle) s)

/-- PREFILL_DONE on the manager (R34, R349 step 7); one from a superseded attempt is discarded (R351). -/
def execPrefillDone (src : Node) (ticket : Ticket) (handle : W64) (s : State) : Host.Outcome State Fault Refusal :=
  .next (whenServing s fun s => stamped s fun s _ =>
    match prefillReq s src ticket with
    | some (r, c) =>
      if c = 0 || handle.extractLsb' 0 16 = c then completePrompt r handle (handle.extractLsb' 0 16) s else dupAnswer s
    | none => dupAnswer s)

/-- Time an unclaimed cache is kept, in ns (R341). -/
def idleNs (s : State) : Nat := (((activePlan s).bind genOfPlan).map fun g => g.2.idleMs).getD 1 * 1000000

/-- CACHE_IDLE_TIMEOUT (R353). -/
def execCacheIdleTimeout (handle : W64) (s : State) : Host.Outcome State Fault Refusal :=
  .next (whenServing s fun s => match s.dec.caches.find? (·.handle == handle) with
    | some c =>
      if c.claimed.isNone && past s c.openedAt (idleNs s) then
        freeCaches (·.handle == handle) { s with dec.idleFreed := satInc s.dec.idleFreed }
      else s
    | none => s)

end Sys2Proof.Machine
end

