-- ==== Sys2Proof/Machine/Tables.lean ====
section
/-! DEFINITION. Embedding tables: building, publishing and retiring a version, and gathers between members (11 R262 to
R273). -/

namespace Sys2Proof.Machine

/-! ### GTH_BUILD_CMD (R266, R272) -/

/-- Value of a GTH_BUILD_CMD write. -/
def gthData (op : Nat) (table : W32) : W64 := hi32 table ||| BitVec.ofNat 64 op

/-- The `object_id` of a GTH_BUILD_CMD write. -/
def gthTable (v : W64) : Nat := regBits v 32 32

/-- Act on the table that a command names; one that the device does not hold, or holds no region of, is refused, as
GTH_TBL_STATUS then shows (R273). -/
def onTable (table : Nat) (f : Table → Table) (s : State) : State :=
  match findTable s table with
  | some t => if t.spec.remote then setTable { t with cmdCode := 1 } s else setTable (f t) s
  | none => s

/-- Region free for OPEN and CLONE, or why not. -/
def openCode (t : Table) (clone : Bool) : Nat :=
  match t.state t.nextRegion with
  | .build => 3
  | .retiring => 2
  | .live => 2
  | .free => if clone && t.state (1 - t.nextRegion) != .live then 6 else 0

/-- OPEN and CLONE (R266). -/
def openRegion (clone : Bool) (t : Table) : Table :=
  let code := openCode t clone
  if code = 0 then { t.setState t.nextRegion .build with busy := some clone, cmdCode := 0 }
  else { t with cmdCode := BitVec.ofNat 8 code }

/-- ABANDON (R266). -/
def abandonRegion (t : Table) : Table :=
  if t.state t.nextRegion != .build then { t with cmdCode := 4 }
  else if t.busy.isSome then { t with cmdCode := 5 }
  else { t.setState t.nextRegion .free with cmdCode := 0 }

/-- A GTH_BUILD_CMD write: NOP and reserved operations have no effect; any other names the table for the source (R272). -/
def gthCommand (c : Cmd) (v : W64) (s : State) : State :=
  let op := regBits v 0 3
  if op = 0 || 4 < op then s
  else
    let s := bankSet rGthCmd.toNat c.src v s
    match op with
    | 1 => onTable (gthTable v) (openRegion false) s
    | 2 => onTable (gthTable v) (openRegion true) s
    | 3 => onTable (gthTable v) abandonRegion s
    | _ => s

/-- GTH_OPEN (R266). -/
def execGthOpen (c : Cmd) (table : W32) (s : State) : Host.Outcome State Fault Refusal :=
  .next (mgmtWrite c rGthCmd (gthData 1 table) (fun _ => gthCommand c (gthData 1 table)) s)

/-- GTH_CLONE (R266). -/
def execGthClone (c : Cmd) (table : W32) (s : State) : Host.Outcome State Fault Refusal :=
  .next (mgmtWrite c rGthCmd (gthData 2 table) (fun _ => gthCommand c (gthData 2 table)) s)

/-- GTH_ABANDON (R266). -/
def execGthAbandon (c : Cmd) (table : W32) (s : State) : Host.Outcome State Fault Refusal :=
  .next (mgmtWrite c rGthCmd (gthData 3 table) (fun _ => gthCommand c (gthData 3 table)) s)

/-- GTH_SELECT (R272). -/
def execGthSelect (c : Cmd) (table : W32) (s : State) : Host.Outcome State Fault Refusal :=
  .next (mgmtWrite c rGthCmd (gthData 4 table) (fun _ => gthCommand c (gthData 4 table)) s)

/-- Copy one whole word from one address of the device to another, poison with it (R375, R376). -/
def copyWord (src dst : Nat) (s : State) : State :=
  match locate s src, locate s dst with
  | some a, some b =>
    let w := peekWord s a.1 a.2.1 a.2.2
    putWord b.1 b.2.1 b.2.2 (w40 w.1 w.2) s
  | _, _ => s

/-- Copy `n` bytes inside a resident object. -/
def copyInside (id src dst n : Nat) (s : State) : State :=
  match residentObj s id with
  | some o => (List.range (n / 4)).foldl (fun s i => copyWord (o.addr (src + 4 * i)) (o.addr (dst + 4 * i)) s) s
  | none => s

/-- The data of an OPEN or CLONE is in place (R266). -/
def buildDone (t : Table) (clone : Bool) (s : State) : State :=
  let r := t.nextRegion
  let s := if clone then
      let ht := halfBytes s t.spec.table
      let hd := halfBytes s t.spec.dir
      copyInside t.spec.dir ((1 - r) * hd) (r * hd) (8 * t.spec.rows) (copyInside t.spec.table ((1 - r) * ht) (r * ht) ht s)
    else s
  let s := objPut t.spec.dir (counterAt s t.spec r 0) (List.replicate (4 * t.spec.rows) 0) s
  setTable { t with busy := none } s

/-- BUILD_DONE (R266). -/
def execBuildDone (table : W32) (s : State) : Host.Outcome State Fault Refusal :=
  .next (whenServing s fun s => match findTable s table.toNat with
    | some t => match t.busy with
      | some clone => buildDone t clone s
      | none => s
    | none => s)

/-! ### TABLE_SWITCH (R267, R268) -/

/-- A member switches at a publication's commit (R269 step 6). -/
def memberSwitch (t : Table) (s : State) : State :=
  stamped s fun s _ => setTable { switchTable t with recorded := t.recorded ++ t.prepared.toList } s

/-- A TABLE_PUBLISH on a device that holds the table (R267, R148). -/
def localPublish (t : Table) (r : Req) (s : State) : State :=
  stamped s fun s _ =>
    match t.recorded.find? (·.1 == r.mgr) with
    | some x => finish r { status := 0, result0 := BitVec.ofNat 64 x.2 } s
    | none =>
      if t.spec.remote || !publishable t then finish r (rejected 0x28) { s with gth.pubFail := satInc s.gth.pubFail }
      else
        let v := t.version + 1
        finish r { status := 0, result0 := BitVec.ofNat 64 v }
          (setTable { switchTable t with retireSeen := true, recorded := t.recorded ++ [(r.mgr, v)] } s)

/-- The first TABLE_PUBLISH of a table that runs on this device alone. -/
def publishWaiting (s : State) (table : Nat) : Option Req :=
  (sortBy (fun a b => ticketLe a.ticket b.ticket)
    (s.job.reqs.filter fun r => r.place == .publish && r.desc.object == table && !(s.gth.pubs.any (·.ticket == r.ticket)))).head?

/-- TABLE_SWITCH: a step boundary of the device (R267). -/
def execTableSwitch (table : W32) (s : State) : Host.Outcome State Fault Refusal :=
  .next (whenServing s fun s => match findTable s table.toNat with
    | some t =>
      if t.committed && t.prepared.isSome then memberSwitch t s
      else match publishWaiting s table.toNat with
        | some r => localPublish t r s
        | none => s
    | none => s)

/-! ### Publication across a domain (R269, R270) -/

/-- Whether a table can take a version, as READY's code; code 1 answers for a table that the device does not hold
(log 30). -/
def prepCode (t : Option Table) (ticket : Ticket) (version : Nat) : Nat :=
  match t with
  | none => 1
  | some t =>
    if t.recorded.any (·.1 == ticket) then 0
    else if version != t.version + 1 then 4
    else if t.spec.remote then 0
    else match t.state t.nextRegion with
      | .build => if t.busy.isSome then 5 else 0
      | .retiring => 2
      | _ => 4

/-- PUBLISH_PREP (R269 step 3). -/
def execPublishPrep (src : Node) (ticket : Ticket) (table version : W32) (s : State) : Host.Outcome State Fault Refusal :=
  .next (whenServing s fun s => stamped s fun s _ =>
    let t := findTable s table.toNat
    let code := prepCode t ticket version.toNat
    let s := match t with
      | some t => if code = 0 && !(t.recorded.any (·.1 == ticket)) then
          setTable { t with prepared := some (ticket, version.toNat), committed := false, retireSeen := false } s else s
      | none => s
    send src 0 ticket (.ready table.toNat code) s)

/-- READY (R269 step 4). -/
def execReady (src : Node) (ticket : Ticket) (table : W32) (code : Byte) (s : State) : Host.Outcome State Fault Refusal :=
  .next (whenServing s fun s => stamped s fun s _ =>
    match s.gth.pubs.find? (·.ticket == ticket) with
    | some b =>
      if b.committed || b.table != table.toNat || !b.members.contains src || b.answers.any (·.1 == src) then s
      else
        let b := { b with answers := b.answers ++ [(src, code.toNat)] }
        let s := setPub b s
        if b.answers.length = b.members.length then publishCollect b s else s
    | none => s)

/-- PUBLISH_TIMEOUT: an answer is missing 20 ms after acceptance (R269 step 4, R270). -/
def execPublishTimeout (ticket : Ticket) (s : State) : Host.Outcome State Fault Refusal :=
  .next (whenServing s fun s => match s.gth.pubs.find? (·.ticket == ticket) with
    | some b =>
      if b.committed || !past s b.since 20000000 then s
      else
        let good (n : Node) : Bool := b.answers.any fun a => a.1 == n && (a.2 == 0 || a.2 == 1)
        let bad := (b.members.filter fun n => !good n).map nodeMember
        match findReq s ticket with
        | some r => stamped s fun s _ => publishFail r (bad.foldl min 1023) s
        | none => { s with gth.pubs := s.gth.pubs.filter (·.ticket != ticket) }
    | none => s)

/-- PUBLISH_COMMIT: the member switches at its next step boundary (R269 step 6). -/
def execPublishCommit (_src : Node) (ticket : Ticket) (table version : W32) (s : State) : Host.Outcome State Fault Refusal :=
  .next (whenServing s fun s => stamped s fun s _ => match findTable s table.toNat with
    | some t => if t.prepared = some (ticket, version.toNat) then setTable { t with committed := true } s else s
    | none => s)

/-- RETIRE (R268, R269 step 7). -/
def execRetire (_src : Node) (table version : W32) (s : State) : Host.Outcome State Fault Refusal :=
  .next (whenServing s fun s => stamped s fun s _ => match findTable s table.toNat with
    | some t => if version.toNat = t.version || version.toNat + 1 = t.version then setTable { t with retireSeen := true } s else s
    | none => s)

/-- The retiring region may become FREE: no step pins its version, and the holder of a slice has seen RETIRE (R268). -/
def regionFreeable (s : State) (t : Table) : Bool :=
  t.state t.nextRegion == .retiring && (t.retireSeen || t.spec.sliceWidth == t.spec.dims) &&
  !(s.job.steps.any fun p => p.tablePins.any fun x => x.1 == t.spec.table && decide (x.2 < t.version))

/-- REGION_FREE (R268). -/
def execRegionFree (table : W32) (s : State) : Host.Outcome State Fault Refusal :=
  .next (whenServing s fun s =>
    let s := retirePubs s
    match findTable s table.toNat with
    | some t => if regionFreeable s t then setTable (t.setState t.nextRegion .free) s else s
    | none => s)

/-! ### Gathers between members (R263, R264) -/

/-- Bytes of a decoded element in a table's `out_format`. -/
def outBytes (fmt : Nat) (x : W32) : List Byte := if fmt = 6 then toLe 2 (x.toNat / 65536) else toLe 4 x.toNat

/-- An element of `out_format` bytes, as FP32. -/
def outWiden (fmt : Nat) (b : List Byte) (i : Nat) : W32 := if fmt = 6 then BitVec.ofNat 32 (u16 b (2 * i) * 65536) else w32At b (4 * i)

def outSize (fmt : Nat) : Nat := if fmt = 6 then 2 else 4

/-- A gather of the version prepared here counts as its PUBLISH_COMMIT (R270). -/
def gatherCommits (t : Table) (version : Nat) : Table :=
  if (t.prepared.map (·.2)) = some version then { t with committed := true } else t

/-- A version whose rows are here: published, retiring, or committed and not yet switched. -/
def versionHere (t : Table) (version : Nat) : Bool :=
  version != 0 && (version == t.version || (version == t.version + 1 && t.committed) ||
    (version + 1 == t.version && t.state t.nextRegion == .retiring))

/-- Serve one pass of a remote gather: rows of the indices in range, in order, counted once each (R263, R264, log 36). -/
def serveGather (src : Node) (ticket : Ticket) (t : Table) (version : Nat) (index : List Nat) (s : State) : State :=
  let idx := index.filter (· < t.spec.rows)
  let rows := idx.map fun i => decodeRow s t.spec version i
  let s := { s with gth.dirBad := satAdd s.gth.dirBad (rows.filter (·.bad)).length }
  if rows.any (·.poisoned) then jobFault 1 s
  else
    let s := addCounts t.spec version idx s
    let data := rows.flatMap fun r => r.elems.flatMap (outBytes t.spec.outFormat)
    send src 0 ticket (.gatherAns t.spec.table version idx.length t.spec.sliceFirst t.spec.sliceWidth data) s

/-- GATHER_REQ (R263, R270). -/
def execGatherReq (src : Node) (_txn : W16) (ticket : Ticket) (table version : W32) (_hardLeft : W32) (index : List Nat) (s : State) :
    Host.Outcome State Fault Refusal :=
  .next (whenServing s fun s => stamped s fun s _ => match findTable s table.toNat with
    | some t =>
      if t.spec.remote then s
      else
        let t := gatherCommits t version.toNat
        let s := setTable t s
        if versionHere t version.toNat then serveGather src ticket t version.toNat index s else s
    | none => s)

/-- Every column of the assembled row has come. -/
def slicesCover (dims : Nat) (xs : List (Nat × Nat × List Byte)) : Bool :=
  (List.range dims).all fun c => xs.any fun x => decide (x.1 ≤ c) && decide (c < x.1 + x.2.1)

/-- Element `c` of row `k` of an assembled pass (R263). -/
def assembledElem (fmt : Nat) (xs : List (Nat × Nat × List Byte)) (k c : Nat) : W32 :=
  match xs.find? fun x => decide (x.1 ≤ c) && decide (c < x.1 + x.2.1) with
  | some x => outWiden fmt x.2.2 (k * x.2.1 + (c - x.1))
  | none => 0

/-- Rows that every slice of a pass holds; indices beyond them were out of range on some member (R264). -/
def rowsHeld (fmt : Nat) (xs : List (Nat × Nat × List Byte)) (pass : Nat) : Nat :=
  (xs.map fun x => x.2.2.length / (x.2.1 * outSize fmt)).foldl min pass

/-- Mask the requests of a step that read an index out of range (R257, R264). -/
def maskIndices (k : Step) (bad : List Nat) (s : State) : State :=
  let hit := (k.outs.filter fun o => o.tokens.any bad.contains).map (·.ticket)
  hit.foldl (fun s t => match findReq s t with
    | some r => finish r (rejected 0x20) { s with gth.idxRange := satInc s.gth.idxRange }
    | none => s) s

def setGather (g : Gather) (s : State) : State :=
  { s with gth.gathers := s.gth.gathers.map fun x => if x.step = g.step && x.table = g.table then g else x }

/-- A pass is whole: its rows go to the step, and the next pass is asked for (R263). -/
def passDone (t : Table) (g : Gather) (k : Step) (s : State) : State :=
  let p := g.passes.headD []
  let n := rowsHeld t.spec.outFormat g.slices p.length
  let rows := (p.take n).mapIdx fun i x =>
    (t.spec.table, x, (List.range t.spec.dims).map fun c => assembledElem t.spec.outFormat g.slices i c)
  let bad := p.drop n
  let s := { s with job.steps := s.job.steps.map fun (q : Step) => if q.start = k.start then { q with rows := q.rows ++ rows } else q }
  let s := if bad.isEmpty then s else maskIndices k bad s
  let g := { g with passes := g.passes.drop 1, slices := [] }
  let alive := k.outs.findSome? fun o => findReq s o.ticket
  match g.passes, alive with
  | _ :: _, some r => sendGather g r (setGather g s)
  | _, _ => { s with gth.gathers := s.gth.gathers.filter fun x => !(x.step == g.step && x.table == g.table) }

/-- GATHER_ANS (R263, R264). -/
def execGatherAns (_src : Node) (ticket : Ticket) (table version : W32) (sliceFirst sliceWidth : Nat) (rows : List Byte) (s : State) :
    Host.Outcome State Fault Refusal :=
  .next (whenServing s fun s => stamped s fun s _ =>
    match s.gth.gathers.find? (fun g => g.ticket == ticket && g.table == table.toNat && g.version == version.toNat), findTable s table.toNat with
    | some g, some t =>
      if g.slices.any (·.1 == sliceFirst) then s
      else
        let g := { g with slices := g.slices ++ [(sliceFirst, sliceWidth, rows)] }
        let s := setGather g s
        match s.job.steps.find? (·.start == g.step) with
        | some k => if slicesCover t.spec.dims g.slices then passDone t g k s else s
        | none => s
    | _, _ => s)

end Sys2Proof.Machine
end

