-- ==== Sys2Proof/Machine/Collections.lean ====
section
/-! DEFINITION. Inserts, deletes and the pending table (12 R295 to R300; 06 R148; 16 R404, R408). -/

namespace Sys2Proof.Machine

/-! ### What a mutation waits for -/

/-- A mutation of the collection with a lower manager ticket is still to be applied (R148). -/
def earlierMutation (s : State) (r : Req) : Bool :=
  s.job.reqs.any fun q => q.place == .mutation && q.desc.coll == r.desc.coll && ticketLt q.mgr r.mgr

/-- The pending table has no entry left (R295). -/
def pendingFull (s : State) : Bool := decide (65536 ≤ (s.srch.colls.map (·.pending.length)).sum)

/-- Bytes in a controller's write buffer. -/
def bufferUsed (ctl : Ctrl) : Nat := (ctl.buf.map (·.bytes)).sum

/-- The controller whose blocks hold the system area's next data (log 11). -/
def sysCtrl (s : State) : Nat := ([0, 1].find? fun c => !(s.stk.ctrls.getD c {}).blocks.isEmpty).getD 0

/-- A write of `n` bytes finds room in a controller's write buffer (R397). -/
def bufferRoom (s : State) (ctrl n : Nat) : Bool :=
  let ctl := s.stk.ctrls.getD ctrl {}
  decide (bufferUsed ctl + n ≤ ctl.capMib * mib)

/-- Append a collection-log entry (R408). -/
def logChange (e : CollLog) (s : State) : State :=
  bufferWrite (sysCtrl s) .log e.coll 0 (64 + e.vector.length) { s with stk.logs := s.stk.logs ++ [e] }

/-- The outcome recorded for a manager ticket (R148). -/
def recordedOutcome (c : Coll) (mgr : Ticket) : Option Outcome :=
  (c.recorded.find? (·.1 == mgr)).map fun x => { status := x.2.1, result0 := x.2.2 }

/-- The collection of a mutation or FOLD that may act now: restored (R410). -/
def collReady (s : State) (id : Nat) : Option Coll := (findColl s id).filter fun c => !c.restoring

/-! ### INSERT (R298) -/

/-- The lowest Scree position that versions still read from (R306). -/
def screeFloor (c : Coll) : Nat := min c.screeBase ((c.old.map (·.screeBase)).getD c.screeBase)

/-- A Scree position is left, or the collection has no Scree list (R298 step 2). -/
def screeRoom (s : State) (c : Coll) : Bool := c.par.degree == 0 || decide (c.screeTail < screeFloor c + c.screeCap s)

/-- The record needs a new record block (R407). -/
def opensBlock (s : State) (coll tenant len : Nat) : Bool :=
  match openBlock s coll tenant with
  | some b => decide (blockBytes s < b.used + len)
  | none => true

/-- The tenant's Stockpile quota bars a new record block (R385, R59, R383). -/
def quotaBars (s : State) (r : Req) : Bool :=
  let q := (((r.plan s).bind fun p => p.quota? r.desc.tenant).map (·.stk)).getD 0
  let placed := ((objsOf s (serialsHeld s)).filter fun o => o.place.tier == 2 && o.place.tenant == r.desc.tenant).map (·.place.size)
  decide (q < placed.sum + tenantRecBlocks s r.desc.tenant + 1)

/-- Write a vector, its code and its Scree entry (R276, R277, R293, R299). -/
def writeVector (c : Coll) (slot : Nat) (id : W64) (pos : Nat) (vec : List Byte) (s : State) : State :=
  let code := if c.par.cls = 1 then encodeVector c.par.dims c.par.subspaces (centroid s c) (vecOf c.spec.vecFormat vec) else []
  let s := objPut c.spec.vectors (c.vectorAt slot) vec s
  let s := if c.par.cls = 1 then objPut c.spec.codes (c.codeAt slot) code s else s
  if c.par.degree = 0 then s
  else objPut c.spec.scree (pos % c.screeCap s * screeEntry c.par.subspaces)
    (padTo (screeEntry c.par.subspaces) (toLe 8 id.toNat ++ code)) s

/-- Steps 3 to 5 of R298 for a slot. -/
def applyInsert (c : Coll) (r : Req) (slot : Nat) (s : State) : State :=
  let vec := r.payload.take c.vecLen
  let bytes := r.payload.drop c.vecLen
  let gen := (slotNow s c slot).gen
  let id := passageId gen c.spec.shard slot
  let st : SlotState := ⟨gen, true, false, recAttr bytes⟩
  let pos := c.screeTail
  let s := appendRecord c.id slot gen r.desc.tenant bytes (writeVector c slot id pos vec s)
  stamped s fun s t =>
    let s := logChange ⟨c.id, 0, r.mgr, t, id, pos, vec, recAttr bytes, st⟩ s
    let c := { c with pending := c.pending ++ [⟨t, slot, st⟩], screeTail := if c.par.degree = 0 then pos else pos + 1,
                      recorded := c.recorded ++ [(r.mgr, 0, id)] }
    finish r { status := 0, result0 := id } (setColl c s)

/-- Steps 1 and 2 of R298, and R385 and R404: how the request ends without a change, or the slot it takes. -/
def insertPlace (s : State) (c : Coll) (r : Req) : Except Outcome Nat :=
  let bytes := r.payload.drop c.vecLen
  match recordedOutcome c r.mgr with
  | some o => .error o
  | none =>
    if !((vecOf c.spec.vecFormat (r.payload.take c.vecLen)).all f32IsFin) || r.payload.length < c.vecLen then .error (rejected 0x20)
    else match lowestSlot c fun n => (slotNow s c n).isFree with
      | none => .error (rejected 6)
      | some n =>
        if !screeRoom s c then .error (rejected 6)
        else if opensBlock s c.id r.desc.tenant bytes.length then
          if quotaBars s r then .error { status := 7, detail := 2 }
          else if (freeCtrl s).isNone then .error (rejected 6)
          else .ok n
        else .ok n

/-- The refusal is for want of a slot or Scree position, not of a Stockpile block. -/
def slotLacking (s : State) (c : Coll) : Bool := (lowestSlot c fun n => (slotNow s c n).isFree).isNone || !screeRoom s c

/-- Count a refused INSERT (R298, R404). -/
def countRefusal (c : Coll) (o : Outcome) (s : State) : State :=
  if o.status = 5 && o.detail = 6 then
    if slotLacking s c then { s with srch.insFull := satInc s.srch.insFull } else { s with stk.stkFull := satInc s.stk.stkFull }
  else s

/-- The Stockpile can take the record and its log entry now (R397). -/
def insertRoom (s : State) (r : Req) : Bool :=
  let ctrl := ((openBlock s r.desc.coll r.desc.tenant).map (·.ctrl)).getD ((freeCtrl s).getD 0)
  bufferRoom s ctrl (r.payload.length + 128)

/-- INSERT_APPEND (R298). -/
def execInsertAppend (ticket : Ticket) (s : State) : Host.Outcome State Fault Refusal :=
  .next (whenServing s fun s => match findReq s ticket with
    | some r => match collReady s r.desc.coll with
      | some c =>
        if r.place != .mutation || r.desc.type != 7 || earlierMutation s r then s
        else match insertPlace s c r with
          | .error o => finish r o (countRefusal c o s)
          | .ok n => if pendingFull s || !insertRoom s r then s else applyInsert c r n s
      | none => s
    | none => s)

/-! ### DELETE (R300) -/

/-- Mark a slot DELETED at an append ticket. -/
def applyDelete (c : Coll) (r : Req) (id : W64) (st : SlotState) (s : State) : State :=
  stamped s fun s t =>
    let st := { st with tomb := true }
    let s := logChange ⟨c.id, 1, r.mgr, t, id, 0, [], 0, st⟩ s
    finish r { status := 0 }
      (setColl { c with pending := c.pending ++ [⟨t, localSlot id, st⟩], recorded := c.recorded ++ [(r.mgr, 0, 0)] } s)

/-- A DELETE on its worker. -/
def deleteNow (c : Coll) (r : Req) (s : State) : State :=
  let id : W64 := BitVec.ofNat 64 r.desc.object
  let st := slotNow s c (localSlot id)
  let mine := shardOf id == c.spec.shard && decide (localSlot id < c.spec.slots) && st.gen == genOf id
  match recordedOutcome c r.mgr with
  | some o => finish r o s
  | none =>
    if mine && st.isLive then (if pendingFull s || !bufferRoom s (sysCtrl s) 64 then s else applyDelete c r id st s)
    else if mine && st.isDeleted then finish r { status := 0 } s
    else finish r (rejected 0x28) s

/-- DELETE_APPEND (R300). -/
def execDeleteAppend (ticket : Ticket) (s : State) : Host.Outcome State Fault Refusal :=
  .next (whenServing s fun s => match findReq s ticket with
    | some r => match collReady s r.desc.coll with
      | some c => if r.place != .mutation || r.desc.type != 8 || earlierMutation s r then s else deleteNow c r s
      | none => s
    | none => s)

/-! ### PENDING_DRAIN (R295) -/

/-- A pending change that no running step may still have to miss. -/
def drainable (s : State) (p : Pending) : Bool := !(s.job.steps.any fun k => ticketLt k.start p.ticket)

/-- Write the slot states whose steps have all ended. -/
def drainColl (c : Coll) (s : State) : State :=
  let gone := c.pending.filter (drainable s)
  let s := gone.foldl (fun s p => writeSlot c p.slot p.state s) s
  setColl { c with pending := c.pending.filter fun p => !drainable s p } s

/-- PENDING_DRAIN. -/
def execPendingDrain (coll : Nat) (s : State) : Host.Outcome State Fault Refusal :=
  .next (whenServing s fun s => match findColl s coll with
    | some c => drainColl c s
    | none => s)

end Sys2Proof.Machine
end

