-- ==== Sys2Proof/Machine/Folds.lean ====
section
/-! DEFINITION. Folds, publication of an index version, compaction, checkpoints and restoration (12 R302 to R308; 16 R408
to R412). -/

namespace Sys2Proof.Machine

/-! ### What a fold reads -/

/-- Slots deleted as visible at a fold ticket (R303 step 2). -/
def deletedAt (s : State) (c : Coll) (f : Ticket) : List Nat := slotsWhere c fun n => (slotAt s c f n).isDeleted

/-- Slots whose passages stand in the Scree list from position `p` on. -/
def screeSlots (s : State) (c : Coll) (p : Nat) : List Nat :=
  ((List.range (c.screeTail - p)).map fun i => screeId s c (p + i)).filterMap fun id =>
    if (slotNow s c (localSlot id)).gen = genOf id then some (localSlot id) else none

/-- A slot as a fold sees it: as at the fold ticket, without the passages that stay in the Scree list (R311). -/
def foldSlot (s : State) (c : Coll) (f : Fold) (later : List Nat) (n : Nat) : SlotState :=
  let st := slotNow s c n
  if later.contains n then { st with live := false, tomb := false }
  else if st.holds && !f.deleted.contains n then { st with tomb := false } else st

/-- The score of one passage against another (R283, R303). -/
def foldScore (s : State) (c : Coll) (a b : Nat) : W32 :=
  exactScore c.par.metric (prepareQuery c.par.metric (slotVector s c b)).1 (slotVector s c a)

/-- A fold's view of the graph built so far, scoring against node `n`. -/
def foldView (s : State) (c : Coll) (f : Fold) (later : List Nat) (n : Nat) : SearchView :=
  { slots := c.spec.slots, degree := c.par.degree, shard := c.spec.shard, slot := foldSlot s c f later,
    edges := edgesOf s c f.records, score := fun a => foldScore s c a n }

/-- Edges of a node that lead somewhere (R287). -/
def goodEdges (v : SearchView) (n : Nat) : List W64 := (v.edges n).filter fun e => e != noEdge && !v.staleEdge e

def setRecord (n : Nat) (es : List W64) (rs : List (Nat × List W64)) : List (Nat × List W64) := upsert (·.1 == n) (n, es) rs

/-- Nodes outside the deleted set with an edge into it (R303 step 3). -/
def repairSet (s : State) (c : Coll) (f : Fold) : List Nat :=
  let v := foldView s c f (screeSlots s c f.eEnd) 0
  slotsWhere c fun n => (v.slot n).isLive && !f.deleted.contains n && (goodEdges v n).any fun e => f.deleted.contains (localSlot e)

/-- Node records that the overlay area holds (R276, R411; log 37). -/
def overlayRecords (s : State) (c : Coll) : Nat :=
  let bytes := ((residentObj s c.spec.adjacency).map fun o => pageBytes * o.place.size).getD 0
  (bytes - twoMib (8 * c.spec.slots * c.par.degree)) / (8 + 8 * c.par.degree) - c.overlay.length

/-- Parameters of the collection under the active plan (R311). -/
def collPar (s : State) (c : Coll) : SearchRec := ((activePlan s).bind (·.search? c.id)).getD c.par

/-! ### Units (R303 steps 4 to 6) -/

/-- Records of a repair unit. -/
def repairUnit (s : State) (c : Coll) (f : Fold) : List (Nat × List W64) :=
  let later := screeSlots s c f.eEnd
  ((f.repair.drop f.next).take 4096).map fun n =>
    let v := foldView s c f later n
    let mine := goodEdges v n
    let far := mine.filter fun e => f.deleted.contains (localSlot e)
    let cands := (mine ++ far.flatMap fun e => goodEdges v (localSlot e)).filter fun e => !f.deleted.contains (localSlot e)
    (n, selectEdges v (foldScore s c) (v.idOf n) cands)

/-- Link one Scree position in: what it adds to the unit's records and to the graph. -/
def insertOne (s : State) (c : Coll) (p : Nat) (x : Fold × List (Nat × List W64)) : Fold × List (Nat × List W64) :=
  let f := x.1
  let id := screeId s c p
  let n := localSlot id
  let v := foldView s c f (screeSlots s c f.eEnd) n
  if !(v.slot n).isLive || (v.slot n).gen != genOf id || f.deleted.contains n || !decide (n < c.spec.slots) then x
  else
    let waiting := screeSlots s c p
    let entry := (lowestSlot c fun m => (v.slot m).isLive && !waiting.contains m).map v.idOf
    let k := collPar s c
    let found := (walkFrom v none k.refine k.beam k.expand entry).kept.map (·.payload)
    let es := selectEdges v (foldScore s c) id found
    let put (m : Nat) (rs : List W64) (y : Fold × List (Nat × List W64)) : Fold × List (Nat × List W64) :=
      ({ y.1 with records := setRecord m rs y.1.records }, setRecord m rs y.2)
    es.foldl (fun y e =>
      let m := localSlot e
      let v := foldView s c y.1 (screeSlots s c y.1.eEnd) m
      let old := (v.edges m).filter (· != noEdge)
      if old.contains id then y
      else if old.length < c.par.degree then put m (old ++ [id]) y
      else put m (selectEdges v (foldScore s c) e (old ++ [id])) y) (put n es x)

/-- Records of an insert unit. -/
def insertUnit (s : State) (c : Coll) (f : Fold) : List (Nat × List W64) :=
  ((List.range (min 256 (f.eEnd - f.next))).foldl (fun x i => insertOne s c (f.next + i) x) (f, [])).2

/-- Bytes of a fold-journal entry (R411). -/
def foldEntryLen (c : Coll) (e : FoldEnt) : Nat :=
  let body := if e.kind = 1 then 24 else if e.kind = 2 then e.records.length * (8 + 8 * c.par.degree) else if e.kind = 3 then 20 else 4
  roundUp (40 + body) 64

/-- Write and commit a fold-journal entry (R411). -/
def foldJournal (c : Coll) (e : FoldEnt) (s : State) : State :=
  bufferWrite (sysCtrl s) .foldJournal c.id 0 (foldEntryLen c e) { s with stk.foldJournal := s.stk.foldJournal ++ [e] }

/-- The step after a unit, and its place (R303). -/
def foldNext (c : Coll) (f : Fold) : Fold :=
  match f.step with
  | 4 => if f.next + 4096 < f.repair.length then { f with next := f.next + 4096 } else { f with step := 5, next := 0 }
  | 5 => if c.screeBase < f.eEnd then { f with step := 6, next := c.screeBase } else { f with step := 7, next := 0 }
  | 6 => if f.next + 256 < f.eEnd then { f with next := f.next + 256 } else { f with step := 7, next := 0 }
  | _ => f

/-- Records of a fold's next unit, and its kind. -/
def foldUnit (s : State) (c : Coll) (f : Fold) : Nat × List (Nat × List W64) :=
  if f.step = 4 then (0, repairUnit s c f)
  else if f.step = 5 then (1, f.deleted.map fun n => (n, []))
  else (2, insertUnit s c f)

/-- Records written over those of earlier units. -/
def overRecords (new old : List (Nat × List W64)) : List (Nat × List W64) := new.foldl (fun rs r => setRecord r.1 r.2 rs) old

/-- Commit a fold's next unit, then write its records to the overlay (R305). -/
def commitUnit (c : Coll) (f : Fold) (s : State) : State :=
  let u := foldUnit s c f
  let e : FoldEnt := ⟨c.id, 2, u.1, f.ticket, f.units, u.2, f.eEnd, c.screeBase, c.version + 1, u.2.length, 0⟩
  let f := foldNext c { f with records := overRecords u.2 f.records, units := f.units + 1 }
  foldJournal c e (setColl { c with fold := some f } s)

/-! ### FOLD_START (R303 steps 1 to 3, R307) -/

/-- The collection has nothing to fold. -/
def nothingToFold (s : State) (c : Coll) : Bool :=
  c.version != 0 && (c.par.degree == 0 || c.screeTail == c.screeBase) && (slotsWhere c fun n => (slotNow s c n).isDeleted).isEmpty

/-- E′ of R303 step 3: none where the repair set alone does not fit. -/
def foldEnd (c : Coll) (room repair e : Nat) : Option Nat :=
  if room < repair then none else some (min e (c.screeBase + (room - repair) / (c.par.degree + 1)))

/-- Steps 2 and 3 of R303: the fold's start stands in the journal and the collection holds it. -/
def beginFold (c : Coll) (f : Fold) (s : State) : State :=
  let e : FoldEnt := ⟨c.id, 1, 0, f.ticket, 0, [], f.eEnd, c.screeBase, c.version + 1, f.deleted.length, 0⟩
  foldJournal c e (setColl { c with fold := some f } s)

/-- The fold starts where its end was found, and is rejected where its repairs alone do not fit (R303 step 2, R411). -/
def fitFold (c : Coll) (r : Req) (f : Fold) (last : Option Nat) (s : State) : State :=
  match last with
  | none => finish r (rejected 6) (setColl c s)
  | some e => beginFold c { f with eEnd := e, step := if f.repair.isEmpty then 5 else 4 } s

/-- A fold that takes its ticket (R303 steps 2 and 3). -/
def newFold (c : Coll) (r : Req) (s : State) : State :=
  stamped s fun s t =>
    let f : Fold := { ticket := t, request := r.ticket, eEnd := c.screeTail, step := 4, next := 0, units := 0, repair := [],
                      deleted := deletedAt s c t, records := [], running := true, committed := false }
    let c := { c with folded := true }
    if c.par.degree = 0 then beginFold c { f with step := 7, eEnd := 0 } s
    else
      let f := { f with repair := repairSet s c f }
      fitFold c r f (foldEnd c (overlayRecords s c) f.repair.length f.eEnd) s

/-- The FOLD of a collection that runs next (R307). -/
def nextFold (s : State) (coll : Nat) : Option Req :=
  (sortBy (fun a b => ticketLe a.ticket b.ticket)
    (s.job.reqs.filter fun r => r.place == .fold && r.desc.coll == coll && (s.srch.colls.all fun c => (c.fold.map (·.request)) != some r.ticket))).head?

/-- A FOLD at step 1. -/
def startFold (c : Coll) (r : Req) (s : State) : State :=
  match recordedOutcome c r.mgr with
  | some o => finish r o s
  | none =>
    if c.old.isSome || c.compacting then s
    else match c.fold with
      | some f => setColl { c with fold := some { f with running := true, request := r.ticket } } s
      | none =>
        if nothingToFold s c then finish r { status := 0, result0 := BitVec.ofNat 64 c.version } s
        else newFold c r s

/-- A collection's fold runs on. -/
def foldRuns (c : Coll) : Bool := (c.fold.map (·.running)).getD false

/-- FOLD_START. -/
def execFoldStart (coll : Nat) (s : State) : Host.Outcome State Fault Refusal :=
  .next (whenServing s fun s => match collReady s coll, nextFold s coll with
    | some c, some r => if foldRuns c then s else startFold c r s
    | _, _ => s)

/-- FOLD_UNIT_COMMIT (R303 to R305). -/
def execFoldUnitCommit (coll : Nat) (s : State) : Host.Outcome State Fault Refusal :=
  .next (whenServing s fun s => match collReady s coll with
    | some c => match c.fold with
      | some f => if f.running && f.step < 7 && bufferRoom s (sysCtrl s) 64 then commitUnit c f s else s
      | none => s
    | none => s)

/-! ### FOLD_PUBLISH (R303 step 7, R306) -/

/-- The entry of a version with `scree_base` p: the lowest LIVE slot in its graph (R302). -/
def entryOf (s : State) (c : Coll) (f : Fold) : Option W64 :=
  if c.par.degree = 0 then none
  else
    let later := screeSlots s c f.eEnd
    (lowestSlot c fun n => (slotNow s c n).isLive && !later.contains n && !f.deleted.contains n).map fun n =>
      passageId (slotNow s c n).gen c.spec.shard n

/-- Commit the publication in the fold journal. -/
def commitPublication (c : Coll) (f : Fold) (s : State) : State :=
  let e : FoldEnt := ⟨c.id, 3, 0, f.ticket, f.units, [], f.eEnd, c.screeBase, c.version + 1, 0, (entryOf s c f).getD noEdge⟩
  foldJournal c e (setColl { c with fold := some { f with committed := true } } s)

/-- The entry that a fold's PUBLISH entry names. -/
def committedEntry (s : State) (c : Coll) (f : Fold) : Option W64 :=
  ((s.stk.foldJournal.find? fun e => e.coll == c.id && e.kind == 3 && e.fold == f.ticket).map (·.entry)).filter (· != noEdge)

/-- The collection after the switch of R306. -/
def switched (s : State) (c : Coll) (f : Fold) (mgr : List Ticket) : Coll :=
  { c with version := c.version + 1, entry := committedEntry s c f,
           screeBase := if c.par.degree = 0 then c.screeBase else f.eEnd,
           overlay := f.records, fold := none,
           old := some ⟨c.version, c.screeBase, c.entry, f.deleted, f.ticket⟩,
           recorded := c.recorded ++ mgr.map fun t => (t, 0, BitVec.ofNat 64 (c.version + 1)) }

/-- The switch, at one ticket (R306). -/
def publishFold (c : Coll) (f : Fold) (s : State) : State :=
  stamped s fun s _ =>
    let r := findReq s f.request
    let s := setColl (switched s c f (r.toList.map (·.mgr))) s
    match r with
    | some r => finish r { status := 0, result0 := BitVec.ofNat 64 (c.version + 1) } s
    | none => s

/-- A SEARCH step is running: the switch waits for its end (R303 step 7). -/
def searchRunning (s : State) : Bool :=
  s.job.steps.any fun k => match planSet s k.epoch with
    | some q => k.stages.any fun n => kindOf q.plan n == 1
    | none => false

/-- FOLD_PUBLISH. -/
def execFoldPublish (coll : Nat) (s : State) : Host.Outcome State Fault Refusal :=
  .next (whenServing s fun s => match collReady s coll with
    | some c => match c.fold with
      | some f =>
        if !f.running || f.step != 7 then s
        else
          let s := if f.committed then s else commitPublication c f s
          if searchRunning s then s
          else match findColl s coll with
            | some c => publishFold c f s
            | none => s
      | none => s
    | none => s)

/-! ### VERSION_RETIRE and COMPACTION_DONE (R306) -/

/-- A slot freed at retirement. -/
def freedSlot (st : SlotState) : SlotState :=
  if st.gen = 255 then ⟨255, false, true, 0⟩ else ⟨st.gen + 1, false, false, 0⟩

/-- Free one slot of the deleted set: its state word, its RELEASE entry, its record (R306 step 2, R407, R408). -/
def releaseSlot (c : Coll) (t : Ticket) (n : Nat) (s : State) : State :=
  let st := freedSlot (slotNow s c n)
  let s := logChange ⟨c.id, 2, 0, t, BitVec.ofNat 64 n, 0, [], 0, st⟩ (writeSlot c n st s)
  { s with stk.records := s.stk.records.filter fun r => !(r.coll == c.id && r.slot == n) }

/-- A version that a step or a request still holds (R105, R296). -/
def versionHeld (s : State) (coll version : Nat) : Bool :=
  s.job.steps.any (fun k => k.pins.contains (coll, version)) || s.job.reqs.any fun r => r.holds.contains (coll, version)

/-- Retire a version. -/
def retireVersion (c : Coll) (o : OldVersion) (s : State) : State :=
  stamped s fun s t =>
    let s := o.deleted.foldl (fun s n => releaseSlot c t n s) s
    setColl { c with pending := c.pending.filter fun p => !o.deleted.contains p.slot, old := some { o with deleted := [] },
                     compacting := true } s

/-- VERSION_RETIRE. -/
def execVersionRetire (coll : Nat) (s : State) : Host.Outcome State Fault Refusal :=
  .next (whenServing s fun s => match collReady s coll with
    | some c => match c.old with
      | some o => if c.compacting || versionHeld s coll o.version then s else retireVersion c o s
      | none => s
    | none => s)

/-- Copy the overlay into the base array, end the fold's journal and begin a checkpoint (R306 step 3, R409, R411). -/
def compact (c : Coll) (o : OldVersion) (s : State) : State :=
  let s := c.overlay.foldl (fun s r => writeNode c r.1 r.2 s) s
  let released := (s.stk.logs.filter fun e => e.coll == c.id && e.kind == 2 && ticketLt o.fold e.stamped).length
  let s := setColl { c with overlay := [], compacting := false, old := none } s
  let s := foldJournal c ⟨c.id, 4, 0, o.fold, 0, [], 0, 0, c.version, released, 0⟩ s
  stamped s fun s t =>
    let kept := s.stk.checkpoints.filter fun k => k.coll != c.id || k.committed
    { s with stk.checkpoints := kept ++ [⟨c.id, t, c.version, false, [], c.screeBase, c.screeTail, c.entry, c.recorded⟩] }

/-- COMPACTION_DONE. -/
def execCompactionDone (coll : Nat) (s : State) : Host.Outcome State Fault Refusal :=
  .next (whenServing s fun s => match collReady s coll with
    | some c => match c.old with
      | some o => if c.compacting then compact c o s else s
      | none => s
    | none => s)

/-! ### Checkpoints (R409) -/

/-- Cells of a resident object, by object offset. -/
def objCells (s : State) (id : Nat) : List Host.Cell :=
  match residentObj s id with
  | some o => (List.range (pageBytes * o.place.size)).filterMap fun i =>
      let b := (peekByte s (o.addr i)).1
      if b = 0 then none else some (i, b)
  | none => []

/-- Objects that a checkpoint copies. -/
def checkpointObjects (c : Coll) : List Nat :=
  [c.spec.codes, c.spec.vectors, c.spec.adjacency, c.spec.scree].filter (· != 0xFFFFFFFF)

/-- A block is left for system-area data (R404). -/
def anyFreeBlock (s : State) : Bool := s.stk.ctrls.any fun c => c.blocks.any fun b => b.use == .free

/-- Commit a checkpoint, with what it frees: the one before it, log entries below C, and folds done before C. -/
def commitCheckpoint (c : Coll) (k : Checkpoint) (s : State) : State :=
  let k := { k with committed := true, objects := (checkpointObjects c).map fun id => (id, objCells s id) }
  let s := bufferWrite (sysCtrl s) .checkpoint c.id 0 64 s
  let done (f : Ticket) : Bool := s.stk.foldJournal.any fun e => e.coll == c.id && e.kind == 4 && e.fold == f
  { s with stk.checkpoints := (s.stk.checkpoints.filter fun x => x.coll != c.id) ++ [k],
           stk.logs := s.stk.logs.filter fun e => e.coll != c.id || !ticketLt e.stamped k.start,
           stk.foldJournal := s.stk.foldJournal.filter fun e => e.coll != c.id || !done e.fold }

/-- CHECKPOINT_COMMIT. -/
def execCheckpointCommit (coll : Nat) (s : State) : Host.Outcome State Fault Refusal :=
  .next (whenServing s fun s => match collReady s coll, s.stk.checkpoints.find? fun k => k.coll == coll && !k.committed with
    | some c, some k =>
      if anyFreeBlock s then (if bufferRoom s (sysCtrl s) 64 then commitCheckpoint c k s else s)
      else
        let s := { s with stk.checkpoints := s.stk.checkpoints.filter fun x => x.coll != coll || x.committed }
        stamped s fun s t => event t 0x33 devLoc coll 1 0 0 [] s
    | _, _ => s)

/-! ### COLLECTION_RESTORE (R410, R412) -/

/-- Load a checkpoint's objects: every byte of each (R410 step 1). -/
def loadObjects (k : Checkpoint) (s : State) : State :=
  k.objects.foldl (fun s x => match residentObj s x.1 with
    | some o => objPut x.1 0 ((List.range (pageBytes * o.place.size)).map (cellGet unwritten x.2)) s
    | none => s) s

/-- Replay one collection-log entry: whole values to fixed places. -/
def replayLog (x : Coll × State) (e : CollLog) : Coll × State :=
  let c := x.1
  let s := x.2
  match e.kind with
  | 0 =>
    let n := localSlot e.id
    ({ c with screeTail := if c.par.degree = 0 then c.screeTail else max c.screeTail (e.pos + 1),
              recorded := upsert (·.1 == e.ticket) (e.ticket, 0, e.id) c.recorded },
     writeSlot c n e.state (writeVector c n e.id e.pos e.vector s))
  | 1 => ({ c with recorded := upsert (·.1 == e.ticket) (e.ticket, 0, 0) c.recorded }, writeSlot c (localSlot e.id) e.state s)
  | _ => (c, writeSlot c (localSlot e.id) e.state s)

/-- Deleted slots of a fold that is not done: those deleted at its ticket and not yet released. -/
def deletedBefore (s : State) (c : Coll) (f : Ticket) : List Nat :=
  slotsWhere c fun n => (storedSlot s c n).isDeleted &&
    !(s.stk.logs.any fun e => e.coll == c.id && e.kind == 1 && localSlot e.id == n && ticketLt f e.stamped)

/-- Replay one fold of the journal from its BEGIN entry (R412). -/
def replayFold (x : Coll × State) (b : FoldEnt) : Coll × State :=
  let c := x.1
  let s := x.2
  let mine := s.stk.foldJournal.filter fun e => e.coll == c.id && e.fold == b.fold
  let units := mine.filter (·.kind == 2)
  let records := units.foldl (fun rs e => overRecords e.records rs) []
  let pub := mine.find? (·.kind == 3)
  let deleted := deletedBefore s c b.fold
  match pub, mine.any (·.kind == 4) with
  | some p, true =>
    ({ c with version := b.version, screeBase := if c.par.degree = 0 then c.screeBase else b.eprime,
              entry := if p.entry = noEdge then none else some p.entry },
     records.foldl (fun s r => writeNode c r.1 r.2 s) s)
  | some p, false =>
    ({ c with version := b.version, screeBase := if c.par.degree = 0 then c.screeBase else b.eprime,
              entry := if p.entry = noEdge then none else some p.entry, overlay := records,
              old := some ⟨b.version - 1, b.base, c.entry, deleted, b.fold⟩ }, s)
  | none, _ =>
    let f : Fold := { ticket := b.fold, request := 0, eEnd := b.eprime, step := 4, next := 0, units := 0, repair := [],
                      deleted := deleted, records := [], running := false, committed := false }
    let f := if c.par.degree = 0 then { f with step := 7 }
      else
        let g := { f with repair := repairSet s c f }
        { g with step := if g.repair.isEmpty then 5 else 4 }
    let f := units.foldl (fun f _ => foldNext c f) f
    ({ c with fold := some { f with records := records, units := units.length } }, s)

/-- Restore a collection. -/
def restoreColl (c : Coll) (s : State) : State :=
  let k := (s.stk.checkpoints.filter fun x => x.coll == c.id && x.committed).getLast?
  let base : Coll := match k with
    | some k => { c with version := k.version, entry := k.entry, screeBase := k.screeBase, screeTail := k.screeTail, recorded := k.recorded }
    | none => { c with version := 0, entry := none, screeBase := 0, screeTail := 0, recorded := [] }
  let base := { base with old := none, overlay := [], compacting := false, fold := none, pending := [] }
  let s := match k with
    | some k => loadObjects k s
    | none => s
  let since (t : Ticket) : Bool := (k.map fun x => !ticketLt t x.start).getD true
  let x := (s.stk.logs.filter fun e => e.coll == c.id && since e.stamped).foldl replayLog (base, s)
  let y := (s.stk.foldJournal.filter fun e => e.coll == c.id && e.kind == 1).foldl replayFold x
  setColl { y.1 with restoring := false } y.2

/-- COLLECTION_RESTORE: in ascending `collection_id`. -/
def execCollectionRestore (coll : Nat) (s : State) : Host.Outcome State Fault Refusal :=
  .next (whenServing s fun s => match findColl s coll with
    | some c => if c.restoring && s.stk.ready && !(s.srch.colls.any fun d => d.restoring && decide (d.id < coll)) then restoreColl c s else s
    | none => s)

end Sys2Proof.Machine
end

