-- ==== Sys2Proof/Machine/Haul.lean ====
section
/-! DEFINITION. Reads with their repair (15 R375 to R377; 19 R495 to R497), host memory transactions (17 R452), and the Haul
engines (15 R378 to R382). -/

namespace Sys2Proof.Machine

/-! ### Reads with repair -/

/-- Event record location of a word (R504; log 38). -/
def wordLoc (s : State) (tier unit off : Nat) : Loc :=
  if tier = 0 then { kind := 2, unit := unit }
  else
    let m := s.mem.modules.getD unit none
    { kind := 3, unit := unit, sub := match m with
      | some m => if m.ranks = 2 && decide (m.gib * 2 ^ 29 ≤ off) then 1 else 0
      | none => 0 }

def sparedRecord (tier unit off : Nat) (s : State) : State :=
  stamped { s with mem.rowSpared := satInc s.mem.rowSpared } fun s t =>
    event t 0x10 (wordLoc s tier unit off) 0 2 4 (BitVec.ofNat 64 off) [] s

def exhaustedRecord (tier unit off code : Nat) (s : State) : State :=
  stamped s fun s t => event t 0x12 (wordLoc s tier unit off) code 2 0 (BitVec.ofNat 64 off) [] s

/-- The lowest unused spare unit of a stack. -/
def spareUnit (s : State) (stack : Nat) : Nat :=
  let used := (s.mem.remap.filter (·.1 == stack)).map (·.2.2)
  (firstFrom (fun k => !used.contains k) (used.length + 1) 0).getD 0

/-- Copy the words of an 8 KiB block into its spare unit and enter it in the remap table (R495). -/
def spareBlock (stack blk : Nat) (s : State) : State :=
  let words := (List.range 2048).map fun i => peekWord s 0 stack (8192 * blk + 4 * i)
  let k := spareUnit s stack
  let s := { s with mem.remap := upsert (fun (r : Nat × Nat × Nat) => r.1 == stack && r.2.1 == blk) (stack, blk, k) s.mem.remap }
  (words.mapIdx fun i w => (i, w)).foldl (fun s x => putWord 0 stack (8192 * blk + 4 * x.1) (w40 x.2.1 x.2.2) s) s

/-- Spare the row of a lasting error (R495 to R497); `repair` says how a DRAM repair goes. -/
def spareRow (tier unit off repair : Nat) (s : State) : State :=
  if tier = 0 then
    let full := decide (4096 ≤ (s.mem.remap.filter (·.1 == unit)).length) && (spareOf s unit (off / 8192)).isNone
    if full then exhaustedRecord tier unit off 0 s else sparedRecord tier unit off (spareBlock unit (off / 8192) s)
  else if repair = 0 then
    let serial := ((s.mem.modules.getD unit none).map (·.serial)).getD 0
    sparedRecord tier unit off { s with mem.ppr := s.mem.ppr ++ [(unit, off, serial)] }
  else exhaustedRecord tier unit off repair s

/-- Moves with an end in the frame of a word are abandoned by a lasting fault there (R382). -/
def movesAt (s : State) (tier unit off : Nat) : List Move :=
  s.haul.moves.filter fun m =>
    (m.tier == tier && m.unit == unit && m.frame == off / pageBytes) ||
    s.mem.pages.any fun p => p.page == m.page && p.tier == tier && p.unit == unit && p.frame == off / pageBytes

/-- A read of one word as it stands with some of its bits inverted: write-back, the second read, and what a lasting or an
uncorrectable error does (R376). The flag tells a lasting error. -/
def resolveWord (tier unit off : Nat) (u : Upset) (s : State) : State × Bool :=
  let raw := rawWord s tier unit off ^^^ u.mask
  match eccRead raw with
  | .clean _ _ => (s, false)
  | .corrected d p =>
    let s := putWord tier unit off (w40 d p) s
    let again := if u.lasting then eccRead (w40 d p ^^^ u.mask) else eccRead (w40 d p)
    match again with
    | .corrected _ _ => (spareRow tier unit off u.repair s, true)
    | _ => ({ s with mem.eccCorrected := satInc s.mem.eccCorrected }, false)
  | .uncorrectable =>
    let s := { putWord tier unit off (w40 (W40.data raw) true) s with mem.eccUncorrected := satInc s.mem.eccUncorrected }
    (stamped s fun s t => event t 0x11 (wordLoc s tier unit off) 0 1 8 (BitVec.ofNat 64 off) [] s, false)

/-! ### Host memory transactions (R365, R452) -/

/-- `addr` and `len` keep the rules of R452. -/
def accessAligned (addr : W64) (len : W32) : Bool :=
  regBits addr 0 2 == 0 && regBits addr 52 12 == 0 && len.toNat % 4 == 0 && decide (4 ≤ len.toNat) && decide (len.toNat ≤ 65536)

/-- A byte range meets bytes `lo` to `hi − 1` of a resident object. -/
def meetsObj (s : State) (addr len id lo hi : Nat) : Bool :=
  match residentObj s id with
  | some o => decide (o.place.tier < 2) && decide (addr < o.addr hi) && decide (o.addr lo < addr + len)
  | none => false

/-- A region of a table that writes may not change (R266). -/
def regionClosed (t : Table) (r : Nat) : Bool :=
  match t.state r with
  | .live | .retiring => true
  | .build => t.busy.isSome
  | .free => false

/-- A write is closed off: the locked staging region, a table's region, a folded collection's objects (R71, R266, R282). -/
def writeClosed (s : State) (addr len : Nat) : Bool :=
  ((s.cfg.load.isSome || s.rst.fwLoad.isSome) && decide (stagingAddr < addr + len)) ||
  (s.gth.tables.any fun t => !t.spec.remote && [0, 1].any fun r => regionClosed t r &&
    [t.spec.table, t.spec.dir].any fun id =>
      let h := halfBytes s id
      meetsObj s addr len id (r * h) ((r + 1) * h)) ||
  (s.srch.colls.any fun c => c.folded && (checkpointObjects c).any fun id =>
    meetsObj s addr len id 0 (((residentObj s id).map fun o => pageBytes * o.place.size).getD 0))

/-- The move of a page that a range touches, if one runs. -/
def rangeMove (s : State) (addr len : Nat) : Option Move :=
  s.haul.moves.find? fun m => decide (addr < pageBytes * (m.page + 1)) && decide (pageBytes * m.page < addr + len)

def setHaulMove (m : Move) (s : State) : State := { s with haul.moves := s.haul.moves.map fun x => if x.page = m.page then m else x }

/-- An access waits for a page's switch (R380). -/
def waitMove (m : Move) (i : Instr) (s : State) : State :=
  { setHaulMove { m with waiting := m.waiting ++ [i] } s with mem.motionWaits := satInc s.mem.motionWaits }

/-- Apply the upsets that stand in the words of a range. -/
def applyUpsets (addr len : Nat) (us : List Upset) (s : State) : State × List (Nat × Nat × Nat) :=
  let here (u : Upset) : Bool := (List.range (len / 4)).any fun i => locate s (addr + 4 * i) == some (u.tier, u.unit, u.off)
  (us.filter here).foldl (fun x u =>
    if unitUp x.1 u.tier u.unit then
      let r := resolveWord u.tier u.unit u.off u x.1
      (r.1, if r.2 then x.2 ++ [(u.tier, u.unit, u.off)] else x.2)
    else x) (s, [])

/-- Abandon a move: the page keeps its home (R380). -/
def dropMove (m : Move) (s : State) : State :=
  let s := { s with haul.moves := s.haul.moves.filter (·.page != m.page),
                    mem.pages := s.mem.pages.map fun (p : Page) => if p.page = m.page then { p with motion := false } else p,
                    mem.haulAbort := satInc s.mem.haulAbort }
  stamped s fun s t => event t 0x15 devLoc s.haul.pointId.toNat 1 0 (BitVec.ofNat 64 m.page) [] s

/-- RD (R452): its answer, or a wait. -/
def readAccess (src : Node) (txn : W16) (addr : W64) (len : W32) (us : List Upset) (s : State) : State × List Move :=
  let a := addr.toNat
  let n := len.toNat
  let fail (st : Nat) : State × List Move := (send src txn 0 (.rdData st []) s, [])
  if !accessAligned addr len then fail 4
  else if 3 ≤ s.pwr.state then fail 2
  else if !rangeMapped s a n then fail 1
  else match rangeMove s a n with
    | some m => (waitMove m (.memRd src txn addr len us) s, [])
    | none =>
      let r := applyUpsets a n us s
      let b := peekBytes r.1 a n
      (send src txn 0 (if b.2 then .rdData 3 [] else .rdData 0 b.1) r.1, r.2.flatMap fun w => movesAt r.1 w.1 w.2.1 w.2.2)

/-- WR (R452): one that would leave a whole weight object failing its checks is refused and writes nothing (R61, R176; log
49). -/
def writeAccess (src : Node) (txn : W16) (addr : W64) (len : W32) (data : List Byte) (s : State) : State :=
  let a := addr.toNat
  let n := len.toNat
  let answer (st : Nat) (s : State) : State := send src txn 0 (.wrAck st) s
  if !accessAligned addr len || data.length != n then answer 4 s
  else if 3 ≤ s.pwr.state then answer 2 s
  else if !rangeMapped s a n then answer 1 s
  else if writeClosed s a n then answer 2 s
  else match rangeMove s a n with
    | some m => waitMove m (.memWr src txn addr len data) s
    | none => match noteWrite a n (pokeBytes a data s) with
      | some t => answer 0 t
      | none => answer 2 s

/-- Accesses that waited for a page are served (R380); one that meets another move waits there. -/
def serveAccess (i : Instr) (s : State) : State :=
  match i with
  | .memRd src txn addr len us => (readAccess src txn addr len us s).1
  | .memWr src txn addr len data => writeAccess src txn addr len data s
  | _ => s

def serveWaiting (m : Move) (s : State) : State := m.waiting.foldl (fun s i => serveAccess i s) s

/-- The point goes on, or the next one starts, when no page of it is left (R378, R380). -/
def pointNext (s : State) : State :=
  if s.haul.running.isSome && s.haul.todo.isEmpty && s.haul.moves.isEmpty then nextPoint s else s

/-- Abandon a move and serve what waited for it. -/
def abandonMove (m : Move) (s : State) : State := pointNext (serveWaiting m (dropMove m s))

/-- Memory transactions are served: in service, in every power state, and in recovery (R533, R551). -/
def memServing (s : State) : Bool := (s.life == .ready && !s.wb.seqStop) || s.life == .recovery

/-- MEM_RD (R452, R376). -/
def execMemRd (src : Node) (txn : W16) (addr : W64) (len : W32) (upsets : List Upset) (s : State) : Host.Outcome State Fault Refusal :=
  .next (if memServing s then stampedIf s fun s _ =>
      let r := readAccess src txn addr len upsets s
      r.2.foldl (fun s m => abandonMove m s) r.1
    else s)

/-- MEM_WR (R452). -/
def execMemWr (src : Node) (txn : W16) (addr : W64) (len : W32) (data : List Byte) (s : State) : Host.Outcome State Fault Refusal :=
  .next (if memServing s then stampedIf s fun s _ => writeAccess src txn addr len data s else s)

/-- SCRUB: one word of a mapped frame (R377). -/
def execScrub (tier unit off : Nat) (upsets : List Upset) (s : State) : Host.Outcome State Fault Refusal :=
  .next (whenServing s fun s =>
    match upsets.find? fun u => u.tier == tier && u.unit == unit && u.off == off with
    | some u =>
      if unitUp s tier unit then
        let r := resolveWord tier unit off u s
        if r.2 then (movesAt r.1 tier unit off).foldl (fun s m => abandonMove m s) r.1 else r.1
      else s
    | none => s)

/-! ### The Haul engines (R378 to R380) -/

/-- The engine that makes a move from one home to another. -/
def engineOf (fromTier fromUnit toTier toUnit : Nat) : Nat :=
  if fromTier = 1 then (if fromUnit < 8 then 0 else 1)
  else if toTier = 1 then (if toUnit < 8 then 0 else 1)
  else if toUnit < 3 || (6 ≤ toUnit && toUnit < 9) then 0 else 1

/-- Ends of the running moves. -/
def busyEnds (s : State) : List (Nat × Nat) :=
  s.haul.moves.flatMap fun m => (m.tier, m.unit) :: ((s.mem.pages.filter fun p => p.page == m.page).map fun p => (p.tier, p.unit))

/-- An end may take one more move: one on a channel, two on a stack. -/
def endFree (s : State) (tier unit : Nat) : Bool :=
  decide (((busyEnds s).filter (· == (tier, unit))).length < if tier = 1 then 1 else 2)

/-- The next page an engine may start (R378). -/
def nextMove (s : State) (engine : Nat) : Option (Nat × Nat × Nat) :=
  s.haul.todo.find? fun x => match s.mem.pages.find? (·.page == x.1) with
    | some p => engineOf p.tier p.unit x.2.1 x.2.2 == engine && endFree s p.tier p.unit && endFree s x.2.1 x.2.2
    | none => false

/-- Start a move (R379 steps 1 and 2); a page that finds no frame at its destination is abandoned. -/
def startMove (engine : Nat) (x : Nat × Nat × Nat) (s : State) : State :=
  stamped s fun s _ =>
    let s := { s with haul.todo := s.haul.todo.filter (·.1 != x.1) }
    match lowestFrame s x.2.1 x.2.2 with
    | some f =>
      let m : Move := ⟨engine, x.1, x.2.1, x.2.2, f, s.now, []⟩
      { s with haul.moves := s.haul.moves ++ [m],
               mem.pages := s.mem.pages.map fun (p : Page) => if p.page = x.1 then { p with motion := true } else p }
    | none => abandonMove ⟨engine, x.1, x.2.1, x.2.2, 0, s.now, []⟩ s

/-- PAGE_MOVE_START (R378, R379). -/
def execPageMoveStart (engine : Nat) (s : State) : Host.Outcome State Fault Refusal :=
  .next (whenServing s fun s =>
    if s.haul.running.isNone || 8 ≤ (s.haul.moves.filter (·.engine == engine)).length then s
    else match nextMove s engine with
      | some x => startMove engine x s
      | none => s)

/-- Copy the first `n` words of a page, poison with them, from one frame to another (R379 step 2). -/
def copyFrame (p : Page) (m : Move) (n : Nat) (s : State) : State :=
  (List.range n).foldl (fun s i =>
    let w := peekWord s p.tier p.unit (pageBytes * p.frame + 4 * i)
    putWord m.tier m.unit (pageBytes * m.frame + 4 * i) (w40 w.1 w.2) s) s

/-- The page's words stand at its destination, which becomes its home (R379 step 3). -/
def landPage (p : Page) (m : Move) (s : State) : State :=
  let s := copyFrame p m (pageBytes / 4) s
  { s with mem.pages := s.mem.pages.map fun (q : Page) =>
      if q.page = m.page then { q with tier := m.tier, unit := m.unit, frame := m.frame, motion := false } else q }

/-- Land the page of a move, where the directory holds it in motion (R379 step 3). -/
def landed (m : Move) (s : State) : State :=
  match s.mem.pages.find? fun p => p.page == m.page && p.motion with
  | some p => landPage p m s
  | none => s

/-- Steps 3 and 4 of R379. -/
def switchPage (m : Move) (s : State) : State :=
  stamped s fun s _ =>
    let s := landed m s
    pointNext (serveWaiting m { s with haul.moves := s.haul.moves.filter (·.page != m.page) })

/-- PAGE_SWITCH (R379 step 3). -/
def execPageSwitch (page : Nat) (s : State) : Host.Outcome State Fault Refusal :=
  .next (whenServing s fun s => match s.haul.moves.find? (·.page == page) with
    | some m => if past s m.since 50000 then s else switchPage m s
    | none => s)

/-- HAUL_ABORT (R380). -/
def execHaulAbort (page : Nat) (s : State) : Host.Outcome State Fault Refusal :=
  .next (whenServing s fun s => match s.haul.moves.find? (·.page == page) with
    | some m => if past s m.since 50000 then abandonMove m s else s
    | none => s)

end Sys2Proof.Machine
end

