-- ==== Sys2Proof/Machine/Stockpile.lean ====
section
/-! DEFINITION. The Stockpile: its population and layout, write buffer, SLC buffer, log blocks, map journal, reads and
retirement, record blocks, format (16 R392 to R404, R407, R415, R422). -/

namespace Sys2Proof.Machine

/-! ### Population (R392, R393, R415) -/

/-- Targets of a controller's sixteen channels. -/
def ctrlTargets (p : NandPop) (ctrl : Nat) : List Nat := (p.targets.drop (16 * ctrl)).take 16

/-- LUNs of a controller. -/
def ctrlLuns (p : NandPop) (ctrl : Nat) : Nat := (ctrlTargets p ctrl).sum * p.luns

/-- R392. -/
def popOk (p : NandPop) : Bool :=
  p.samePart && p.rateOk && decide (p.cell ≤ 2) && p.targets.all (· ≤ 16) && [1, 2, 4].contains p.luns && [2, 4].contains p.planes &&
  p.pageBytes == 16384 && decide (2048 ≤ p.spareBytes) && decide (p.gibPerTarget ≤ 256) && (p.cell == 0 || p.slcModeOk) &&
  decide (p.tProgSlcUs ≤ 400) && decide (p.tProgUs ≤ 6000) && decide (p.tRUs ≤ 100) && decide (p.tBersUs ≤ 25000) &&
  decide (7 ≤ p.retryLevels)

/-- Rate of a controller in bytes a second (R415). -/
def ctrlRate (p : NandPop) (ctrl : Nat) : Nat :=
  ((ctrlTargets p ctrl).map fun n =>
    if n = 0 || p.tProgSlcUs = 0 then 0 else min 2160000000 (n * p.luns * p.planes * 16384 * 1000000 / p.tProgSlcUs)).sum

/-- The flush bound with a write buffer of `b` bytes is at most `us` (R415). -/
def flushWithin (p : NandPop) (rate b us : Nat) : Bool :=
  decide ((10 + p.tProgUs + p.tProgSlcUs) * rate + (65 * mib + b) * 1000000 ≤ us * rate)

/-- The flush bound in µs, rounded up (R415). -/
def flushBound (p : NandPop) (rate b : Nat) : Nat :=
  10 + p.tProgUs + p.tProgSlcUs + (if rate = 0 then 0 else ceilDiv ((65 * mib + b) * 1000000) rate)

/-- Write buffer cap in MiB: the largest multiple of 2 MiB, at most 512, within 70 ms (R415). -/
def bufferCap (p : NandPop) (rate : Nat) : Nat :=
  (((List.range 257).map (2 * ·)).filter fun b => flushWithin p rate (b * mib) 70000).getLastD 0

/-- A controller has no LUN, or meets R393. -/
def ctrlOk (s : State) (p : NandPop) (ctrl : Nat) : Bool :=
  !(ctrlChannels s ctrl).isEmpty && (ctrlRate p ctrl == 0 || flushWithin p (ctrlRate p ctrl) 0 70000)

/-- R393 sets `media_bad`. -/
def mediaBad (s : State) (p : NandPop) : Bool := !popOk p || !ctrlOk s p 0 || !ctrlOk s p 1

/-- Set what R415 computes at mount. -/
def setBudgets (p : NandPop) (s : State) : State :=
  { s with stk.ctrls := s.stk.ctrls.mapIdx fun i (c : Ctrl) =>
      let rate := ctrlRate p i
      let cap := bufferCap p rate
      { c with capMib := cap, boundUs := flushBound p rate (cap * mib), rateMbs := rate / 1000000 } }

/-! ### Layout (R395, R396) -/

/-- Blocks of a flush half on each LUN (R395). -/
def flushBlocks (p : NandPop) (ctrl : Nat) : Nat :=
  let b := p.planes * p.pagesPerBlock * 16384
  let slc := if p.cell = 0 then b else if p.cell = 1 then b / 3 else b / 4
  let l := ctrlLuns p ctrl
  if l * slc = 0 then 0 else ceilDiv (640 * mib) (l * slc)

/-- Stockpile blocks of one LUN. -/
def lunBlocks (p : NandPop) : Nat := p.blocksPerLun / p.planes

/-- A controller's blocks after a format: on every LUN the flush blocks, then the log blocks, then free ones. -/
def formatBlocks (p : NandPop) (ctrl perGroup : Nat) (bad : List (Nat × Nat)) : List StkBlock :=
  let f := 2 * flushBlocks p ctrl
  (List.range (ctrlLuns p ctrl)).flatMap fun lun =>
    let mine := (List.range (lunBlocks p)).map fun i => lun * lunBlocks p + i
    let good := mine.filter fun n => !bad.contains (ctrl, n)
    mine.map fun n =>
      let i := good.findIdx (· == n)
      let use : BlockUse := if bad.contains (ctrl, n) then .retired else if i < f then .flush else if i < f + perGroup then .log else .free
      ⟨n, lun, use, false, false, none⟩

/-- The maps of a format fit their share of the map frames (R396). -/
def mapsFit (p : NandPop) (ctrl perGroup : Nat) : Bool :=
  decide (16 * ctrlLuns p ctrl * lunBlocks p + 4 * ctrlLuns p ctrl * perGroup * p.pagesPerBlock * p.planes ≤ 1504 * mib)

/-! ### Blocks -/

def getCtrl (s : State) (ctrl : Nat) : Ctrl := s.stk.ctrls.getD ctrl {}

def setCtrl (ctrl : Nat) (c : Ctrl) (s : State) : State := { s with stk.ctrls := s.stk.ctrls.set ctrl c }

def setBlock (b : StkBlock) (c : Ctrl) : Ctrl := { c with blocks := c.blocks.map fun x => if x.no = b.no then b else x }

/-- The logical block that a buffer entry's data belong to: record blocks and each system area are numbered apart. -/
def bufKey (e : BufEnt) : Nat :=
  e.lblock + 2 ^ 32 * match e.kind with
    | .record | .moved => 0
    | .directory => 1
    | .log => 2
    | .journal => 3
    | .checkpoint => 4
    | .foldJournal => 5
    | .map => 6

/-- Use of the data block of an entry. -/
def bufUse (k : BufKind) : BlockUse :=
  match k with
  | .record | .moved => .record
  | .directory => .data
  | _ => .system

/-- The data block of a logical block. -/
def dataBlock (c : Ctrl) (key : Nat) : Option StkBlock :=
  c.blocks.find? fun b => b.lblock == some key && (b.use == .data || b.use == .record || b.use == .system)

/-- Pages of a Stockpile block. -/
def blockPages (s : State) : Nat := (s.stk.pop.map fun p => p.pagesPerBlock * p.planes).getD 0

/-- The lowest free block of a LUN (R395: the reserve serves the device's own needs). -/
def lunFree (c : Ctrl) (lun : Nat) : Option StkBlock := c.blocks.find? fun b => b.use == .free && b.lun == lun

/-- NAND channel, target and LUN of a controller's LUN number. -/
def lunPlace (p : NandPop) (ctrl lun : Nat) : Nat × Nat × Nat :=
  let rec go : List Nat → Nat → Nat → Nat × Nat × Nat
    | [], ch, n => (ch, n / max p.luns 1, n % max p.luns 1)
    | t :: ts, ch, n => if n < t * p.luns then (ch, n / p.luns, n % p.luns) else go ts (ch + 1) (n - t * p.luns)
  go (ctrlTargets p ctrl) (16 * ctrl) lun

def nandLoc (s : State) (ctrl lun : Nat) : Loc :=
  match s.stk.pop with
  | some p => let x := lunPlace p ctrl lun; { kind := 5, unit := x.1, sub := x.2.1 * 256 + x.2.2 }
  | none => { kind := 5, unit := 16 * ctrl }

/-- The block holds data that a move takes along: it is a data block, a log block or an SLC block. -/
def holdsData (b : StkBlock) : Bool := b.lblock.isSome || b.use == .log || b.use == .slc

/-- The fresh block that a block's valid data can move to. -/
def freshFor (b : StkBlock) (c : Ctrl) : Option StkBlock := if holdsData b then lunFree c b.lun else none

/-- Block `f` takes over what block `b` holds: its use, its log entry, and the SLC and buffer entries on it. -/
def movedTo (b f : StkBlock) (c : Ctrl) : Ctrl :=
  let there (e : BufEnt) : BufEnt := if e.target = some b.no then { e with target := some f.no } else e
  { setBlock { f with use := b.use, lblock := b.lblock } c with
    logs := c.logs.map fun (l : LogBlock) => if l.block = b.no then { l with block := f.no } else l,
    slcHeld := c.slcHeld.map there,
    buf := c.buf.map there }

/-- Retire a block: its valid data move to a fresh one, and the bad-block table holds it (R403). -/
def retireBlock (ctrl : Nat) (b : StkBlock) (s : State) : State :=
  let c := getCtrl s ctrl
  let gone := setBlock { b with use := .retired, lblock := none } c
  let c := match freshFor b c with
    | some f => movedTo b f gone
    | none => gone
  let s := { setCtrl ctrl { c with deltas := c.deltas + 16 } s with stk.blkRetired := satInc s.stk.blkRetired }
  stamped s fun s t => event t 0x30 (nandLoc s ctrl b.lun) 0 2 7 (BitVec.ofNat 64 b.no) [] s

/-- A block that failed takes a failure mark, or is retired where it holds one (R403). -/
def markFailure (ctrl no : Nat) (s : State) : State :=
  match (getCtrl s ctrl).blocks.find? (·.no == no) with
  | some b => if b.failMark then retireBlock ctrl b s else setCtrl ctrl (setBlock { b with failMark := true } (getCtrl s ctrl)) s
  | none => s

/-! ### Writing (R397 to R400) -/

/-- Bytes in a controller's SLC buffer. -/
def slcUsed (c : Ctrl) : Nat := (c.slcHeld.map (·.bytes)).sum

/-- The journal tail enters the write buffer of the system area's controller (R144, R397; log 11). -/
def pullTail (ctrl : Nat) (s : State) : State :=
  if s.wb.tail = 0 || ctrl != sysCtrl s || !s.stk.ready || !bufferRoom s ctrl s.wb.tail then s
  else { bufferWrite ctrl .journal 0 0 s.wb.tail s with wb.tail := 0, stk.journalCopy := s.wb.journal }

/-- The SLC block that takes the next write: one in use, or a fresh one. -/
def slcBlock (c : Ctrl) : Option StkBlock :=
  (c.blocks.find? fun b => b.use == .slc && !b.failMark).or
    (c.blocks.find? fun b => b.use == .free && decide (4 < (c.blocks.filter fun x => x.lun == b.lun && x.use == .free).length))

/-- The log block that a logical block's write goes to: its own with room, or an unused one of its plane group. -/
def logFor (s : State) (c : Ctrl) (key lun : Nat) : Option LogBlock :=
  let good (l : LogBlock) : Bool := c.blocks.any fun b => b.no == l.block && b.lun == lun && !b.failMark
  (c.logs.find? fun l => l.lblock == some key && decide (l.pages.length < blockPages s) && good l).or
    (c.logs.find? fun l => l.lblock.isNone && good l)

def putLog (l : LogBlock) (c : Ctrl) : Ctrl := { c with logs := c.logs.map fun x => if x.block = l.block then l else x }

/-- Give a logical block its data block, if it has none (R399, R404). -/
def ensureBlock (ctrl : Nat) (e : BufEnt) (s : State) : State :=
  if (dataBlock (getCtrl s ctrl) (bufKey e)).isSome then s else takeBlock ctrl (bufKey e) (bufUse e.kind) s

def setEntry (e : BufEnt) (c : Ctrl) : Ctrl := { c with buf := c.buf.map fun x => if x.id = e.id then e else x }

/-- Start the program of a buffer entry: into the SLC buffer, or into a log block (R397). -/
def startProgram (ctrl : Nat) (e : BufEnt) (s : State) : State :=
  let c := getCtrl s ctrl
  match (if decide (0 < c.slcTarget) && decide (slcUsed c + e.bytes ≤ c.slcTarget) then slcBlock c else none) with
  | some b =>
    setCtrl ctrl (setEntry { e with target := some b.no } (setBlock { b with use := .slc } c)) s
  | none =>
    let s := ensureBlock ctrl e s
    let c := getCtrl s ctrl
    match (dataBlock c (bufKey e)).bind fun d => logFor s c (bufKey e) d.lun with
    | some l => setCtrl ctrl (setEntry { e with target := some l.block } (putLog { l with lblock := some (bufKey e), last := s.now } c)) s
    | none => s

/-- A controller whose NAND clock failed idles its channels: its writes wait, and it takes no part in a flush (R529). -/
def ctrlClock (s : State) (ctrl : Nat) : Bool := !(s.clk.fallback.contains (0x50 + ctrl)) && !(s.clk.halted.contains (0x50 + ctrl))

/-- BUFFER_PROGRAM (R397). -/
def execBufferProgram (ctrl id : Nat) (s : State) : Host.Outcome State Fault Refusal :=
  .next (whenServing s fun s =>
    if !s.stk.ready || !ctrlClock s ctrl then s
    else
      let s := pullTail ctrl s
      match (getCtrl s ctrl).buf.find? fun e => e.id == id && e.target.isNone with
      | some e => startProgram ctrl e s
      | none => s)

/-- A program's status passed: the entry leaves the buffer, and its map change enters the delta log (R397, R400). -/
def programPassed (ctrl : Nat) (e : BufEnt) (block : Nat) (s : State) : State :=
  let c := getCtrl s ctrl
  let slc := c.blocks.any fun b => b.no == block && b.use == .slc
  let c := { c with buf := c.buf.filter (·.id != e.id), deltas := c.deltas + 16, fresh := c.fresh ++ [e] }
  setCtrl ctrl (if slc then { c with slcHeld := c.slcHeld ++ [e] }
    else { c with logs := c.logs.map fun (l : LogBlock) => if l.block = block then { l with pages := l.pages ++ [e.page], last := s.now } else l }) s

/-- PROGRAM_DONE (R397, R403). -/
def execProgramDone (ctrl id : Nat) (ok : Bool) (s : State) : Host.Outcome State Fault Refusal :=
  .next (whenServing s fun s =>
    match (getCtrl s ctrl).buf.find? (·.id == id) with
    | some e => match e.target with
      | some b =>
        if ok then programPassed ctrl e b s
        else
          let s := setCtrl ctrl (setEntry { e with target := none } (getCtrl s ctrl)) { s with stk.peFail := satInc s.stk.peFail }
          markFailure ctrl b s
      | none => s
    | none => s)

/-- ERASE_DONE (R403). -/
def execEraseDone (ctrl block : Nat) (ok : Bool) (s : State) : Host.Outcome State Fault Refusal :=
  .next (whenServing s fun s =>
    match (getCtrl s ctrl).blocks.find? fun b => b.no == block && b.use == .toErase with
    | some b =>
      if ok then setCtrl ctrl (setBlock { b with use := .free, eraseTried := false, lblock := none } (getCtrl s ctrl)) s
      else
        let s := { s with stk.peFail := satInc s.stk.peFail }
        if b.eraseTried then retireBlock ctrl b s
        else setCtrl ctrl (setBlock { b with eraseTried := true } (getCtrl s ctrl)) s
    | none => s)

/-! ### Reading (R402) -/

/-- The logical page that page `page` of a block holds: a data block holds its logical block's page, a log block the page offset it
recorded, an SLC block the page of the entry programmed there. -/
def pageHeld (c : Ctrl) (b : StkBlock) (page : Nat) : Option (Nat × Nat) :=
  match b.lblock with
  | some l => some (l, page)
  | none => match c.logs.find? (·.block == b.no) with
    | some l => (l.pages[page]?).bind fun p => l.lblock.map fun k => (k, p)
    | none => ((c.slcHeld.filter (·.target == some b.no))[page]?).map fun e => (bufKey e, e.page)

/-- Poison the records that lie in a page of a record block. -/
def poisonRecords (lblock page : Nat) (s : State) : State :=
  let lo := page * 16384
  { s with stk.records := s.stk.records.map fun (r : PassRec) =>
      if r.block = lblock && decide (r.off < lo + 16384) && decide (lo < r.off + r.bytes.length) then { r with poisoned := true } else r }

/-- Move a block's valid data to a fresh block (R402). -/
def refreshBlock (ctrl : Nat) (b : StkBlock) (s : State) : State :=
  let c := getCtrl s ctrl
  match freshFor b c with
  | some f =>
    let c := movedTo b f (setBlock { b with use := .toErase, lblock := none } c)
    setCtrl ctrl { c with deltas := c.deltas + 16 } s
  | none => s

/-- No level decodes: the records in the page are poisoned and the block takes a failure mark (R402, R403). -/
def readFailed (ctrl page : Nat) (b : StkBlock) (s : State) : State :=
  let s := { s with stk.rdFail := satInc s.stk.rdFail }
  let s := match pageHeld (getCtrl s ctrl) b page with
    | some (l, p) => poisonRecords l p s
    | none => s
  markFailure ctrl b.no s

/-- NAND_READ: the level at which a codeword decodes, if any does (R402). -/
def execNandRead (ctrl block page : Nat) (decodesAt : Option Nat) (s : State) : Host.Outcome State Fault Refusal :=
  .next (whenServing s fun s =>
    match (getCtrl s ctrl).blocks.find? (·.no == block) with
    | some b =>
      if b.use = .retired then s
      else match decodesAt with
        | some 0 => s
        | some l =>
          if l ≤ 7 then refreshBlock ctrl b { s with stk.rdRetryOk := satInc s.stk.rdRetryOk } else readFailed ctrl page b s
        | none => readFailed ctrl page b s
    | none => s)

/-! ### The SLC buffer (R398) -/

/-- User capacity of a controller in bytes (R395). -/
def userBytes (s : State) (ctrl : Nat) : Nat := ctrlUserBlocks s ctrl * blockBytes s

/-- Valid data in a controller's user area (R398). -/
def validBytes (s : State) (ctrl : Nat) : Nat :=
  ((s.stk.recBlocks.filter (·.ctrl == ctrl)).map fun b => liveBytes s b.id).sum

/-- The target of R398 for `d` valid bytes of `u`. -/
def slcTargetOf (d u : Nat) : Nat :=
  if 4 * d < u then 6 * u / 100
  else if 2 * d < u then 4 * u / 100
  else if 4 * d < 3 * u then 2 * u / 100
  else if 10 * d < 9 * u then u / 100
  else u / 400

/-- SLC_TARGET_RECOMPUTE. -/
def execSlcTargetRecompute (ctrl : Nat) (s : State) : Host.Outcome State Fault Refusal :=
  .next (whenServing s fun s => match s.stk.pop with
    | some p =>
      let c := getCtrl s ctrl
      if !s.stk.ready || !past s c.slcAt 1000000000 then s
      else setCtrl ctrl { c with slcTarget := if p.cell = 0 then 0 else slcTargetOf (validBytes s ctrl) (userBytes s ctrl), slcAt := s.now } s
    | none => s)

/-- Buffered data move to log blocks now (R398). -/
def slcMoves (s : State) (c : Ctrl) : Bool :=
  decide (c.slcTarget < slcUsed c) || decide (3 * c.slcTarget ≤ 4 * slcUsed c) || past s c.lastWrite 100000000

/-- Erase the SLC blocks once nothing is left in them. -/
def slcEmptied (c : Ctrl) : Ctrl :=
  if c.slcHeld.isEmpty then { c with blocks := c.blocks.map fun b => if b.use = .slc then { b with use := .toErase } else b } else c

/-- SLC_IDLE_MOVE: the oldest data of the SLC buffer move into a log block. -/
def execSlcIdleMove (ctrl : Nat) (s : State) : Host.Outcome State Fault Refusal :=
  .next (whenServing s fun s =>
    match (getCtrl s ctrl).slcHeld with
    | [] => s
    | e :: rest =>
      if !s.stk.ready || !slcMoves s (getCtrl s ctrl) then s
      else
        let s := ensureBlock ctrl e s
        let c := getCtrl s ctrl
        match (dataBlock c (bufKey e)).bind fun d => logFor s c (bufKey e) d.lun with
        | some l =>
          let l := { l with lblock := some (bufKey e), pages := l.pages ++ [e.page], last := s.now }
          setCtrl ctrl (slcEmptied { putLog l c with slcHeld := rest, deltas := c.deltas + 16 }) s
        | none => s)

/-! ### Merges and the map journal (R399, R400) -/

/-- Log blocks of a LUN. -/
def logsOf (c : Ctrl) (lun : Nat) : List LogBlock := c.logs.filter fun l => c.blocks.any fun b => b.no == l.block && b.lun == lun

/-- A log block is due for a merge: it is full, or its plane group needs one and it is the least recently written. -/
def mergeDue (s : State) (c : Ctrl) (l : LogBlock) (lun : Nat) : Bool :=
  l.lblock.isSome && (decide (blockPages s ≤ l.pages.length) ||
    ((logsOf c lun).all (·.lblock.isSome) && (logsOf c lun).all fun m => decide (l.last ≤ m.last)))

/-- The log block takes a fresh block in place of the one it gave up. -/
def freshLog (old lun : Nat) (c : Ctrl) : Ctrl :=
  match lunFree c lun with
  | some f => { setBlock { f with use := .log } c with
                logs := c.logs.map fun (l : LogBlock) => if l.block = old then ⟨f.no, none, [], 0⟩ else l }
  | none => { c with logs := c.logs.filter (·.block != old) }

/-- Switch merge: the log block becomes the data block. -/
def switchMerge (ctrl : Nat) (b d : StkBlock) (s : State) : State :=
  let c := getCtrl s ctrl
  let c := setBlock { d with use := .toErase, lblock := none } (setBlock { b with use := d.use, lblock := d.lblock } c)
  setCtrl ctrl (freshLog b.no b.lun { c with deltas := c.deltas + 16 }) s

/-- Full merge into a free block. -/
def fullMerge (ctrl : Nat) (b d : StkBlock) (s : State) : State :=
  let c := getCtrl s ctrl
  match lunFree c b.lun with
  | some f =>
    let c := setBlock { f with use := d.use, lblock := d.lblock }
      (setBlock { d with use := .toErase, lblock := none } (setBlock { b with use := .toErase, lblock := none } c))
    { setCtrl ctrl (freshLog b.no b.lun { c with deltas := c.deltas + 16 }) s with stk.mergesFull := satInc s.stk.mergesFull }
  | none => s

/-- LOG_BLOCK_MERGE. -/
def execLogBlockMerge (ctrl log : Nat) (s : State) : Host.Outcome State Fault Refusal :=
  .next (whenServing s fun s =>
    let c := getCtrl s ctrl
    match c.logs.find? (·.block == log), c.blocks.find? (·.no == log) with
    | some l, some b => match l.lblock.bind (dataBlock c) with
      | some d =>
        if !mergeDue s c l b.lun then s
        else if l.pages = List.range (blockPages s) then switchMerge ctrl b d s
        else fullMerge ctrl b d s
      | none => s
    | _, _ => s)

/-- MAP_DELTA_PROGRAM (R400). -/
def execMapDeltaProgram (ctrl : Nat) (s : State) : Host.Outcome State Fault Refusal :=
  .next (whenServing s fun s =>
    let c := getCtrl s ctrl
    if !s.stk.ready || !(decide (32 * mib ≤ c.deltas) || (decide (0 < c.deltas) && past s c.deltaAt 1000000000)) then s
    else
      let n := c.deltaPrograms + 1
      setCtrl ctrl { c with deltas := 0, fresh := [], deltaAt := s.now, deltaPrograms := n % 64,
                            fullImages := if n = 64 then c.fullImages + 1 else c.fullImages } s)

/-! ### Cleaning (R407) -/

/-- Append one live record again, at one ticket. -/
def moveRecord (tenant : Nat) (r : PassRec) (s : State) : State :=
  stamped s fun s _ => appendRecord r.coll r.slot r.gen tenant r.bytes s

/-- Clean a record block: its live records go to the pair's open block, and it is freed. -/
def cleanBlock (b : RecBlock) (s : State) : State :=
  let live := s.stk.records.filter (·.block == b.id)
  let s := live.foldl (fun s r => moveRecord b.tenant r s) s
  let bad (r : PassRec) : Bool := live.any fun x => x.coll == r.coll && x.slot == r.slot && x.poisoned
  let s := { s with stk.records := s.stk.records.map fun (r : PassRec) => if bad r then { r with poisoned := true } else r,
                    stk.recBlocks := s.stk.recBlocks.filter (·.id != b.id) }
  let c := getCtrl s b.ctrl
  let freed (x : StkBlock) : StkBlock :=
    if x.lblock == some b.id && x.use == .record then { x with use := .toErase, lblock := none } else x
  setCtrl b.ctrl { c with blocks := c.blocks.map freed } s

/-- RECORD_BLOCK_CLEAN. -/
def execRecordBlockClean (block : Nat) (s : State) : Host.Outcome State Fault Refusal :=
  .next (whenServing s fun s =>
    match s.stk.recBlocks.find? fun b => b.id == block && !b.openNow with
    | some b => if s.stk.ready && decide (4 * liveBytes s block < blockBytes s) then cleanBlock b s else s
    | none => s)

/-! ### Format (R395, R422) -/

/-- Value of an STK_CMD write that formats. -/
def formatData (perGroup : Byte) (confirm : W32) : W64 := hi32 confirm ||| atBit 8 perGroup ||| 1

/-- Plan sets the device holds. -/
def heldSets (s : State) : List PlanSet := s.cfg.active.toList ++ s.cfg.retiring.toList ++ s.cfg.shadow.toList

/-- The code of a format command, 0 where it may run (R422, R396). -/
def formatCode (s : State) (perGroup : Nat) (confirm : Nat) : Nat :=
  if s.job.phase != 0 || s.stk.formatting.isSome || (heldSets s).any (fun p => p.plan.placements.any (·.tier == 2)) ||
    !s.srch.colls.isEmpty then 1
  else if confirm != 0x53544B46 then 2
  else if decide (1 ≤ perGroup) && decide (perGroup ≤ 15) then 6
  else match s.stk.pop with
    | none => 5
    | some p =>
      let n := if perGroup = 0 then 64 else perGroup
      if mediaBad s p then 5 else if !mapsFit p 0 n || !mapsFit p 1 n then 3 else 0

/-- An STK_CMD write (R422). -/
def stkCommand (v : W64) (s : State) : State :=
  if regBits v 0 2 != 1 then s
  else
    let n := regBits v 8 8
    let code := formatCode s n (regBits v 32 32)
    if code != 0 then { s with stk.cmdCode := BitVec.ofNat 8 code }
    else { s with stk.cmdCode := 0, stk.formatting := some (if n = 0 then 64 else n), stk.ready := false }

/-- STK_FORMAT. -/
def execStkFormat (c : Cmd) (logPerGroup : Byte) (confirm : W32) (s : State) : Host.Outcome State Fault Refusal :=
  .next (mgmtWrite c rStkCmd (formatData logPerGroup confirm) (fun _ => stkCommand (formatData logPerGroup confirm)) s)

/-- A controller right after a format. -/
def formattedCtrl (p : NandPop) (ctrl perGroup now : Nat) (bad : List (Nat × Nat)) : Ctrl :=
  let blocks := formatBlocks p ctrl perGroup bad
  { blocks := blocks, logs := (blocks.filter (·.use == .log)).map fun b => ⟨b.no, none, [], 0⟩, lastWrite := now, slcAt := now, deltaAt := now }

/-- FORMAT_DONE: the areas are laid out, with the factory bad blocks retired, and the Stockpile is mounted. -/
def execFormatDone (factoryBad : List (Nat × Nat)) (s : State) : Host.Outcome State Fault Refusal :=
  .next (whenServing s fun s => match s.stk.formatting, s.stk.pop with
    | some n, some p =>
      setBudgets p { s with stk.formatting := none, stk.formatted := some n, stk.ready := true, stk.cmdCode := 0,
                            stk.ctrls := [formattedCtrl p 0 n s.now factoryBad, formattedCtrl p 1 n s.now factoryBad],
                            stk.records := [], stk.recBlocks := [], stk.nextBlock := 0, stk.logs := [], stk.foldJournal := [],
                            stk.checkpoints := [], stk.journalCopy := [], stk.flush := none }
    | _, _ => s)

end Sys2Proof.Machine
end

