-- ==== Sys2Proof/Machine/Clocks.lean ====
section
/-! DEFINITION. Clock domains and their monitors, clock failures, CLKOUT (20 R525 to R531). -/

namespace Sys2Proof.Machine

/-! ### Domains (R525) -/

/-- Instances of each class. -/
def clockInstances : List Nat := [1, 4, 2, 12, 16, 2, 12, 8, 1, 1]

/-- A domain number that R525 assigns. -/
def clockExists (d : Nat) : Bool := decide (d % 16 < clockInstances.getD (d / 16) 0)

/-- Monitored frequency of a class, in units of MHz ÷ 32. -/
def clockFreq (cls : Nat) : Nat := [3200, 41600, 32000, 64000, 102400, 38400, 53125, 64000, 12800, 16000].getD cls 0

/-- A window's count lies within ±1% of the frequency × 1 µs (R528). -/
def windowOk (cls count : Nat) : Bool :=
  decide (99 * clockFreq cls ≤ 3200 * count) && decide (3200 * count ≤ 101 * clockFreq cls)

def fallbackDomain : Nat := 0x80
def ringDomain : Nat := 0x90

/-! ### Sub-ports that a failed clock takes down (R438, R529) -/

/-- Port of a sub-port's place in the list. -/
def portOf (i : Nat) : Nat := i / 4

/-- Transactions of flits that were not wholly acknowledged, by channel (R438). -/
def leftTxns (fs : List DataFlit) : List Txn :=
  (List.range 4).flatMap fun v => match fs.filter (·.vc == v) with
    | [] => []
    | f :: rest => f.txn :: (rest.filter (·.first)).map (·.txn)

/-- A sub-port that was not down goes down at once, with its record (R438). -/
def subLost (i : Nat) (s : State) : State :=
  let p := s.lnk.subs.getD i {}
  if p.state = .down then s
  else
    let q : SubPort := { p with state := .down, lanes := 0, creditStall := false, portDown := satInc p.portDown,
                                keepSeq := false, after := false, replay := [], waiting := [] }
    let left := leftTxns (p.replay ++ p.waiting)
    let s := { s with lnk.subs := s.lnk.subs.set i q, out := left.map (fun t => (s.now, t)) ++ s.out }
    stampedIf s fun s t => event t 0x21 (linkLoc (portOf i) (i % 4) 0xFF) 0 2 0 0 [] s

/-- Every sub-port of a port goes down. -/
def portLost (port : Nat) (s : State) : State :=
  (List.range 4).foldl (fun s i => subLost (4 * port + i) s) s

/-! ### Clock failure (R529) -/

/-- What the failure of one domain does beyond its switch. -/
def clockConsequence (d : Nat) (s : State) : State :=
  let u := d % 16
  match d / 16 with
  | 3 =>
    if s.mem.stacksFailed.contains u then s
    else
      let s := { s with mem.stacksFailed := s.mem.stacksFailed ++ [u] }
      stamped s fun s t => event t 0x13 { kind := 2, unit := u } 0 2 11 0 [] s
  | 4 => { s with mem.modules := s.mem.modules.set u none }
  | 6 => portLost u s
  | _ => s

/-- Domains that a lost reference takes with it. -/
def pllDomains : List Nat := (List.range 128).filter fun d => decide (16 ≤ d) && clockExists d

/-- A domain's lasting fault: it switches to FALLBACK, or halts where FALLBACK has failed. -/
def clockFail (d : Nat) (s : State) : State :=
  stamped s fun s t =>
    let s := { s with clk.lastFailed := BitVec.ofNat 12 d, clk.badWindow := s.clk.badWindow.filter (· != d) }
    if d = fallbackDomain then event t 0x71 (clockLoc d) 0 2 0 0 [] { s with clk.fallbackFailed := true }
    else
      let down := if d = 0 then dedup (0 :: pllDomains) else [d]
      let s := if s.clk.fallbackFailed then { s with clk.halted := dedup (s.clk.halted ++ down) }
        else { s with clk.fallback := dedup (s.clk.fallback ++ down) }
      let s := event t 0x71 (clockLoc d) 0 2 (if s.clk.fallbackFailed then 0 else 10) 0 [] s
      down.foldl (fun s x => clockConsequence x s) s

/-- MONITOR_WINDOW (R528, R529). -/
def execMonitorWindow (domain count : Nat) (s : State) : Host.Outcome State Fault Refusal :=
  .next (whenServing s fun s =>
    if !clockExists domain || domain = ringDomain || s.clk.ringBad || s.clk.fallback.contains domain || s.clk.halted.contains domain ||
      (domain = fallbackDomain && s.clk.fallbackFailed) then s
    else if windowOk (domain / 16) count then { s with clk.badWindow := s.clk.badWindow.filter (· != domain) }
    else if s.clk.badWindow.contains domain then clockFail domain s
    else
      stamped { s with clk.badWindow := s.clk.badWindow ++ [domain], clk.transient := satInc s.clk.transient } fun s t =>
        event t 0x70 (clockLoc domain) 0 1 0 0 [] s)

/-- RING_CHECK: RING's cycles in 1 µs of REFCLK (R528). -/
def execRingCheck (count : Nat) (s : State) : Host.Outcome State Fault Refusal :=
  .next (whenServing s fun s =>
    if windowOk 9 count || s.clk.fallback.contains 0 || s.clk.halted.contains 0 then s else { s with clk.ringBad := true })

/-! ### CLKOUT (R531, R555) -/

/-- Defined bits of CLK_OUT_CFG. -/
def clkOutMask : W64 := 0xFFFF1FFF

/-- A write to CLK_OUT_CFG. -/
def clkOutWrite (v : W64) (s : State) : State :=
  let v := v &&& clkOutMask
  let src := regBits v 0 12
  let div := regBits v 16 16
  let freq := if s.clk.fallback.contains src then clockFreq 8 else clockFreq (src / 16)
  let s := { s with clk.outCfg := v, lands.clkout := none }
  if !clockExists src then { s with clk.srcBad := true }
  else if 6400 * (div + 1) < freq then { s with clk.outFast := true }
  else
    let s := { s with clk.srcBad := false, clk.outFast := false }
    if regBit v 12 then { s with lands.clkout := some (src, div) } else s

/-- CLK_OUT_CFG_WRITE. -/
def execClkOutCfgWrite (c : Cmd) (data : W64) (s : State) : Host.Outcome State Fault Refusal :=
  .next (mgmtWrite c rClkOut data (fun _ => clkOutWrite data) s)

end Sys2Proof.Machine
end

