-- ==== Sys2Proof/Machine/Power.lean ====
section
/-! DEFINITION. Power states, the cap, metering, temperature, the AVSBus loop and the power-fail flush (20 R532 to R540; 16
R414 to R416). -/

namespace Sys2Proof.Machine

/-! ### What a reset clears (R544) -/

/-- The logic of the device in its reset values, with what every kind of whole-device reset keeps: flash, NAND, fuses and
straps, the spare map, resident objects and their pages, the model's own clock, draws and queue. -/
def resetLogic (s : State) : State :=
  { life := .held, now := s.now, free := s.free, pending := s.pending,
    cfg := { stepping := s.cfg.stepping, serial := s.cfg.serial },
    sec := { slots := s.sec.slots, rollbackMin := s.sec.rollbackMin, rollbackImage := s.sec.rollbackImage },
    wb := { powerCycles := s.wb.powerCycles, streams := s.wb.streams },
    flt := { benches := s.flt.benches },
    log := { flash := s.log.flash, presPoint := s.log.presPoint, ringPoint := s.log.ringPoint, presFull := s.log.presFull,
             dropCount := s.log.dropCount, hours := s.log.hours, hoursFlash := s.log.hoursFlash, nonce := s.log.nonce },
    dom := { straps := s.dom.straps, uid := s.dom.uid, strapBad := s.dom.strapBad },
    mem := { s.mem with eccCorrected := 0, eccUncorrected := 0, rowSpared := 0, motionWaits := 0, haulAbort := 0, quotaHit := 0 },
    haul := { points := s.haul.points, running := s.haul.running },
    stk := { s.stk with pfReplayed := false, pfIncomplete := false, rdRetryOk := 0, rdFail := 0, blkRetired := 0, peFail := 0,
                        mergesFull := 0, stkFull := 0,
                        cmdCode := if s.stk.formatting.isSome then 4 else 0, formatting := none,
                        formatted := if s.stk.formatting.isSome then none else s.stk.formatted },
    srch := { colls := s.srch.colls }, gth := { tables := s.gth.tables },
    lands := { i3cAddr := s.lands.i3cAddr, i3cIndex := s.lands.i3cIndex, tap := s.lands.tap } }

/-- A table after a reset: RETIRING regions become FREE (R271). -/
def resetTable (t : Table) : Table :=
  let f (r : Region) : Region := if r = .retiring then .free else r
  { t with region0 := f t.region0, region1 := f t.region1, busy := none, cmdCode := 0, failMember := 0, retireSeen := false,
           prepared := none, committed := false }

/-- Plan sets are emptied with their job-context objects (R87, R544). -/
def dropSets (s : State) : State :=
  (heldSets s).foldl (fun s p => freeObjects p.serial s) { s with cfg.active := none, cfg.retiring := none, cfg.shadow := none }

/-- A firmware image that was being programmed is no image any more (R552). -/
def spoilImage (s : State) : State :=
  if s.rst.fwLoad.isSome then { s with log.flash := cellsClear 0 0x2000000 s.log.flash } else s

/-- Collections that lost an object wait for their restoration (R410); their folds stop (R308). -/
def resetColl (lost : Bool) (c : Coll) : Coll :=
  let c := stopFold c
  if lost then { c with restoring := true, version := 0, pending := [] } else c

/-- A collection has an object in HBM. -/
def collInHbm (s : State) (c : Coll) : Bool :=
  (checkpointObjects c).any fun id => ((residentObj s id).map (·.place.tier)) == some 0

/-- Slot changes that had their ticket are in the slot state words before the logic is reset. -/
def drainAll (s : State) : State :=
  s.srch.colls.foldl (fun s c =>
    setColl { c with pending := [] } (c.pending.foldl (fun s p => writeSlot c p.slot p.state s) s)) s

/-- Collections of the present set that restore no more, after a reset that lost `lost` of them. -/
def resetColls (lost : Coll → Bool) (s : State) : State := { s with srch.colls := s.srch.colls.map fun c => resetColl (lost c) c }

/-- Collections and tables after a reset. -/
def resetResident (lost : Coll → Bool) (s : State) : State :=
  let s := resetColls lost s
  { s with gth.tables := s.gth.tables.map resetTable }

/-- The device in power-on reset: what lies in HBM, DDR5 and the logic is lost (R544). -/
def powerOnReset (s : State) : State :=
  let s := resetResident (fun _ => true) (dropSets (spoilImage s))
  let r := resetLogic s
  { r with mem.cells := [], mem.stacksFailed := [], mem.modules := List.replicate 16 none, mem.objs := r.mem.objs.map Obj.forget,
           mem.pages := r.mem.pages.map fun (p : Page) => { p with motion := false }, stk.ready := false, wb.streams := s.wb.streams }

/-! ### The power-fail flush (R414, R539) -/

/-- Steps 1 and 2 of R414 with a record: nothing is sent any more, and the device is silent. -/
def beginFlush (type code : Nat) (s : State) : State :=
  stampedIf s fun s t =>
    let s := event t type devLoc code 1 0 0 [] s
    { s with life := .flushing, out := [], pwr.move := none }

/-- POWER_FAIL: an assertion that passes the filter (R414). -/
def execPowerFail (heldNs : Nat) (s : State) : Host.Outcome State Fault Refusal :=
  .next (if heldNs < 2000 then s
    else if s.life = .ready || s.life = .recovery then beginFlush 0x73 0 s
    else if s.life = .flushing && !(s.log.queue.any (·.type == 0x73)) then event (unstamped s) 0x73 devLoc 0 1 0 0 [] s
    else s)

/-- Journal entries that the Stockpile copy does not hold (R144). -/
def journalTail (s : State) : List JEntry := s.wb.journal.filter fun e => !(s.stk.journalCopy.any (·.pos == e.pos))

/-- FLUSH_DONE: steps 3 to 6 of R414; `committed` tells which commit pages were programmed. -/
def execFlushDone (committed : List Bool) (s : State) : Host.Outcome State Fault Refusal :=
  .next (if s.life = .flushing then
      let done := [0, 1].map fun i => committed.getD i false && ctrlClock s i
      let f : Flush := ⟨s.lands.thermtrip, s.log.queue, journalTail s, done⟩
      { s with life := .halted, stk.flush := if s.stk.ready then some f else none }
    else s)

/-! ### Power states (R532 to R535) -/

/-- A move to PS2 to PS4 is refused while the device works (R533). -/
def powerBusy (s : State) : Bool :=
  s.job.phase != 0 || s.cfg.load.isSome || s.cfg.swap.isSome || s.cfg.domSwap.isSome || s.haul.running.isSome

/-- A write to PWR_CMD (R533, R535, R556, R557). -/
def powerCommand (v : W64) (s : State) : State :=
  let p := regBits v 0 3
  if !regBit v 3 then s
  else if 4 < p then { s with pwr.code := 2 }
  else if s.pwr.move.isSome then { s with pwr.code := 1 }
  else if p = s.pwr.state then { s with pwr.code := 0 }
  else if s.pwr.state != 4 && decide (2 ≤ p) && powerBusy s then { s with pwr.code := 1 }
  else { s with pwr.code := 0, pwr.move := some (p, s.now) }

/-- Value of a PWR_CMD write that starts a move. -/
def powerData (p : BitVec 3) : W64 := atBit 0 p ||| 8

/-- PWR_CMD. -/
def execPwrCmd (c : Cmd) (state : BitVec 3) (s : State) : Host.Outcome State Fault Refusal :=
  .next (mgmtWrite c rPwrCmd (powerData state) (fun _ => powerCommand (powerData state)) s)

/-- Every write in the buffers is programmed (R534, PS2 to PS3). -/
def drainBuffers (s : State) : State :=
  { s with stk.ctrls := s.stk.ctrls.map fun (c : Ctrl) => { c with buf := [], deltas := c.deltas + 16 * c.buf.length, fresh := c.fresh ++ c.buf } }

/-- Weight objects with a page in HBM lose their contents (R534). -/
def hbmLost (s : State) (o : Obj) : Obj :=
  if s.mem.pages.any fun p => p.tier == 0 && decide (o.place.tier < 2) && decide (o.page ≤ p.page) && decide (p.page < o.page + o.place.size)
  then o.forget else o

/-- What one hop between adjacent states does (R534). -/
def powerHop (from' to' : Nat) (s : State) : State :=
  match from', to' with
  | 2, 3 => drainBuffers s
  | 3, 2 => { s with flt.accs := [], flt.store := [] }
  | 3, 4 => { s with mem.cells := s.mem.cells.filter fun c => decide (2 ^ 41 ≤ c.1), mem.objs := s.mem.objs.map (hbmLost s) }
  | _, _ => s

/-- Bits of PWR_CAP (R556, R537). -/
def capWrite (v : W64) (s : State) : State :=
  let w := regBits v 0 12
  if w = 0 || (decide (800 ≤ w) && decide (w ≤ 2200)) then { s with pwr.cap := BitVec.ofNat 12 w, pwr.capBad := false }
  else { s with pwr.capBad := true }

/-- PWR_CAP_WRITE. -/
def execPwrCapWrite (c : Cmd) (data : W64) (s : State) : Host.Outcome State Fault Refusal :=
  .next (mgmtWrite c rPwrCap data (fun _ => capWrite data) s)

/-! ### Metering, the cap and temperature (R536 to R539) -/

/-- Average package power in units of 0.1 W over the last 1 ms. -/
def powerDw (s : State) : Nat :=
  if s.pwr.samples.isEmpty then 0 else (s.pwr.samples.map fun x => x.1 * x.2).sum / (s.pwr.samples.length * 100000)

/-- METER_SAMPLE (R536). -/
def execMeterSample (milliVolt milliAmp : Nat) (s : State) : Host.Outcome State Fault Refusal :=
  .next (if s.life = .ready || s.life = .recovery then
      { s with pwr.samples := ((milliVolt, milliAmp) :: s.pwr.samples).take 100, pwr.inputMv := satNat 16 milliVolt }
    else s)

/-- The cap the loop holds, in W (R537). -/
def capInForce (s : State) : Nat := if s.pwr.cap = 0 then 2200 else s.pwr.cap.toNat

/-- The issue fraction after one step of the loop: lowered by 8/64 while a die is hot, else by a step that the manual
leaves open (R537, R538; log 40). -/
def issueAfter (s : State) : Nat :=
  if s.pwr.throttle then max 1 (s.pwr.issueFrac - 8)
  else max 1 (min 64 (s.pwr.issueFrac + Config.issueStep s.free % 17 - 8))

/-- CAP_LOOP_STEP (R537, R538). -/
def execCapLoopStep (s : State) : Host.Outcome State Fault Refusal :=
  .next (whenServing s fun s =>
    let f := issueAfter s
    { s with pwr.issueFrac := f, pwr.capUnmet := f == 1 && decide (10 * capInForce s < powerDw s), free := s.free + 1 })

/-- THERMAL_SAMPLE: a reading for each of the eighteen dies, in units of 0.5 °C (R538, R539). -/
def execThermalSample (halfDegrees : List Nat) (s : State) : Host.Outcome State Fault Refusal :=
  .next (if s.life = .ready || s.life = .recovery then
      let hot := halfDegrees.foldl max 0
      let throttle := decide (206 ≤ hot) || (s.pwr.throttle && decide (202 ≤ hot))
      let s := { s with pwr.tmax := satNat 10 hot, pwr.throttle := throttle }
      if 230 ≤ hot then
        beginFlush 0x72 (halfDegrees.findIdx fun x => decide (230 ≤ x)) { s with lands.thermtrip := true }
      else s
    else if s.life = .flushing && !s.lands.thermtrip && halfDegrees.any (230 ≤ ·) then
      event (unstamped s) 0x72 devLoc (halfDegrees.findIdx fun x => decide (230 ≤ x)) 1 0 0 [] { s with lands.thermtrip := true }
    else s)

/-! ### The AVSBus loop (R540, R582) -/

/-- AVS_ADJUST: the setpoint moves by what the sense is off nominal, within its range (log 41). -/
def execAvsAdjust (senseMv : Nat) (s : State) : Host.Outcome State Fault Refusal :=
  .next (whenServing s fun s =>
    if s.pwr.avsFault then s
    else { s with pwr.setpoint := max 1780 (min 1950 (s.pwr.setpoint + 1800 - senseMv)), pwr.avsRetry := false })

/-- AVS_TIMEOUT: a frame without a valid response within 2 µs. -/
def execAvsTimeout (s : State) : Host.Outcome State Fault Refusal :=
  .next (whenServing s fun s => if s.pwr.avsRetry then { s with pwr.avsRetry := false, pwr.avsFault := true } else { s with pwr.avsRetry := true })

end Sys2Proof.Machine
end

