-- ==== Sys2Proof/Machine/Recorder.lean ====
section
/-! DEFINITION. The event recorder in the configuration flash (19 R501 to R522). -/

namespace Sys2Proof.Machine

/-! ### Regions and records (R502, R507) -/

def sectorBytes : Nat := 4096
def presBase : Nat := 0x03000000
def ringBase : Nat := 0x03100000
def ringEnd : Nat := 0x03800000

/-- A record as a sector scan finds it. -/
structure Found where
  addr : Nat
  len : Nat
  valid : Bool
  sev : Nat
  hours : Nat
  ticket : Ticket

/-- Programmed bytes of a sector. -/
def sectorCells (cs : List Host.Cell) (base : Nat) : List Host.Cell :=
  cs.filter fun c => decide (base ≤ c.1) && decide (c.1 < base + sectorBytes)

/-- Records of a sector from `off`, and where its free part begins: the whole sector is used behind a record that was cut
short (R513). -/
def scanSector (cs : List Host.Cell) (base : Nat) : Nat → Nat → List Found × Nat
  | 0, off => ([], off)
  | fuel + 1, off =>
    if sectorBytes ≤ off then ([], sectorBytes)
    else
      let h := cellsGet erased cs (base + off) 16
      let len := 16 * (u8 h 1 % 32 + 1)
      if h.all (· == erased) then ([], off)
      else if (u8 h 0 == 0xA5 || u8 h 0 == 0x05) && decide (off + len ≤ sectorBytes) then
        let rest := scanSector cs base fuel (off + len)
        (⟨base + off, len, u8 h 0 == 0xA5, u8 h 1 / 32, u32 h 4, BitVec.ofNat 64 (u64 h 8)⟩ :: rest.1, rest.2)
      else ([], sectorBytes)

/-- Scan of the sector at `base`. -/
def scanAt (flash : List Host.Cell) (base : Nat) : List Found × Nat := scanSector (sectorCells flash base) base 257 0

/-- Sectors of a region that hold anything, by address, in ascending order. -/
def usedSectors (flash : List Host.Cell) (lo hi : Nat) : List Nat :=
  dedup ((flash.filter fun c => decide (lo ≤ c.1) && decide (c.1 < hi)).map fun c => c.1 / sectorBytes * sectorBytes)

/-- Every record of a region. -/
def regionRecs (flash : List Host.Cell) (lo hi : Nat) : List Found := (usedSectors flash lo hi).flatMap fun b => (scanAt flash b).1

/-- Live records of the ring. -/
def ringRecs (flash : List Host.Cell) : List Found := (regionRecs flash ringBase ringEnd).filter (·.valid)

/-- `ring_live` and `pres_used` of LOG_SPACE (R520). -/
def ringLive (flash : List Host.Cell) : Nat := ((ringRecs flash).map (·.len)).sum
def presUsed (flash : List Host.Cell) : Nat := ((regionRecs flash presBase ringBase).map (·.len)).sum

/-- Where a record of `len` bytes goes from a write point: records never span a sector (R507). -/
def placeAt (point len : Nat) : Nat :=
  if point % sectorBytes + len ≤ sectorBytes then point else (point / sectorBytes + 1) * sectorBytes

/-- In the ring, the end is followed by the start. -/
def ringPlace (point len : Nat) : Nat := let p := placeAt point len; if ringEnd ≤ p then ringBase else p

/-- Program a record's `mark` as REMOVED (R502, R512). -/
def removeRec (a : Nat) (flash : List Host.Cell) : List Host.Cell := cellPut erased a 0x05 flash

/-- R511. -/
def olderRec (a b : Found) : Bool := decide (a.hours < b.hours) || (a.hours == b.hours && ticketLe a.ticket b.ticket)

/-- Remove oldest records until `need` bytes are free (R512). -/
def removeOldest (need : Nat) : List Found → List Host.Cell → List Host.Cell
  | [], flash => flash
  | r :: rs, flash => if need = 0 then flash else removeOldest (need - r.len) rs (removeRec r.addr flash)

def ringLimit : Nat := 6 * 1048576

/-- Make room in the ring for a record, or none where it is dropped (R512). -/
def ringRoom (sev len : Nat) (flash : List Host.Cell) : Option (List Host.Cell) :=
  let live := ringLive flash
  let may := sortBy olderRec ((ringRecs flash).filter (·.sev ≤ sev))
  if live + len ≤ ringLimit then some flash
  else if ringLimit < live + len - (may.map (·.len)).sum then none
  else some (removeOldest (live + len - ringLimit) may flash)

/-! ### Writing (R509, R510, R512, R514, R596) -/

/-- A compaction is due: fewer than two erased sectors remain in the ring. -/
def compactionDue (s : State) : Bool := decide (1792 < (usedSectors s.log.flash ringBase ringEnd).length + 2)

/-- Foreman may program the recorder. -/
def recorderRuns (s : State) : Bool :=
  s.life == .ready && s.pwr.state != 4 && s.log.mounted && !s.log.flashFault && s.log.clear.isNone

/-- What a copy whose read-back differed leaves: removed, its length kept (log 42). -/
def failedBytes (draw : Nat) (bytes : List Byte) : List Byte :=
  bytes.mapIdx fun i b => if i = 0 then 0x05 else if i = 1 then b else Config.failedCopy draw i

/-- Program the head of the queue at `addr`; `next` sets the region's write point. -/
def programHead (r : Rec) (addr : Nat) (ok : Bool) (s : State) : State :=
  let bytes := r.bytes 0xA5
  if ok then { s with log.flash := cellsPut erased addr bytes s.log.flash, log.queue := s.log.queue.drop 1, log.retry := false }
  else
    let s := { s with log.flash := cellsPut erased addr (failedBytes s.free bytes) s.log.flash, free := s.free + 1 }
    if s.log.retry then { s with log.retry := false, log.flashFault := true } else { s with log.retry := true }

/-- Write the record to the ring. -/
def writeRing (r : Rec) (ok : Bool) (s : State) : State :=
  let len := (r.bytes 0xA5).length
  match ringRoom r.sev len s.log.flash with
  | none => { s with log.queue := s.log.queue.drop 1, log.dropCount := satInc s.log.dropCount, log.retry := false }
  | some flash =>
    let a := ringPlace s.log.ringPoint len
    programHead r a ok { s with log.flash := flash, log.ringPoint := a + len }

/-- Write one record (R509, R510). -/
def writeHead (r : Rec) (ok : Bool) (s : State) : State :=
  let len := (r.bytes 0xA5).length
  if r.sev < 2 || s.log.presFull then writeRing r ok s
  else
    let a := placeAt s.log.presPoint len
    if a + len ≤ ringBase then programHead r a ok { s with log.presPoint := a + len }
    else writeRing r ok { s with log.presFull := true }

/-- RECORD_WRITE (R509, R596); `readBackOk` tells whether the record read back as it was programmed. -/
def execRecordWrite (readBackOk : Bool) (s : State) : Host.Outcome State Fault Refusal :=
  .next (if recorderRuns s && !compactionDue s then
      match s.log.queue with
      | r :: _ => writeHead r readBackOk s
      | [] => s
    else s)

/-- The ring's sector written earliest: the first used one behind the write point. -/
def earliestSector (s : State) : Option Nat :=
  let used := usedSectors s.log.flash ringBase ringEnd
  let w := s.log.ringPoint / sectorBytes * sectorBytes
  match used.filter (w < ·) with
  | b :: _ => some b
  | [] => used.head?

/-- Copy one live record to the write point and mark the original (R512). -/
def copyRec (s : State) (r : Found) : State :=
  let a := ringPlace s.log.ringPoint r.len
  { s with log.flash := removeRec r.addr (cellsPut erased a (cellsGet erased s.log.flash r.addr r.len) s.log.flash), log.ringPoint := a + r.len }

/-- RING_COMPACTION (R512). -/
def execRingCompaction (s : State) : Host.Outcome State Fault Refusal :=
  .next (if recorderRuns s && compactionDue s then
      match earliestSector s with
      | some b =>
        let s := ((scanAt s.log.flash b).1.filter (·.valid)).foldl copyRec s
        { s with log.flash := cellsClear b sectorBytes s.log.flash }
      | none => s
    else s)

/-- FLASH_TIMEOUT: a program or erase has not completed within 5 s (R514). -/
def execFlashTimeout (s : State) : Host.Outcome State Fault Refusal :=
  .next (if s.life = .ready || s.life = .recovery then { s with log.flashFault := true } else s)

/-! ### Mounting (R513) -/

/-- Where the next record goes in a region: behind the last used sector's records, cyclically in the ring. -/
def writePoint (flash : List Host.Cell) (lo hi : Nat) : Nat :=
  let used := usedSectors flash lo hi
  let last := (used.find? fun b => !used.contains (if b + sectorBytes = hi && lo = ringBase then lo else b + sectorBytes)).or used.getLast?
  match last with
  | some b => b + (scanAt flash b).2
  | none => lo

/-- A compaction that was cut short left two live copies: the one in the sector written earlier goes. -/
def dropCopies (flash : List Host.Cell) (point : Nat) : List Host.Cell :=
  let recs := ringRecs flash
  let age (a : Nat) : Nat := (a / sectorBytes + 2 * 1792 - point / sectorBytes - 1) % 1792
  let bytes (r : Found) := cellsGet erased flash r.addr r.len
  (recs.filter fun r => recs.any fun q => decide (age r.addr < age q.addr) && bytes q == bytes r).foldl (fun f r => removeRec r.addr f) flash

/-- Scan both regions at reset exit. -/
def mountLog (s : State) : State :=
  let point := writePoint s.log.flash ringBase ringEnd
  { s with log.presPoint := writePoint s.log.flash presBase ringBase, log.ringPoint := if ringEnd ≤ point then ringBase else point,
           log.flash := dropCopies s.log.flash point, log.mounted := true, log.retry := false }

/-! ### Authorised clearing (R515 to R517, R522) -/

/-- Bytes of the token and of signature s as the registers hold them. -/
def tokenBytes (s : State) : List Byte := s.log.token.flatMap fun w => toLe 8 w.toNat
def tokenSig (s : State) : List Byte := s.log.sig.flatMap fun w => toLe 8 w.toNat

/-- Step 1 of R516. -/
def tokenOk (s : State) : Bool :=
  let t := tokenBytes s
  u32 t 0 == 0x4C435141 && u8 t 4 % 4 != 0 && u8 t 4 / 4 == 0 && zeroAt t 5 3 && u64 t 8 == s.dom.uid.toNat &&
  u64 t 0x10 == s.log.nonce.toNat && zeroAt t 0x18 8 && u8 t 0x21 == 1 && zeroAt t 0x22 14 && zeroAt t 0x60 32

/-- Step 2 of R516. -/
def tokenSigned (s : State) : Bool :=
  let t := tokenBytes s
  match s.sec.slots[u8 t 0x20]? with
  | some (1, x, y) => ecdsaVerify (x, y) (sha384 (t.take 0x20)) (beNat (slice t 0x30 48)) (beNat (tokenSig s))
  | _ => false

/-- A queued record belongs to the regions that `scope` names (R510). -/
def inScope (s : State) (scope : Nat) (r : Rec) : Bool :=
  if 2 ≤ r.sev && !s.log.presFull then scope.testBit 1 else scope.testBit 0

/-- Step 3 of R516. -/
def beginClear (s : State) : State :=
  stamped s fun s t =>
    let scope := u8 (tokenBytes s) 4
    let gone := s.log.queue.filter fun r => ticketLt r.ticket t && inScope s scope r
    { s with log.nonce := Config.random s.free, free := s.free + 1, log.clear := some ⟨t, scope, gone.length, s.now⟩, log.retry := false,
             log.queue := s.log.queue.filter fun r => !(ticketLt r.ticket t && inScope s scope r) }

/-- A write to LOG_CLEAR_CMD (R516). -/
def logClear (v : W64) (s : State) : State :=
  if !regBit v 0 then s
  else if s.log.clear.isSome then { s with log.clearCode := 2 }
  else if !tokenOk s then { s with log.clearCode := 1 }
  else if !tokenSigned s then { s with log.clearCode := 1, sec.sigFailClear := satInc s.sec.sigFailClear }
  else beginClear s

/-- LOG_CLEAR. -/
def execLogClear (c : Cmd) (s : State) : Host.Outcome State Fault Refusal :=
  .next (mgmtWrite c rLogClear 1 (fun _ => logClear 1) s)

/-- The record that heads a cleared region (R517). -/
def clearedRec (s : State) (c : LogClearing) : Rec :=
  ⟨recSeverity 0xF0, 0xF0, min s.log.hours 0xFFFFFFFF, c.ticket, 8, 0, 0, c.scope, 1, 0,
   BitVec.ofNat 64 (s.log.dropCount.toNat + min c.discarded 0xFFFFFFFF * 2 ^ 32), toLe 4 s.wb.powerCycles.toNat⟩

/-- Steps 4 and 5 of R516. -/
def clearDone (c : LogClearing) (s : State) : State :=
  let r := clearedRec s c
  let b := r.bytes 0xA5
  let s := if c.scope.testBit 0 then
      postAlert r { s with log.flash := cellsPut erased ringBase b (cellsClear ringBase (ringEnd - ringBase) s.log.flash),
                           log.ringPoint := ringBase + b.length, log.dropCount := 0 } else s
  let s := if c.scope.testBit 1 then
      postAlert r { s with log.flash := cellsPut erased presBase b (cellsClear presBase (ringBase - presBase) s.log.flash),
                           log.presPoint := presBase + b.length, log.presFull := false } else s
  { s with log.clear := none, log.clearCode := 0 }

/-- CLEAR_ERASE_DONE. -/
def execClearEraseDone (s : State) : Host.Outcome State Fault Refusal :=
  .next (whenServing s fun s => match s.log.clear with
    | some c => if past s c.since 300000000000 then s else clearDone c s
    | none => s)

/-- LOG_CLEAR_TIMEOUT. -/
def execLogClearTimeout (s : State) : Host.Outcome State Fault Refusal :=
  .next (whenServing s fun s => match s.log.clear with
    | some c => if past s c.since 300000000000 then { s with log.clear := none, log.clearCode := 3, log.flashFault := true } else s
    | none => s)

end Sys2Proof.Machine
end

