-- ==== Sys2Proof/Machine/Packets.lean ====
section
/-! DEFINITION. Transactions as bytes and as flits (17 R430, R444 to R453; 18 R473; 06 R143). -/

namespace Sys2Proof.Machine

/-- A journal entry as it stands in the journal and in MIRROR_ENTRY (R143). -/
def jentryBytes (e : JEntry) : List Byte :=
  padTo (entryLen e) (toLe 4 (entryLen e) ++ toLe 1 e.kind ++ toLe 3 0 ++ toLe 8 e.ticket.toNat ++ toLe 8 e.tag.toNat ++
    toLe 8 e.pos.toNat ++ e.body)

/-- A key/value block's header (R346). -/
def kvHeadBytes (h : KvHead) : List Byte :=
  padTo 64 (toLe 8 h.ticket.toNat ++ toLe 8 h.handle.toNat ++ toLe 2 h.layer ++ toLe 2 0 ++ toLe 4 h.index ++ toLe 1 h.kvFormat ++
    toLe 1 h.nTokens ++ toLe 2 h.kvHeads ++ toLe 2 h.headDim ++ toLe 2 0 ++ toLe 4 h.kScale.toNat ++ toLe 4 h.vScale.toNat ++
    toLe 4 h.dataLen)

/-- Fixed part of WORK_FWD, RERANK_FWD and PROMPT (R473). -/
def fwdBytes (h : FwdHead) (decodeNode : Nat) : List Byte :=
  padTo 32 (toLe 2 h.epoch ++ toLe 2 decodeNode ++ toLe 4 h.mgrEpoch ++ toLe 4 h.softLeft ++ toLe 4 h.hardLeft ++ toLe 4 h.shard ++
    toLe 1 ((if h.reissue then 1 else 0) + if h.owed then 2 else 0))

/-- Fixed part of HEARTBEAT (R473). -/
def beatBytes (kind : Nat) (h : Heartbeat) : List Byte :=
  toLe 1 kind ++ toLe 1 h.role ++ toLe 2 h.epoch ++ toLe 4 h.mgrEpoch ++ toLe 8 h.planId.toNat ++ toLe 4 h.planGen.toNat ++
  toLe 1 h.jobState ++ toLe 1 ((if h.restoring then 1 else 0) + if h.activeValid then 2 else 0) ++ toLe 2 0 ++
  toLe 4 h.freeBlocks ++ toLe 4 h.sinceMgrUs ++ toLe 4 h.powerCycles

/-- What a transaction says beside its header's addresses, `txn_id` and ticket. -/
structure Frame where
  tclass : Nat
  op : Nat
  vc : Nat
  fixed : List Byte
  data : List Byte := []
  status : Nat := 0
  segOff : Nat := 0

/-- Class, operation, channel and body of what the device sends (R446). Fields that R473 has no place for stand behind the
data that it names, and the KV operations that no rule lays out hold their fields in the order named (log 23). -/
def frameOf (ticket : Ticket) : Msg → Frame
  | .mresp o d st => { tclass := 1, op := 3, vc := 2, fixed := toLe 8 o.toNat ++ toLe 8 d.toNat, status := st }
  | .mwrite o d => { tclass := 1, op := 2, vc := 0, fixed := toLe 8 o.toNat ++ toLe 8 d.toNat }
  | .intakeAck tag out => { tclass := 2, op := 3, vc := 2, fixed := toLe 8 tag.toNat ++ toLe 8 ticket.toNat ++ toLe 8 out }
  | .fetchResp st off d => { tclass := 2, op := 5, vc := 2, fixed := [], data := d, status := st, segOff := off }
  | .workFwd h desc input => { tclass := 3, op := 1, vc := 1, fixed := fwdBytes h 0, data := desc ++ input }
  | .answer a => {
      tclass := 3, op := 2, vc := 2,
      fixed := padTo 32 (toLe 4 a.shard ++ toLe 1 a.status ++
        toLe 1 ((if a.filterShort then 4 else 0) + if a.nanSeen then 8 else 0) ++ toLe 1 a.degraded ++ toLe 1 0 ++ toLe 2 a.list.length ++
        toLe 2 0 ++ toLe 4 a.indexVersion ++ toLe 8 a.result0.toNat),
      data := a.list.flatMap entryBytes ++ a.bytes }
  | .rerankFwd h _ tokens ids => {
      tclass := 3, op := 3, vc := 1, fixed := fwdBytes h 0,
      data := tokensBytes tokens ++ toLe 4 ids.length ++ ids.flatMap fun i => toLe 8 i.toNat }
  | .prompt h _ n tokens => { tclass := 3, op := 4, vc := 1, fixed := fwdBytes h n.toNat, data := tokensBytes tokens }
  | .gatherReq t v left ix => {
      tclass := 3, op := 5, vc := 1, fixed := toLe 4 t ++ toLe 4 v ++ toLe 4 ix.length ++ toLe 4 left, data := ix.flatMap (toLe 4) }
  | .gatherAns t v n first width rows => {
      tclass := 3, op := 6, vc := 2, fixed := toLe 4 t ++ toLe 4 v ++ toLe 4 n ++ toLe 2 first ++ toLe 2 width, data := rows }
  | .mirrorEntry e => { tclass := 3, op := 7, vc := 1, fixed := [], data := jentryBytes e }
  | .mirrorAck p sup => { tclass := 3, op := 8, vc := 2, fixed := toLe 8 p.toNat ++ toLe 8 (if sup then 1 else 0) }
  | .streamRec r => { tclass := 3, op := 9, vc := 1, fixed := [], data := r }
  | .heartbeat k h => { tclass := 4, op := 1, vc := 0, fixed := beatBytes k h }
  | .enum k d slot n uid es => {
      tclass := 4, op := 2, vc := 0, fixed := toLe 1 k ++ toLe 1 d ++ toLe 2 slot ++ toLe 2 n.toNat ++ toLe 2 0 ++ toLe 8 uid.toNat,
      data := es.flatMap fun e => toLe 2 e.1 ++ toLe 2 0 ++ toLe 4 e.2 }
  | .prepare e => { tclass := 4, op := 3, vc := 0, fixed := toLe 8 e }
  | .prepared c d ss => {
      tclass := 4, op := 4, vc := 0, fixed := toLe 2 c ++ toLe 2 d ++ toLe 4 0,
      data := ss.flatMap fun x => toLe 4 x.table ++ toLe 2 x.first ++ toLe 2 x.width }
  | .commit e p => { tclass := 4, op := 5, vc := 0, fixed := toLe 8 e ++ toLe 8 p.toNat }
  | .abort e => { tclass := 4, op := 6, vc := 0, fixed := toLe 8 e }
  | .publishPrep t v => { tclass := 4, op := 7, vc := 0, fixed := toLe 4 t ++ toLe 4 v }
  | .ready t c => { tclass := 4, op := 8, vc := 0, fixed := toLe 4 t ++ toLe 4 c }
  | .publishCommit t v => { tclass := 4, op := 9, vc := 0, fixed := toLe 4 t ++ toLe 4 v }
  | .retire t v => { tclass := 4, op := 10, vc := 0, fixed := toLe 4 t ++ toLe 4 v }
  | .cancelFwd x => { tclass := 4, op := 11, vc := 0, fixed := toLe 8 (if x then 1 else 0) }
  | .cacheOpen n last f layers => { tclass := 5, op := 1, vc := 1, fixed := toLe 4 n ++ toLe 4 last ++ toLe 4 f ++ toLe 4 layers }
  | .opened h => { tclass := 5, op := 2, vc := 2, fixed := toLe 8 h.toNat }
  | .noRoom => { tclass := 5, op := 3, vc := 2, fixed := [] }
  | .kvBlock h off d => { tclass := 5, op := 4, vc := 3, fixed := kvHeadBytes h, data := d, segOff := off }
  | .kvAck h l i => { tclass := 5, op := 5, vc := 2, fixed := toLe 8 h.toNat ++ toLe 4 l ++ toLe 4 i }
  | .prefillDone h => { tclass := 5, op := 6, vc := 1, fixed := toLe 8 h.toNat }
  | .kvLost h => { tclass := 5, op := 7, vc := 1, fixed := toLe 8 h.toNat }
  | .cacheDrop h => { tclass := 5, op := 8, vc := 1, fixed := toLe 8 h.toNat }
  | .wr a d => { tclass := 6, op := 2, vc := 3, fixed := toLe 8 a ++ toLe 8 d.length, data := d }
  | .rdData st d => { tclass := 6, op := 3, vc := 3, fixed := [], data := d, status := st }
  | .wrAck st => { tclass := 6, op := 4, vc := 2, fixed := [], status := st }

/-- Header and body of one segment (R444). -/
def segmentBytes (t : Txn) (f : Frame) (off : Nat) (data : List Byte) : List Byte :=
  toLe 2 t.dst.toNat ++ toLe 2 t.src.toNat ++ toLe 1 f.tclass ++ toLe 1 f.op ++ toLe 2 t.txn.toNat ++
  toLe 4 (f.fixed.length + data.length) ++ toLe 4 off ++ toLe 8 t.ticket.toNat ++ toLe 2 f.status ++ toLe 6 0 ++ f.fixed ++ data

/-- The segments that carry a transaction (R445). -/
def Txn.segments (t : Txn) : List (List Byte) :=
  let f := frameOf t.ticket t.msg
  if f.data.isEmpty then [segmentBytes t f f.segOff []]
  else (chunks 65536 (f.data.length / 65536 + 1) f.data).mapIdx fun i d => segmentBytes t f (f.segOff + 65536 * i) d

/-- The DATA flits of a transaction (R430, R444). -/
def Txn.flits (t : Txn) : List DataFlit :=
  let vc := (frameOf t.ticket t.msg).vc
  (t.segments.mapIdx fun k seg =>
    let parts := chunks 232 (seg.length / 232 + 1) seg
    parts.mapIdx fun i p => ⟨vc, i == 0, i + 1 == parts.length, k == 0 && i == 0, p, t⟩).flatten

/-! ### Transactions received (R445, R446) -/

/-- Channel, length of the fixed part and whether data may follow, for each operation of R446; the lengths of KV bodies
are log 23's. -/
def opShape (tclass op : Nat) : Option (Nat × Nat × Bool) :=
  match tclass, op with
  | 1, 1 | 1, 2 => some (0, 16, false)
  | 1, 3 => some (2, 16, false)
  | 2, 1 => some (1, 128, true)
  | 2, 2 => some (1, 0, true)
  | 2, 3 => some (2, 24, false)
  | 2, 4 => some (1, 8, false)
  | 2, 5 => some (2, 0, true)
  | 3, 1 | 3, 3 | 3, 4 => some (1, 32, true)
  | 3, 2 => some (2, 32, true)
  | 3, 5 => some (1, 16, true)
  | 3, 6 => some (2, 16, true)
  | 3, 7 | 3, 9 => some (1, 0, true)
  | 3, 8 => some (2, 16, false)
  | 4, 1 => some (0, 40, false)
  | 4, 2 => some (0, 16, true)
  | 4, 3 | 4, 6 | 4, 7 | 4, 8 | 4, 9 | 4, 10 | 4, 11 => some (0, 8, false)
  | 4, 4 => some (0, 8, true)
  | 4, 5 => some (0, 16, false)
  | 5, 1 => some (1, 16, false)
  | 5, 2 => some (2, 8, false)
  | 5, 3 => some (2, 0, false)
  | 5, 4 => some (3, 64, true)
  | 5, 5 => some (2, 16, false)
  | 5, 6 | 5, 7 | 5, 8 => some (1, 8, false)
  | 6, 1 => some (1, 16, false)
  | 6, 2 => some (3, 16, true)
  | 6, 3 => some (3, 0, true)
  | 6, 4 => some (2, 0, false)
  | _, _ => none

/-- The transaction keeps R444's and its operation's body rules (R445). -/
def txnOk (vc : Nat) (b : List Byte) : Bool :=
  match opShape (u8 b 4) (u8 b 5) with
  | some (v, fixed, data) =>
    v == vc && decide (32 + fixed ≤ b.length) && u32 b 8 == b.length - 32 && zeroAt b 0x1A 6 &&
    (if data then decide (b.length ≤ 32 + fixed + 65536) else b.length == 32 + fixed)
  | none => false

end Sys2Proof.Machine
end

