-- ==== Sys2Proof/Machine/Link.lean ====
section
/-! DEFINITION. The Ulrix link: training, flits, replay, lanes, credits, routes and the port commands (17 R424 to R443,
R454 to R458). -/

namespace Sys2Proof.Machine

/-! ### Sub-ports (R424, R425, R455) -/

def getSub (s : State) (i : Nat) : SubPort := s.lnk.subs.getD i {}

def setSub (i : Nat) (p : SubPort) (s : State) : State := { s with lnk.subs := s.lnk.subs.set i p }

/-- Lanes of sub-port `u` of a port split as R424 numbers the modes; none where the mode has no such sub-port. -/
def subLanes (split u : Nat) : Byte :=
  match split, u with
  | 0, 0 => 0xFF
  | 1, 0 => 0x0F
  | 1, 1 => 0xF0
  | 2, 0 => 0x03
  | 2, 1 => 0x0C
  | 2, 2 => 0x30
  | 2, 3 => 0xC0
  | _, _ => 0

/-- Lanes a sub-port may train under its port's configuration. -/
def cfgLanes (s : State) (i : Nat) : Byte :=
  let c := s.lnk.ports.getD (i / 4) {}
  if c.enable then subLanes c.split.toNat (i % 4) &&& ~~~c.laneOff else 0

def laneCount (m : Byte) : Nat := ((List.range 8).filter m.getLsbD).length

/-- The link works: not in power-on reset, a flush or the halt, and not on HD0's ports in PS4 (R414, R532). -/
def linkOn (s : State) (i : Nat) : Bool :=
  (s.life == .ready || s.life == .recovery) && (s.pwr.state != 4 || decide (24 ≤ i))

/-- Begin a training from step 1, or from step 2 at the lanes given (R429, R437). -/
def startTraining (keep : Bool) (lanes : Byte) (i : Nat) (s : State) : State :=
  if lanes = 0 then s
  else setSub i { getSub s i with state := .training, began := s.now, keepSeq := keep, allowed := lanes, after := false, farBad := false } s

/-- Begin to train every sub-port (R429): at power-on reset dropped lanes are tested again. -/
def trainAll (s : State) : State := (List.range 48).foldl (fun s i => startTraining false (cfgLanes s i &&& ~~~(getSub s i).dropped) i s) s

/-- A retrain at the present lanes, with the sequence state kept (R437). -/
def retrainSub (i : Nat) (s : State) : State := startTraining true (getSub s i).lanes i s

/-- What the sub-port's first entry into service sets, unless R437 keeps it (R429 step 5). -/
def freshSeq (p : SubPort) : SubPort :=
  { p with sendSeq := 0, expect := 0, replay := [], farCount := [0, 0, 0, 0], sentCount := [0, 0, 0, 0], recvCount := [0, 0, 0, 0],
           nakSent := false, gapFailed := false, flagged := 0, naks := 0, timeouts := 0, ackedTo := 0,
           stallSince := [none, none, none, none], creditStall := false, arriving := [[], [], [], []] }

/-! ### Flits sent (R430, R431, R433, R435) -/

/-- Bytes of a flit: its kind, control byte and payload, with this sub-port's `ack_seq` and credits. -/
def flitBytes (p : SubPort) (kind ctl plen : Nat) (seq : W16) (payload : List Byte) : List Byte :=
  let b := toLe 1 kind ++ toLe 1 ctl ++ toLe 1 plen ++ toLe 1 0 ++ toLe 2 seq.toNat ++ toLe 2 p.expect.toNat ++
    p.recvCount.flatMap (fun c => toLe 2 c.toNat) ++ padTo 232 payload
  b ++ toLe 8 (crc64 b).toNat

/-- Put a flit on a sub-port's lanes. -/
def emit (i : Nat) (kind ctl plen : Nat) (seq : W16) (payload : List Byte) (s : State) : State :=
  let p := getSub s i
  let s := { s with lnk.wire := s.lnk.wire ++ [(i, flitBytes p kind ctl plen seq payload)] }
  setSub i { p with ackSent := s.now, ackedTo := p.expect } s

def emitData (i : Nat) (seq : W16) (f : DataFlit) (s : State) : State :=
  emit i 1 (f.vc + (if f.sop then 4 else 0) + if f.eop then 8 else 0) f.payload.length seq f.payload s

/-- Sequence number of the oldest unacknowledged flit. -/
def oldestSeq (p : SubPort) : W16 := p.sendSeq - BitVec.ofNat 16 p.replay.length

/-- Replay from the k-th unacknowledged flit onward (R436). -/
def replayFrom (i k : Nat) (s : State) : State :=
  let p := getSub s i
  let s := setSub i { p with ackSince := s.now } s
  ((p.replay.drop k).mapIdx fun j f => (j, f)).foldl (fun s x => emitData i (oldestSeq p + BitVec.ofNat 16 (k + x.1)) x.2 s) s

/-- Credits for a channel (R433). -/
def credits (p : SubPort) (v : Nat) : Nat :=
  (p.farCount.getD v 0 + BitVec.ofNat 16 (p.farBuf.getD v 0) - p.sentCount.getD v 0).toNat

/-- Note for which channels flits wait with no credit (R434). -/
def noteStalls (i : Nat) (s : State) : State :=
  let p := getSub s i
  let since := (List.range 4).map fun v =>
    if p.state == .up && p.waiting.any (·.vc == v) && credits p v == 0 then some ((p.stallSince.getD v none).getD s.now) else none
  setSub i { p with stallSince := since, creditStall := p.creditStall && since.any (·.isSome) } s

/-- The first waiting flit that may be sent. -/
def sendable (p : SubPort) : Option Nat :=
  if p.state = .up && p.replay.length < 2048 then p.waiting.findIdx? fun f => decide (0 < credits p f.vc) else none

/-- Send new flits while credits and the window last (R433, R435). -/
def sendNew : Nat → Nat → State → State
  | 0, i, s => noteStalls i s
  | n + 1, i, s =>
    let p := getSub s i
    match sendable p with
    | some k =>
      match p.waiting[k]? with
      | some f =>
        let q := { p with waiting := p.waiting.eraseIdx k, replay := p.replay ++ [f], sendSeq := p.sendSeq + 1,
                          sentCount := p.sentCount.set f.vc (p.sentCount.getD f.vc 0 + 1),
                          ackSince := if p.replay.isEmpty then s.now else p.ackSince }
        sendNew n i (emitData i p.sendSeq f (setSub i q s))
      | none => noteStalls i s
    | none => noteStalls i s

def sendWaiting (i : Nat) (s : State) : State := sendNew (getSub s i).waiting.length i s

/-! ### Routes (R442) -/

/-- UP sub-ports for which a property of the far end holds, in port and suffix order. -/
def upSubs (s : State) (p : SubPort → Bool) : List Nat :=
  (List.range 48).filter fun i => linkOn s i && (getSub s i).state == .up && p (getSub s i)

/-- The sub-port for a destination. -/
def route (s : State) (dst : Node) : Option Nat :=
  match upSubs s (·.farNode == dst) with
  | i :: _ => some i
  | [] => let sw := upSubs s (·.farKind == 2); if sw.isEmpty then none else sw[nodeMember dst % sw.length]?

/-- Hand the transactions that have a route to their sub-ports, and send what may be sent. -/
def pumpLink (s : State) : State :=
  let go := s.out.filter fun x => (route s x.2.dst).isSome
  let s' := { s with out := s.out.filter fun x => (route s x.2.dst).isNone }
  let s := go.foldl (fun s x => match route s x.2.dst with
    | some i => setSub i { getSub s i with waiting := (getSub s i).waiting ++ x.2.flits } s
    | none => s) s'
  (List.range 48).foldl (fun s i => if linkOn s i && !(getSub s i).waiting.isEmpty then sendWaiting i s else s) s

/-- UNREACHABLE: transactions that have waited 3 ms for a sub-port go (R442). -/
def execUnreachable (s : State) : Host.Outcome State Fault Refusal :=
  .next (if s.life = .ready || s.life = .recovery then
      let late := s.out.filter fun x => past s x.1 3000000 && (route s x.2.dst).isNone
      { s with out := s.out.filter fun x => !(past s x.1 3000000 && (route s x.2.dst).isNone),
               lnk.unreachable := satAdd s.lnk.unreachable late.length }
    else s)

/-! ### Training ends (R429, R425, R443) -/

/-- A training that does not end in service: a retrain's failure takes the sub-port down (R438). -/
def trainingFailed (record farBad : Bool) (i : Nat) (s : State) : State :=
  let p := getSub s i
  if p.keepSeq then
    let s := subLost i s
    setSub i { getSub s i with farBad := farBad } s
  else
    let s := setSub i { p with state := .down, lanes := 0, farBad := farBad } s
    if record then stampedIf s fun s t => event t 0x21 (linkLoc (portOf i) (i % 4) 0xFF) 0 2 0 0 [] s else s

/-- LINK_TRAINING (R429). -/
def execLinkTraining (port sub : Nat) (t : Training) (s : State) : Host.Outcome State Fault Refusal :=
  let i := 4 * port + sub
  let p := getSub s i
  .next (if !linkOn s i || p.state != .training then s
    else
      let lanes := t.lanes &&& p.allowed
      let width := laneCount (subLanes (s.lnk.ports.getD port {}).split.toNat sub)
      if lanes = 0 then trainingFailed true false i s
      else if t.farKind = 0 then trainingFailed false false i s
      else if t.farKind = 3 || t.farLanes != width then trainingFailed false true i s
      else
        let q := if p.keepSeq then p else freshSeq p
        let q := { q with state := .up, lanes := lanes, farKind := BitVec.ofNat 2 t.farKind, farNode := t.farNode, farBuf := t.buffers,
                          farBad := false, keepSeq := false, naks := 0, timeouts := 0, gapFailed := false, nakSent := false, flagged := 0,
                          ackSince := s.now, ackSent := s.now }
        sendWaiting i (replayFrom i 0 (setSub i q s)))

/-- TRAINING_TIMEOUT (R429). -/
def execTrainingTimeout (port sub : Nat) (s : State) : Host.Outcome State Fault Refusal :=
  let i := 4 * port + sub
  .next (if linkOn s i && (getSub s i).state == .training && past s (getSub s i).began 130000000 then trainingFailed false false i s else s)

/-! ### Lanes (R437) -/

/-- Restripe onto the lanes of a mask: each lane that leaves is counted and recorded. -/
def restripe (mask : Byte) (attempts i : Nat) (s : State) : State :=
  let p := getSub s i
  let gone := p.lanes &&& ~~~mask
  let lanes := (List.range 8).filter gone.getLsbD
  let s := setSub i { p with state := .laneChg, began := s.now, lanes := p.lanes &&& mask, dropped := p.dropped ||| gone,
                             laneDropped := satAdd p.laneDropped lanes.length, gapFailed := false, flagged := 0, nakSent := false,
                             naks := 0, timeouts := 0 } s
  lanes.foldl (fun s l => stampedIf s fun s t => event t 0x20 (linkLoc (portOf i) (i % 4) l) 0 attempts 5 0 [] s) s

/-- The receiver's part of a lasting fault: lanes flagged both times leave, or the sub-port retrains. -/
def lastingFault (flagged : Byte) (i : Nat) (s : State) : State :=
  let p := getSub s i
  let bad := p.flagged &&& flagged &&& p.lanes
  if bad = 0 then retrainSub i s
  else if p.lanes &&& ~~~bad = 0 then subLost i s
  else emit i 3 0 0 0 [p.lanes &&& ~~~bad] (restripe (~~~bad) 2 i s)

/-- A lane change ends (at most 20 µs after it began): the sender replays, or the sub-port retrains. -/
def laneDone (i : Nat) (s : State) : State :=
  let p := getSub s i
  if p.after then retrainSub i s else sendWaiting i (replayFrom i 0 (setSub i { p with state := .up } s))

/-- Lane changes that are running end. -/
def laneChanges (s : State) : State :=
  (List.range 48).foldl (fun s i => if (getSub s i).state = .laneChg && linkOn s i then laneDone i s else s) s

/-! ### Flits received (R431, R433, R435, R436) -/

/-- R431: the check, the reserved bits and the kind's payload length. -/
def flitGood (f : List Byte) : Bool :=
  let kind := u8 f 0
  f.length == 256 && u64 f 0xF8 == (crc64 (f.take 0xF8)).toNat && decide (kind ≤ 3) && decide (u8 f 1 < 16) && u8 f 3 == 0 &&
  (if kind = 1 then decide (1 ≤ u8 f 2) && decide (u8 f 2 ≤ 232) else u8 f 2 == 0)

/-- A flit that did not arrive whole: the first failure of a gap is answered with one NAK, the second is lasting. -/
def badFlit (flagged : Byte) (i : Nat) (s : State) : State :=
  let p := getSub s i
  let s := setSub i { p with crcFail := satInc p.crcFail } s
  let p := getSub s i
  if p.state = .laneChg then setSub i { p with after := true } s
  else if p.gapFailed then lastingFault flagged i s
  else
    let s := setSub i { p with gapFailed := true, flagged := flagged, nakSent := true } s
    if p.nakSent then s else emit i 2 0 0 p.expect [] s

/-- `ack_seq` and `credits` of an arriving flit (R433, R435). -/
def takeAck (i : Nat) (f : List Byte) (s : State) : State :=
  let p := getSub s i
  let n := (BitVec.ofNat 16 (u16 f 6) - oldestSeq p).toNat
  let counts := (List.range 4).map fun v => BitVec.ofNat 16 (u16 f (8 + 2 * v))
  let p := { p with farCount := counts }
  if 0 < n && n ≤ p.replay.length then
    let fixed := decide (0 < p.naks) || decide (0 < p.timeouts)
    setSub i { p with replay := p.replay.drop n, ackSince := s.now, naks := 0, timeouts := 0,
                      replayOk := if fixed then satInc p.replayOk else p.replayOk } s
  else setSub i p s

/-- A whole transaction has arrived on a channel (R441, R445; log 10). -/
def deliverTxn (v : Nat) (b : List Byte) (s : State) : State :=
  if !txnOk v b then { s with lnk.badTxn := satInc s.lnk.badTxn }
  else
    let dst : Node := BitVec.ofNat 16 (u16 b 0)
    if s.lnk.node == some dst || dst == localNode || dst == broadcastNode then { s with lnk.delivered := s.lnk.delivered ++ [b] }
    else { s with lnk.misroute := satInc s.lnk.misroute }

/-- Take the flit that is expected (R430, R433, R435). -/
def acceptFlit (i : Nat) (f : List Byte) (s : State) : State :=
  let p := getSub s i
  let v := u8 f 1 % 4
  let part := slice f 0x10 (u8 f 2)
  let whole := if (u8 f 1).testBit 2 then part else p.arriving.getD v [] ++ part
  let eop := (u8 f 1).testBit 3
  let s := setSub i { p with expect := p.expect + 1, nakSent := false, gapFailed := false, flagged := 0,
                             recvCount := p.recvCount.set v (p.recvCount.getD v 0 + 1),
                             arriving := p.arriving.set v (if eop then [] else whole) } s
  if eop then deliverTxn v whole s else s

/-- DATA_FLIT (R431, R435, R437). -/
def execDataFlit (port sub : Nat) (flit : List Byte) (flagged : Byte) (s : State) : Host.Outcome State Fault Refusal :=
  let i := 4 * port + sub
  .next (if !linkOn s i || (getSub s i).state != .up && (getSub s i).state != .laneChg then s
    else if !flitGood flit then badFlit flagged i s
    else if (getSub s i).state = .laneChg then s
    else
      let s := takeAck i flit s
      let p := getSub s i
      let s := if u8 flit 0 != 1 then s
        else if u16 flit 4 = p.expect.toNat then acceptFlit i flit s
        else if p.nakSent then s
        else emit i 2 0 0 p.expect [] (setSub i { p with nakSent := true } s)
      sendWaiting i s)

/-- The sender's part of a failure: the first replays, a second of its kind is lasting (R436, R454). -/
def sendFailed (nak : Bool) (k i : Nat) (s : State) : State :=
  let p := getSub s i
  let q := if nak then { p with naks := p.naks + 1 } else { p with timeouts := p.timeouts + 1, ackSince := s.now }
  let s := setSub i q s
  if 2 ≤ q.naks || 2 ≤ q.timeouts then retrainSub i s
  else if q.naks + q.timeouts = 1 then replayFrom i k s
  else s

/-- NAK (R436). -/
def execNak (port sub : Nat) (flit : List Byte) (flagged : Byte) (s : State) : Host.Outcome State Fault Refusal :=
  let i := 4 * port + sub
  .next (if !linkOn s i || (getSub s i).state != .up && (getSub s i).state != .laneChg then s
    else if !flitGood flit then badFlit flagged i s
    else if (getSub s i).state = .laneChg then s
    else
      let s := takeAck i flit s
      let p := getSub s i
      let k := (BitVec.ofNat 16 (u16 flit 4) - oldestSeq p).toNat
      let s := if u8 flit 0 = 2 && k < p.replay.length then sendFailed true k i s else s
      sendWaiting i s)

/-- LANE_CHG: the far end has dropped lanes (R437). -/
def execLaneChg (port sub : Nat) (flit : List Byte) (s : State) : Host.Outcome State Fault Refusal :=
  let i := 4 * port + sub
  .next (if !linkOn s i || (getSub s i).state != .up && (getSub s i).state != .laneChg then s
    else if !flitGood flit then badFlit 0 i s
    else
      let s := takeAck i flit s
      let mask : Byte := BitVec.ofNat 8 (u8 flit 0x10)
      if u8 flit 0 != 3 then s
      else if (getSub s i).lanes &&& mask = 0 then subLost i s
      else restripe mask 2 i s)

/-- IDLE (R430, R433). -/
def execIdle (port sub : Nat) (flit : List Byte) (s : State) : Host.Outcome State Fault Refusal :=
  let i := 4 * port + sub
  .next (if !linkOn s i || (getSub s i).state != .up then s
    else if !flitGood flit then badFlit 0 i s
    else sendWaiting i (takeAck i flit s))

/-- REPLAY_TIMEOUT (R436). -/
def execReplayTimeout (port sub : Nat) (s : State) : Host.Outcome State Fault Refusal :=
  let i := 4 * port + sub
  let p := getSub s i
  .next (if linkOn s i && p.state == .up && !p.replay.isEmpty && past s p.ackSince 4000 then sendFailed false 0 i s else s)

/-- ACK_TIMER (R435). -/
def execAckTimer (port sub : Nat) (s : State) : Host.Outcome State Fault Refusal :=
  let i := 4 * port + sub
  let p := getSub s i
  .next (if linkOn s i && p.state == .up && p.ackedTo != p.expect && past s p.ackSent 200 then emit i 0 0 0 0 [] s else s)

/-! ### Credit stalls (R434) -/

/-- A channel has held waiting flits with no credit for a time. -/
def stalledFor (p : SubPort) (vc bound : Nat) (s : State) : Bool := ((p.stallSince.getD vc none).map fun t => past s t bound).getD false

/-- CREDIT_STALL. -/
def execCreditStall (port sub vc : Nat) (s : State) : Host.Outcome State Fault Refusal :=
  let i := 4 * port + sub
  let p := getSub s i
  .next (if linkOn s i && p.state == .up && !p.creditStall && stalledFor p vc 10000000 s then
      stampedIf (setSub i { p with creditStall := true } s) fun s t => event t 0x22 (linkLoc port sub 0xFF) vc 1 0 0 [] s
    else s)

/-- CREDIT_STALL_RETRAIN. -/
def execCreditStallRetrain (port sub vc : Nat) (s : State) : Host.Outcome State Fault Refusal :=
  let i := 4 * port + sub
  let p := getSub s i
  .next (if linkOn s i && p.state == .up && stalledFor p vc 100000000 s then retrainSub i s else s)

/-! ### LNK_PORT_CMD (R456) -/

/-- RETRAIN: lanes that were dropped are tested again, and the sequence state is kept. -/
def retrainCmd (i : Nat) (s : State) : State :=
  let p := getSub s i
  if p.state = .laneChg then setSub i { p with after := true } s
  else
    let lanes := cfgLanes s i
    if lanes = 0 then subLost i s
    else startTraining (p.state == .up || (p.state == .training && p.keepSeq)) lanes i (setSub i { p with dropped := 0 } s)

/-- RESET: the sub-port's registers take their reset values, its transition to DOWN is counted, and it trains from the
start (R438, R544). -/
def resetCmd (i : Nat) (s : State) : State :=
  let falls := (getSub s i).state != .down
  let s := subLost i s
  let q : SubPort := { freshSeq (getSub s i) with dropped := 0, lanes := 0, crcFail := 0, replayOk := 0, laneDropped := 0, portDown := 0 }
  startTraining false (cfgLanes s i) i (setSub i (if falls then { q with portDown := 1 } else q) s)

/-- A write to LNK_PORT_CMD. -/
def portCommand (v : W64) (s : State) : State :=
  let port := regBits v 0 4
  let i := 4 * port + regBits v 4 2
  if 12 ≤ port then s
  else match regBits v 6 2 with
    | 1 => retrainCmd i s
    | 2 => resetCmd i s
    | 3 => subLost i s
    | _ => s

/-- Value of a LNK_PORT_CMD write. -/
def portData (op : Nat) (port : BitVec 4) (sub : BitVec 2) : W64 := atBit 0 port ||| atBit 4 sub ||| BitVec.ofNat 64 (64 * op)

/-- RETRAIN. -/
def execRetrain (c : Cmd) (port : BitVec 4) (sub : BitVec 2) (s : State) : Host.Outcome State Fault Refusal :=
  .next (mgmtWrite c rPortCmd (portData 1 port sub) (fun _ => portCommand (portData 1 port sub)) s)

/-- PORT_RESET. -/
def execPortReset (c : Cmd) (port : BitVec 4) (sub : BitVec 2) (s : State) : Host.Outcome State Fault Refusal :=
  .next (mgmtWrite c rPortCmd (portData 2 port sub) (fun _ => portCommand (portData 2 port sub)) s)

/-- PORT_DOWN. -/
def execPortDown (c : Cmd) (port : BitVec 4) (sub : BitVec 2) (s : State) : Host.Outcome State Fault Refusal :=
  .next (mgmtWrite c rPortCmd (portData 3 port sub) (fun _ => portCommand (portData 3 port sub)) s)

end Sys2Proof.Machine
end

