-- ==== Sys2Proof/Machine/Resets.lean ====
section
/-! DEFINITION. Reset, boot, recovery, firmware and the operating hours (20 R542 to R553; 15 R371, R372; 16 R393, R416,
R417; 22 R583, R587). -/

namespace Sys2Proof.Machine

/-! ### Firmware images (R549, R550) -/

/-- The code of an image whose bytes `read n` gives: its length, signature, `magic`, version and `rollback` are checked in
this order. -/
def fwCheck (slots : List (Nat × Nat × Nat)) (rollbackMin : W32) (read : Nat → List Byte) : Nat :=
  let h := read 256
  let n := u32 h 8
  if n % 4096 != 0 || n < 65536 || 33554432 < n then 1
  else
    let img := read n
    if !(checkSignature img n slots).isEmpty then 2
    else if u32 h 0 != 0x57465141 || u16 h 4 != 2 || !zeroAt h 0x18 232 || !zeroAt img (n - 126) 14 then 1
    else if u32 h 0xC < rollbackMin.toNat then 3
    else 0

def flashRead (s : State) (n : Nat) : List Byte := cellsRun erased s.log.flash 0 n

/-- Steps 3 and 4 of R550 passed: what the header sets. -/
def firmwareStarts (s : State) : State :=
  let h := flashRead s 256
  let roll := BitVec.ofNat 32 (u32 h 0xC)
  { s with rst.buildId := BitVec.ofNat 64 (u64 h 0x10), rst.fwCode := 0, sec.rollbackImage := roll,
           sec.rollbackMin := if s.sec.rollbackMin.ult roll then roll else s.sec.rollbackMin }

/-- Recovery (R551). -/
def enterRecovery (code : Nat) (s : State) : State :=
  trainAll { s with life := .recovery, rst.fwCode := BitVec.ofNat 8 code, rst.buildId := 0, sec.rollbackImage := 0,
                    sec.sigFailFw := if code = 2 then satInc s.sec.sigFailFw else s.sec.sigFailFw }

/-- A DDR5 module's check (R372). -/
def moduleOk (m : Module) : Bool :=
  m.ecc && decide (6400 ≤ m.speed) && [16, 32, 64, 96, 128, 256].contains m.gib && (m.ranks == 1 || m.ranks == 2)

/-- A channel after its training. -/
def trainedModule (m : Option Module) : Option Module := m.filter fun m => moduleOk m && m.trains

/-- Some channel of the staging region is absent (R551). -/
def stagingLacks (s : State) : Bool := (List.range 8).any fun c => !unitUp s 1 c

/-! ### The Stockpile at a mount (R393, R416) -/

/-- Drop the newest `n` entries that satisfy `p`. -/
def dropNewest {α : Type} (p : α → Bool) : Nat → List α → List α
  | n, xs => (go n xs.reverse).reverse
where
  go : Nat → List α → List α
    | _, [] => []
    | n, x :: xs => if p x && 0 < n then go (n - 1) xs else x :: go n xs

/-- The newest entries of the intake journal copy that `n` bytes held. -/
def dropTail : Nat → List JEntry → List JEntry
  | n, es => (go n es.reverse).reverse
where
  go : Nat → List JEntry → List JEntry
    | _, [] => []
    | n, e :: es => if n = 0 then e :: es else go (n - entryLen e) es

/-- What a write that never reached its logical place takes with it (R583). -/
def loseEntry (s : State) (e : BufEnt) : State :=
  match e.kind with
  | .record => { s with stk.records := dropNewest (fun (r : PassRec) => r.block == e.lblock) 1 s.stk.records }
  | .log => { s with stk.logs := dropNewest (fun (x : CollLog) => x.coll == e.lblock) 1 s.stk.logs }
  | .foldJournal => { s with stk.foldJournal := dropNewest (fun (x : FoldEnt) => x.coll == e.lblock) 1 s.stk.foldJournal }
  | .checkpoint => { s with stk.checkpoints := s.stk.checkpoints.filter fun k => k.coll != e.lblock }
  | .journal => { s with stk.journalCopy := dropTail e.bytes s.stk.journalCopy }
  | .directory | .map | .moved => s

/-- Writes that no flush kept are lost, newest first; the buffers are empty after a mount. -/
def settleBuffers (lost : Nat → Nat → Bool) (deltasLost : Nat → Bool) (s : State) : State :=
  let gone (i : Nat) : List BufEnt :=
    let c := getCtrl s i
    (if deltasLost i then c.fresh else []) ++ ((c.buf.mapIdx fun k e => (k, e)).filter fun x => lost i x.1).map (·.2)
  let s := (gone 0 ++ gone 1).reverse.foldl loseEntry s
  { s with stk.ctrls := s.stk.ctrls.map fun (c : Ctrl) => { c with buf := [], fresh := [], deltas := 0 } }

/-- Every item that was kept, by its place among a controller's items. -/
def keptItems {α : Type} (kept : Nat → Bool) (base : Nat) (xs : List α) : List α :=
  ((xs.mapIdx fun i x => (base + i, x)).filter fun x => kept x.1).map (·.2)

/-- Replay a flush (R416). Items are numbered: the journal tail, the map deltas, the write buffer, the event records. -/
def replayFlush (f : Flush) (s : State) : State :=
  let whole := f.committed.all id
  let kept (ctrl k : Nat) : Bool := f.committed.getD ctrl false || Config.flushKept s.free (2 * k + ctrl)
  let j := f.journal.length
  let entries := keptItems (kept (sysCtrl s)) 0 f.journal
  let recs := keptItems (kept 1) (j + 1 + (getCtrl s 1).buf.length) f.records
  let n := entries.length + recs.length +
    ([0, 1].map fun i => ((List.range (getCtrl s i).buf.length).filter fun k => kept i (j + 1 + k)).length).sum
  let s := settleBuffers (fun i k => !kept i (j + 1 + k)) (fun i => !kept i j) s
  let copy := s.stk.journalCopy ++ entries.filter fun e => !(s.stk.journalCopy.any (·.pos == e.pos))
  let s := { s with stk.flush := none, stk.pfReplayed := true, stk.pfIncomplete := !whole, stk.journalCopy := copy,
                    log.queue := recs ++ s.log.queue, free := s.free + 1 }
  if whole then s else stamped s fun s t => event t 0x32 devLoc 0 1 0 (BitVec.ofNat 64 n) [] s

/-- The journal as the Stockpile copy has it, in journal order (R149, R416). -/
def journalBack (s : State) : State :=
  let es := sortBy (fun a b => decide (a.pos.toNat ≤ b.pos.toNat)) s.stk.journalCopy
  { s with wb.journal := es, wb.tail := 0, wb.journalPos := (es.getLast?.map fun e => e.pos + 1).getD 0,
           wb.streams := if es.isEmpty then [] else s.wb.streams }

/-- Mount the Stockpile (R393); nothing is replayed where the mount fails. -/
def mountStockpile (b : Board) (s : State) : State :=
  let s := setBudgets b.nand { s with stk.pop := some b.nand }
  let bad := mediaBad s b.nand
  let s := { s with stk.mediaBad := bad, stk.ready := !bad && b.mountOk && s.stk.formatted.isSome }
  if s.stk.ready then
    let s := match s.stk.flush with
      | some f => replayFlush f s
      | none => settleBuffers (fun _ _ => true) (fun _ => true) s
    journalBack s
  else stamped s fun s t => event t 0x31 devLoc 0 1 0 0 [] { s with wb.streams := [] }

/-! ### Boot (R550, R587) -/

/-- Contents of a configuration flash that this device has not written stand where it is erased. -/
def mergeFlash (cells : List (Nat × Byte)) (flash : List Host.Cell) : List Host.Cell :=
  cells.foldl (fun f c => if cellGet erased f c.1 = erased then cellPut erased c.1 c.2 f else f) flash

/-- The lands, fuses and flash as boot finds them (R544, R587). -/
def readBoard (b : Board) (s : State) : State :=
  let straps := b.straps.headD 0
  { s with clk.noRefclk := false, dom.straps := straps, dom.uid := b.devUid, cfg.stepping := b.stepping, sec.slots := b.keySlots,
           dom.strapBad := b.straps.any (· != straps) || decide (48 ≤ straps.toNat % 64),
           sec.rollbackMin := if s.sec.rollbackMin.ult b.rollbackMin then b.rollbackMin else s.sec.rollbackMin,
           log.flash := mergeFlash b.flash s.log.flash, log.flashFault := false, rst.lastReset := 0 }

/-- Train the memory (R371, R372); a row that awaits hPPR is repaired, or its module has gone (R496). -/
def trainMemory (b : Board) (s : State) : State :=
  let s := { s with mem.stacksFailed := dedup b.stacksFailed, mem.modules := b.modules.map trainedModule, mem.ppr := [] }
  let s := s.mem.stacksFailed.foldl (fun s u => stamped s fun s t => event t 0x13 { kind := 2, unit := u } 0 2 11 0 [] s) s
  let bad := (b.modules.mapIdx fun i m => (i, m)).filter fun x => x.2.isSome && (trainedModule x.2).isNone
  bad.foldl (fun s x =>
    let code := if (x.2.map moduleOk).getD false then 1 else 0
    stamped s fun s t => event t 0x14 { kind := 3, unit := x.1 } code 2 11 0 [] s) s

/-- A migration point that was cut short goes on from its lowest unmoved page (R382). -/
def resumePoint (s : State) : State :=
  match s.haul.running with
  | some (_, ms) =>
    let s := { s with haul.todo := pointPages s ms, haul.resumed := true }
    if s.haul.todo.isEmpty then nextPoint s else s
  | none => s

/-- Steps 5 to 7 of R550. -/
def bootService (b : Board) (s : State) : State :=
  let hours := s.log.hoursFlash + 64
  let s := { firmwareStarts s with life := .ready, wb.powerCycles := s.wb.powerCycles + 1, wb.seq := 1, log.hours := hours,
                                   log.hoursFlash := hours, log.nonce := Config.random s.free, free := s.free + 1 }
  let s := trainMemory b (mountLog s)
  let s := trainAll (mountStockpile b { s with rst.stagingAbsent := stagingLacks s })
  let s := (dedup b.unlocked).foldl (fun s d => if clockExists d && d != 0 then clockFail d s else s) s
  resumePoint (resumeHeld s)

/-- BOOT: power-on boot after the release of PORST_N (R526, R543, R550, R551, R586). -/
def execBoot (b : Board) (s : State) : Host.Outcome State Fault Refusal :=
  .next (if s.life != .held || b.pwrfail then s
    else if !b.refclk then { s with clk.noRefclk := true }
    else
      let s := readBoard b s
      let code := if b.flashReads then fwCheck s.sec.slots s.sec.rollbackMin (flashRead s) else 4
      if code != 0 then
        let mods := b.modules.mapIdx fun i m => if i < 8 then trainedModule m else none
        let s := { s with mem.modules := mods }
        enterRecovery code { s with rst.stagingAbsent := stagingLacks s }
      else bootService b s)

/-! ### Warm reset (R544, R545) -/

/-- Programs that the reset cut short are repeated from the buffer; the log blocks they ran in are closed (R417). -/
def cutPrograms (s : State) : State :=
  let n := blockPages s
  let ctl (c : Ctrl) : Ctrl :=
    let cut := c.buf.filterMap (·.target)
    let shut (l : LogBlock) : LogBlock := if cut.contains l.block then { l with pages := l.pages ++ List.replicate (n - l.pages.length) n } else l
    { c with buf := c.buf.map fun (e : BufEnt) => { e with target := none }, logs := c.logs.map shut }
  { s with stk.ctrls := s.stk.ctrls.map ctl }

/-- What a warm reset keeps beside what every reset keeps (R467, R508, R544, R565); a dropped lane stays out (R437). -/
def warmLogic (s : State) : State :=
  let r := resetLogic s
  { r with log.queue := s.log.queue, log.flashFault := s.log.flashFault, log.hoursFlash := s.log.hours,
           wb.journal := s.wb.journal, wb.journalPos := s.wb.journalPos, wb.tail := s.wb.tail, wb.powerCycles := s.wb.powerCycles + 1,
           lnk.node := s.lnk.node, lnk.subs := s.lnk.subs.map fun (p : SubPort) => { dropped := p.dropped },
           mgmt.answers := s.mgmt.answers, dom.claimClash := s.dom.claimClash,
           dom.members := s.dom.members.map fun (m : Member) => { node := m.node, uid := m.uid, state := .absent },
           rst.stagingAbsent := s.rst.stagingAbsent }

/-- A whole warm reset, to service or to recovery; `lost` names collections that lost objects. -/
def warmReset (cause : Nat) (lost : State → Coll → Bool) (s : State) : State :=
  let s := if serving s then (stamp s).1 else s
  let s := s.haul.moves.foldl (fun s m => switchPage m s) s
  let s := dropSets (spoilImage (drainAll s))
  let s := trainAll (warmLogic (cutPrograms (resetResident (lost s) s)))
  let s := { s with rst.lastReset := BitVec.ofNat 3 cause }
  let code := fwCheck s.sec.slots s.sec.rollbackMin (flashRead s)
  if code != 0 then enterRecovery code s
  else resumePoint (resumeHeld (mountLog { firmwareStarts s with life := .ready }))

/-- A warm reset request (R535, R542): in PS4 it starts the exit toward PS0. -/
def requestWarm (cause : Nat) (s : State) : State :=
  if s.life != .ready && s.life != .recovery then s
  else if s.pwr.state = 4 then (if s.pwr.move.isSome then s else { s with pwr.move := some (0, s.now) })
  else warmReset cause (fun _ _ => false) s

/-- The PS4 exit: a warm reset with HBM empty, which ends in the commanded state and keeps the cap (R534, R535). -/
def exitDormant (target : Nat) (s : State) : State :=
  let cap := s.pwr.cap
  let s := warmReset 3 (fun s c => collInHbm s c) s
  if s.life != .ready then s
  else
  let s := ((List.range target).foldl (fun s p => powerHop p (p + 1) s) s)
  { s with pwr.cap := cap, pwr.state := target }

/-- POWER_TRANSITION_DONE: one hop of a move (R533, R534). -/
def execPowerTransitionDone (s : State) : Host.Outcome State Fault Refusal :=
  .next (if s.life != .ready then s
    else match s.pwr.move with
      | none => s
      | some (target, _) =>
        let p := s.pwr.state
        if p = 4 then exitDormant target s
        else
          let next := if p < target then p + 1 else p - 1
          if next = 2 && p = 1 && !s.job.steps.isEmpty then s
          else
            let s := powerHop p next s
            { s with pwr.state := next, pwr.move := if next = target then none else some (target, s.now) })

/-! ### Causes of a reset (R542, R583, R586) -/

/-- PORST. -/
def execPorst (heldNs : Nat) (s : State) : Host.Outcome State Fault Refusal :=
  .next (if heldNs < 1000 || s.life = .flushing then s else powerOnReset s)

/-- SUPPLY_MONITOR_TRIP: above its absolute maximum the device is not specified (R581). -/
def execSupplyMonitorTrip (vinMv heldNs : Nat) (s : State) : Host.Outcome State Fault Refusal :=
  if 2050 < vinMv then .fault .aboveAbsoluteMaximum
  else .next (if heldNs < 2000 || (1700 ≤ vinMv && vinMv ≤ 1950) || s.life = .flushing then s else powerOnReset s)

/-- WRST. -/
def execWrst (heldNs : Nat) (s : State) : Host.Outcome State Fault Refusal :=
  .next (if heldNs < 1000 then s else requestWarm 1 s)

/-- A job reset (R546, R553): the job ends with cause 5, a load is abandoned, the Benches are cleared. -/
def jobReset (t : Ticket) (s : State) : State :=
  let s := teardown 5 t s
  let s := match s.cfg.load with
    | some l => loadFail 0x0F l.step 0 s
    | none => s
  { s with flt.accs := [], flt.store := [], flt.retrying := [], rst.lastReset := 4 }

/-- A write to RST_CMD (R535, R559). -/
def resetCommand (v : W64) (t : Ticket) (s : State) : State :=
  match regBits v 0 2 with
  | 1 => requestWarm 2 s
  | 2 => if s.pwr.state = 4 then s else jobReset t s
  | _ => s

/-- WARM. -/
def execWarm (c : Cmd) (s : State) : Host.Outcome State Fault Refusal :=
  .next (mgmtWrite c rRstCmd 1 (resetCommand 1) s)

/-- JOB. -/
def execJob (c : Cmd) (s : State) : Host.Outcome State Fault Refusal :=
  .next (mgmtWrite c rRstCmd 2 (resetCommand 2) s)

/-! ### Firmware loads (R552) -/

/-- A write to RST_FW_CMD (R535, R552, R559). -/
def fwCommand (v : W64) (s : State) : State :=
  if !regBit v 0 || s.pwr.state = 4 then s
  else if s.job.phase != 0 then { s with rst.fwCode := 6 }
  else if s.cfg.load.isSome || s.rst.fwLoad.isSome then { s with rst.fwCode := 5 }
  else
    let n := regBits v 32 32
    match (if s.rst.stagingAbsent || n < 65536 || 33554432 < n then none else (stagingRead s n).toOption) with
    | none => { s with rst.fwCode := 1 }
    | some img =>
      let code := if u32 img 8 = n then fwCheck s.sec.slots s.sec.rollbackMin (fun k => img.take k) else 1
      if code != 0 then
        { s with rst.fwCode := BitVec.ofNat 8 code, sec.sigFailFw := if code = 2 then satInc s.sec.sigFailFw else s.sec.sigFailFw }
      else { s with rst.fwLoad := some (s.now, img), rst.fwCode := 0 }

/-- FIRMWARE_LOAD. -/
def execFirmwareLoad (c : Cmd) (imageLen : W32) (s : State) : Host.Outcome State Fault Refusal :=
  .next (mgmtWrite c rFwCmd (hi32 imageLen ||| 1) (fun _ => fwCommand (hi32 imageLen ||| 1)) s)

/-- FIRMWARE_PROGRAM_DONE: the flash is programmed from offset 0 and read back. -/
def execFirmwareProgramDone (readsBack : Bool) (s : State) : Host.Outcome State Fault Refusal :=
  .next (if s.life != .ready && s.life != .recovery then s
    else match s.rst.fwLoad with
      | none => s
      | some (_, img) =>
        if !readsBack then { spoilImage s with rst.fwLoad := none, rst.fwCode := 7 }
        else
          let s := { s with rst.fwLoad := none, log.flash := cellsPut erased 0 img (cellsClear 0 0x2000000 s.log.flash) }
          if s.life = .recovery then powerOnReset s else warmReset 2 (fun _ _ => false) s)

/-! ### Operating hours (R548) -/

/-- HOURS_TICK: 1/4,096 hour has passed. -/
def execHoursTick (s : State) : Host.Outcome State Fault Refusal :=
  .next (if s.life = .ready then
      let h := s.log.hours + 1
      { s with log.hours := h, log.hoursFlash := if s.log.hoursFlash + 64 ≤ h then h else s.log.hoursFlash }
    else s)

end Sys2Proof.Machine
end

