-- ==== Sys2Proof/Machine/Domain.lean ====
section
/-! DEFINITION. Domains: enumeration, heartbeats, loss and return of members, takeover, rosters, removal (18 R462 to R491). -/

namespace Sys2Proof.Machine

/-! ### Members -/

/-- Add a node to the members this device knows, keeping an entry that stands. -/
def knowMember (n : Node) (uid : W64) (st : MemberState) (s : State) : State :=
  if s.dom.members.any (·.node == n) then
    { s with dom.members := s.dom.members.map fun (m : Member) => if m.node = n && uid ≠ 0 then { m with uid := uid } else m }
  else { s with dom.members := s.dom.members ++ [{ node := n, uid := uid, state := st, heard := s.now }] }

def strapDomain (s : State) : Nat := s.dom.straps.toNat % 64
def strapSlot (s : State) : Nat := s.dom.straps.toNat / 64

/-- Domain transactions are answered: in service outside PS4, and enumeration in recovery too (R532, R551). -/
def enumServing (s : State) : Bool := serving s || s.life == .recovery

/-- Peers that a lead manager exchanges heartbeats with (R485). -/
def leadNodes (s : State) : List Node :=
  if isManager s then (((activePlan s).map (·.leads)).getD []).flatMap fun l => l.peers.flatMap fun x => [BitVec.ofNat 16 x.1, BitVec.ofNat 16 x.2]
  else []

/-! ### Enumeration (R464 to R467) -/

/-- Value of a DOM_ENUM_CMD write that claims. -/
def claimData (domain : BitVec 6) (slot : BitVec 10) : W64 := 1 ||| atBit 8 domain ||| atBit 16 slot

/-- The write is for this device (R464 step 2). -/
def claimHere (domain slot : Nat) (s : State) : Bool := !s.dom.strapBad && strapDomain s == domain && strapSlot s == slot

def sendCall (domain : Nat) (s : State) : State := send broadcastNode 0 0 (.enum 0 domain 0 0 s.dom.uid []) s

/-- A write to DOM_ENUM_CMD (R488). -/
def enumCommand (v : W64) (s : State) : State :=
  let d := regBits v 8 6
  let n := regBits v 16 10
  if regBits v 0 2 != 1 || !claimHere d n s then s
  else sendCall d { s with lnk.node := some (nodeOf d n), dom.enum := some { domain := d, since := s.now } }

/-- CLAIM: a device with other straps ignores the write and does not answer. -/
def execClaim (c : Cmd) (domain : BitVec 6) (slot : BitVec 10) (s : State) : Host.Outcome State Fault Refusal :=
  .next (if claimHere domain.toNat slot.toNat s then
      mgmtWrite c rEnumCmd (claimData domain slot) (fun _ => enumCommand (claimData domain slot)) s
    else s)

/-- This device claims a domain and has not reached step 6. -/
def claiming (s : State) (domain : Nat) : Bool := (s.dom.enum.map fun e => e.domain == domain && !e.assigned).getD false

/-- CALL (R464 step 4, R465). -/
def execCall (src : Node) (domain : BitVec 6) (uid : W64) (s : State) : Host.Outcome State Fault Refusal :=
  .next (if !enumServing s then s else stampedIf s fun s t =>
    if s.dom.strapBad || uid = s.dom.uid then s
    else if claiming s domain.toNat then
      event t 0x56 devLoc 0 1 0 uid [] { s with lnk.node := none, dom.claimClash := true, dom.enum := none }
    else if strapDomain s = domain.toNat && s.lnk.node.isNone then
      send src 0 0 (.enum 1 domain.toNat (strapSlot s) 0 s.dom.uid []) s
    else s)

/-- ASSIGN goes out for a device (R464 step 6). -/
def sendAssign (uid : W64) (n : Node) (s : State) : State := send broadcastNode 0 0 (.enum 2 (nodeDomain n) 0 n uid []) s

/-- HERE on the enumerating device (R464 steps 5 and 7, R466, R467). -/
def execHere (src : Node) (domain : BitVec 6) (slot : BitVec 10) (uid : W64) (s : State) : Host.Outcome State Fault Refusal :=
  .next (if !enumServing s then s else stampedIf s fun s _ =>
    match s.dom.enum with
    | none => s
    | some e =>
      if e.waiting.any fun w => w.1 == uid && w.2.1 == src then
        let s := { s with dom.enum := some { e with waiting := e.waiting.filter (·.1 != uid) } }
        { s with dom.members := s.dom.members.map fun (m : Member) => if m.node = src then
            { m with state := if m.state = .absent then .up else m.state, heard := s.now } else m }
      else if src != localNode || domain.toNat != e.domain then s
      else if !e.assigned then
        if e.answers.any (·.1 == uid) then s
        else if 1024 ≤ e.answers.length then { s with dom.enumOverflow := satInc s.dom.enumOverflow }
        else { s with dom.enum := some { e with answers := e.answers ++ [(uid, slot.toNat)] } }
      else match s.dom.members.find? fun m => m.uid == uid && m.state == .lost && nodeDomain m.node == e.domain with
        | some m =>
          sendAssign uid m.node { s with dom.enum := some { e with waiting := e.waiting.filter (·.1 != uid) ++ [(uid, m.node, false, s.now)] } }
        | none => s)

/-- Member numbers for the answers: the lowest `dev_uid` of a slot keeps it, the others take, in ascending `dev_uid`, the
lowest numbers that no strap names (R466). -/
def assignNumbers (own : Nat) (answers : List (W64 × Nat)) : List (W64 × Option Nat) :=
  let byUid := sortBy (fun a b => decide (a.1.toNat ≤ b.1.toNat)) answers
  let named := dedup (own :: answers.map (·.2))
  let keeps (a : W64 × Nat) : Bool := a.2 != own && (byUid.find? fun b => b.2 == a.2) == some a
  let moved := byUid.filter fun a => !keeps a
  let room := (List.range 1024).filter fun n => !named.contains n
  (byUid.filter keeps).map (fun a => (a.1, some a.2)) ++ moved.mapIdx fun i a => (a.1, room[i]?)

/-- ENUM_COLLECT_TIMEOUT (R464 steps 5 and 6, R466). -/
def execEnumCollectTimeout (s : State) : Host.Outcome State Fault Refusal :=
  .next (if !enumServing s then s else match s.dom.enum with
    | some e =>
      if e.assigned || !past s e.since 10000000 then s
      else
        let xs := assignNumbers (nodeMember (myNode s)) e.answers
        let given := xs.filterMap fun x => x.2.map fun n => (x.1, nodeOf e.domain n)
        let s := { s with dom.enumOverflow := satAdd s.dom.enumOverflow (xs.length - given.length),
                          dom.enum := some { e with assigned := true, answers := [],
                                                    waiting := given.map fun g => (g.1, g.2, false, s.now) } }
        given.foldl (fun s g => sendAssign g.1 g.2 (knowMember g.2 g.1 .absent s)) s
    | none => s)

/-- The manager that assigns addresses is the device's manager, where it knows none yet (R464 step 7). -/
def trackManager (src : Node) (s : State) : State :=
  if s.dom.mgrNode.isNone then { s with dom.mgrNode := some src, dom.sinceMgr := s.now } else s

/-- The device that assigns addresses is a member (log 45). -/
def trackSender (src : Node) (s : State) : State := if src = myNode s then s else knowMember src 0 .up s

/-- The address that ASSIGN gives this device, and its answer (R464 step 7). -/
def takeAddress (src : Node) (uid : W64) (node : Node) (s : State) : State :=
  let s := { s with lnk.node := some node }
  send src 0 0 (.enum 1 (strapDomain s) (strapSlot s) node uid []) s

/-- ASSIGN: the named device takes its address; every device of the domain knows the member (R464 step 7; log 45). -/
def execAssign (src : Node) (uid : W64) (node : Node) (s : State) : Host.Outcome State Fault Refusal :=
  .next (if !enumServing s then s else stampedIf s fun s _ =>
    if s.dom.strapBad || nodeDomain node != strapDomain s then s
    else if uid = s.dom.uid then takeAddress src uid node (trackSender src (trackManager src s))
    else knowMember node uid .absent (trackSender src (trackManager src s)))

/-- ASSIGN_RETRY (R464 step 7). -/
def execAssignRetry (uid : W64) (s : State) : Host.Outcome State Fault Refusal :=
  .next (if !enumServing s then s else match s.dom.enum with
    | some e => match e.waiting.find? (·.1 == uid) with
      | some (_, n, twice, since) =>
        if !past s since 1000000 then s
        else if twice then { s with dom.enum := some { e with waiting := e.waiting.filter (·.1 != uid) } }
        else sendAssign uid n { s with dom.enum := some { e with waiting := e.waiting.map fun w => if w.1 = uid then (uid, n, true, s.now) else w } }
      | none => s
    | none => s)

/-- LOST_CALL (R467). -/
def execLostCall (s : State) : Host.Outcome State Fault Refusal :=
  .next (whenServing s fun s =>
    if isManager s && (ownMembers s).any (·.state == .lost) then
      let d := nodeDomain (myNode s)
      let s := if s.dom.enum.isNone then { s with dom.enum := some { domain := d, since := s.now, assigned := true } } else s
      sendCall d s
    else s)

/-! ### Owed mutations and waiting reads (R477, R480, R481) -/

/-- Reads that wait for a member that is not UP go to one that is (R146, R481). -/
def resumeRead (r : Req) (s : State) : State :=
  match r.plan s, r.place with
  | some p, .answers rerank =>
    (r.waitFor.filter fun x => !(r.answers.any (·.shard == x.1)) && !isUp s x.2).foldl (fun s x =>
      let n := nodeFor s r p x.1
      if n = 0 then s
      else
        let r := (findReq s r.ticket).getD r
        let s := setReq { r with waitFor := r.waitFor.map fun w => if w = x then (x.1, n) else w } { s with wb.reissued := satInc s.wb.reissued }
        if rerank then send n 0 r.mgr (.rerankFwd (headOf s r x.1 true false) r.desc r.tokens (idsFor r p x.1)) s
        else sendWork r true false (x.1, n) s) s
  | _, _ => s

def resumeReads (s : State) : State :=
  (sortBy (fun a b => ticketLe a.ticket b.ticket) s.job.reqs).foldl (fun s r => resumeRead r s) s

/-- Send one owed mutation to a replica that has returned, from its journal entry (R477, R481). -/
def sendOwed (n : Node) (x : Ticket × Nat × Node) (s : State) : State :=
  match s.wb.journal.find? fun e => e.kind == 1 && e.ticket == x.1 with
  | none => s
  | some e =>
    let d : Desc := e.body.take 128
    let b := ((activePlan s).map fun p => budgets p d).getD (0, 0)
    let r := (findReq s x.1).getD (newReq x.1 none x.1 0 d (e.body.drop 128) s.cfg.setEpoch.toNat s.now b.1 b.2 .away)
    let s := match findReq s x.1 with
      | some q =>
        let w := q.waitFor.map fun w => if w = (x.2.1, 0) then (x.2.1, n) else w
        setReq { q with waitFor := w, sent := true, heldForReplica := w.any (·.2 == 0) } s
      | none => s
    sendWork r true true (x.2.1, n) { s with wb.reissued := satInc s.wb.reissued }

/-- A member has no mutation owed to it. -/
def owesNothing (s : State) (n : Node) : Bool := !(s.dom.owed.any (·.2.2 == n))

/-- A member becomes UP, and what waited for it goes on. -/
def memberUp (n : Node) (s : State) : State :=
  match findMember s n with
  | some m => resumeReads (setMember { m with state := .up, probed := false } s)
  | none => s

/-! ### Heartbeats (R478, R479) -/

/-- What this device reports (R473, R478). -/
def myBeat (s : State) : Heartbeat :=
  let p := activePlan s
  { role := role s, epoch := s.cfg.setEpoch.toNat, mgrEpoch := s.dom.mgrEpoch.toNat, planId := (p.map (·.planId)).getD 0,
    planGen := (p.map (·.planGen)).getD 0, jobState := s.job.phase.toNat, restoring := s.srch.colls.any (·.restoring),
    activeValid := (p.map (·.domainPlan)).getD false, freeBlocks := freeBlocks s, sinceMgrUs := min (usSince s s.dom.sinceMgr) 0xFFFFFFFF,
    powerCycles := s.wb.powerCycles.toNat }

/-- Note that a peer was heard, with what it reports. -/
def hearPeer (src : Node) (h : Heartbeat) (s : State) : State :=
  let s := { s with dom.members := s.dom.members.map fun (m : Member) =>
      if m.node = src then { m with heard := s.now, beat := some h, role := h.role, restoring := h.restoring } else m }
  if s.dom.mgrNode = some src then { s with dom.sinceMgr := s.now } else s

/-- The peers of a heartbeat: a manager's and a mirror's members, and a lead's peers. -/
def beatPeers (s : State) : List Node :=
  dedup (((ownMembers s).filter fun m => m.state != .removed && m.node != myNode s).map (·.node) ++ leadNodes s)

/-- BEAT_TIMER. -/
def execBeatTimer (s : State) : Host.Outcome State Fault Refusal :=
  .next (whenServing s fun s => if role s = 0 || role s = 1 then sendEach (beatPeers s) 0 (.heartbeat 0 (myBeat s)) s else s)

/-- A BEAT names the pair: the manager of the highest epoch, and the mirror (R463, R474). -/
def pairFrom (src : Node) (h : Heartbeat) (s : State) : State :=
  if nodeDomain src != nodeDomain (myNode s) || isManager s then s
  else if h.role = 0 && s.dom.mgrEpoch.toNat ≤ h.mgrEpoch then
    { s with dom.mgrNode := some src, dom.mgrEpoch := BitVec.ofNat 32 h.mgrEpoch, dom.sinceMgr := s.now }
  else if h.role = 1 && role s != 1 then { s with dom.mirrorNode := some src }
  else s

/-- BEAT. -/
def execBeat (src : Node) (h : Heartbeat) (s : State) : Host.Outcome State Fault Refusal :=
  .next (whenServing s fun s => stamped s fun s _ =>
    if role s = 5 then s
    else
      let s := hearPeer src h (pairFrom src h (knowMember src 0 .up s))
      send src 0 0 (.heartbeat 1 (myBeat s)) s)

/-- PROBE. -/
def execProbe (src : Node) (h : Heartbeat) (s : State) : Host.Outcome State Fault Refusal :=
  .next (whenServing s fun s => stamped s fun s _ =>
    if role s = 5 then s
    else let s := hearPeer src h s; send src 0 0 (.heartbeat 1 (myBeat s)) s)

/-- PEER_SUSPECT. -/
def execPeerSuspect (node : Node) (s : State) : Host.Outcome State Fault Refusal :=
  .next (whenServing s fun s => match findMember s node with
    | some m =>
      if m.state = .up && past s m.heard 3000000 then
        send node 0 0 (.heartbeat 2 (myBeat s)) (setMember { m with state := .suspect, probed := true } s)
      else s
    | none => s)

/-! ### Takeover (R483, R98) -/

/-- The mirror resolves a domain swap of the manager it replaces (R98). -/
def resolveSwap (s : State) : State :=
  let ms := (membersPresent s).map (·.node)
  match (s.wb.journal.filter (·.kind == 4)).getLast? with
  | some e =>
    if e.ticket != s.cfg.swapTicket then
      match s.cfg.prepared with
      | some p => commitPrepared p.epoch e.ticket (sendEach ms e.ticket (.commit p.epoch e.ticket) s)
      | none => s
    else
      let s := sendEach ms e.ticket (.commit s.cfg.setEpoch.toNat e.ticket) s
      drop ms s
  | none => drop ms s
where
  /-- No commit record names the prepared swap. -/
  drop (ms : List Node) (s : State) : State :=
    match s.cfg.prepared with
    | some p => { sendEach ms 0 (.abort p.epoch) s with cfg.prepared := none }
    | none => s

/-- No member that this device still hears reports that it hears the manager. -/
def managerSilent (s : State) (mgr : Node) : Bool :=
  (ownMembers s).all fun m => m.node == mgr || (m.state != .up && m.state != .suspect) ||
    match m.beat with
    | some b => decide (3000 ≤ b.sinceMgrUs)
    | none => true

/-- Takeover, step by step. -/
def takeOver (s : State) : State :=
  stamped s fun s t =>
    let e := s.dom.mgrEpoch + 1
    let members := s.dom.members.map fun (m : Member) =>
      { m with inJob := m.state == .up && (m.beat.map fun b => b.jobState == 1).getD false }
    let s := { s with dom.mgrEpoch := e, dom.override := some 0, dom.takeovers := satInc s.dom.takeovers, dom.mgrNode := some (myNode s),
                      dom.mirrorNode := none, dom.members := members, wb.solo := true, wb.mirrorOk := false, wb.mirrorWait := [] }
    let s := (journal 6 t 0 [] (event t 0x52 devLoc 0 1 0 (e.zeroExtend 64) [] s)).1
    let s := sendEach (beatPeers s) 0 (.heartbeat 3 (myBeat s)) s
    resumeJournal (resolveSwap s)

/-- The mirror takes over once both conditions of R483 hold. -/
def tryTakeover (s : State) : State :=
  match s.dom.mgrNode with
  | some g =>
    if role s = 1 && s.dom.mgrEpoch != 0xFFFFFFFF && (findMember s g).any (·.state == .lost) && managerSilent s g then takeOver s else s
  | none => s

/-- HEARTBEAT_TAKEOVER: a member adopts the new manager, which then gets its answers (R474, R475). -/
def execHeartbeatTakeover (src : Node) (h : Heartbeat) (s : State) : Host.Outcome State Fault Refusal :=
  .next (whenServing s fun s => stamped s fun s _ =>
    if role s = 5 then s
    else if nodeDomain src != nodeDomain (myNode s) then hearPeer src h s
    else if h.mgrEpoch ≤ s.dom.mgrEpoch.toNat then s
    else if isManager s then { s with dom.superseded := true }
    else
      let s := hearPeer src h (knowMember src 0 .up (adoptManager src h.mgrEpoch s))
      let own (n : Node) : Bool := nodeDomain n == nodeDomain src
      { s with dom.sinceMgr := s.now,
               job.reqs := s.job.reqs.map fun (r : Req) => if (r.boss.map own).getD false then { r with boss := some src } else r })

/-! ### REPLY and loss (R479 to R481) -/

/-- A lost member of the domain answers again on the manager: it joins the job again, takes what it is owed, and is UP. -/
def memberReturns (m : Member) (h : Heartbeat) (s : State) : State :=
  if h.restoring then s
  else if s.job.phase = 1 && m.role != 1 then
    if m.inJob then (if owesNothing s m.node then memberUp m.node s else s)
    else if beatMatches s h then openMember s.job.jobId m s else s
  else memberUp m.node s

/-- The manager's mirror, as its heartbeat shows it (R463, R476). -/
def mirrorFrom (src : Node) (h : Heartbeat) (s : State) : State :=
  let same := (activePlan s).any fun p => p.planId == h.planId && p.planGen == h.planGen
  if isManager s && h.role = 1 && nodeDomain src == nodeDomain (myNode s) && same && s.dom.mirrorNode != some src then mirrorJoin src s else s

/-- REPLY. -/
def execReply (src : Node) (h : Heartbeat) (s : State) : Host.Outcome State Fault Refusal :=
  .next (whenServing s fun s => stamped s fun s t =>
    let s := if (leadNodes s).contains src then knowMember src 0 .absent s else s
    match findMember s src with
    | none => s
    | some old =>
      let s := hearPeer src h s
      let m := { old with heard := s.now, beat := some h, role := h.role, restoring := h.restoring }
      let s := match old.state with
        | .up => if old.role != h.role then resumeReads s else s
        | .absent => memberUp src s
        | .suspect =>
          let s := memberUp src { s with dom.hbProbeOk := satInc s.dom.hbProbeOk }
          event t 0x50 (peerLoc src) 0 2 1 0 [] s
        | .lost => if isManager s && nodeDomain src == nodeDomain (myNode s) then memberReturns m h s else memberUp src s
        | .excluded | .removed => s
      tryTakeover (mirrorFrom src h s))

/-- The manager finds its mirror lost (R142, R483). -/
def mirrorGone (n : Node) (s : State) : State :=
  if isManager s && s.dom.mirrorNode = some n then
    let s := { s with dom.mirrorNode := none }
    if s.wb.solo then s else goSolo s
  else s

/-- PEER_LOST. -/
def execPeerLost (node : Node) (s : State) : Host.Outcome State Fault Refusal :=
  .next (whenServing s fun s => match findMember s node with
    | some m =>
      if m.state = .suspect && past s m.heard 6000000 then
        stamped s fun s t =>
          let s := setMember { m with state := .lost, inJob := false, probed := false } { s with dom.memberLost := satInc s.dom.memberLost }
          let s := event t 0x51 (peerLoc node) 0 2 9 0 [] s
          tryTakeover (mirrorGone node (if isManager s then absorbLoss node s else s))
      else s
    | none => s)

/-! ### Rosters (R471) -/

/-- The manager's set epoch, which a member takes on when it joins the job. -/
def joinEpoch (src : Node) (s : State) : State :=
  match (findMember s src).bind (·.beat) with
  | some b =>
    if s.job.reqs.isEmpty then
      { s with cfg.setEpoch := BitVec.ofNat 16 b.epoch, cfg.active := s.cfg.active.map fun (p : PlanSet) => { p with epoch := b.epoch } }
    else s
  | none => s

/-- ROSTER. -/
def execRoster (src : Node) (entries : List (Nat × Nat)) (s : State) : Host.Outcome State Fault Refusal :=
  .next (whenServing s fun s => stamped s fun s _ =>
    let d := nodeDomain (myNode s)
    let holds := entries.all fun e => (findColl s e.1).any fun c => c.spec.shard == e.2
    if holds then send src 0 0 (.enum 4 d 0 (myNode s) s.dom.uid []) (joinEpoch src s)
    else send src 0 0 (.enum 5 d 0 (myNode s) s.dom.uid []) s)

/-- ROSTER_OK: a member that returns is sent what it is owed, in ticket order (R481 step 3). -/
def execRosterOk (src : Node) (s : State) : Host.Outcome State Fault Refusal :=
  .next (whenServing s fun s => stamped s fun s _ => match findMember s src with
    | some m =>
      if !isManager s || s.job.phase != 1 || m.state = .removed || m.state = .excluded then s
      else
        let s := setMember { m with inJob := true } s
        if m.state = .lost then
          let mine := sortBy (fun a b => ticketLe a.1 b.1) (s.dom.owed.filter (·.2.2 == src))
          let s := mine.foldl (fun s x => sendOwed src x s) s
          if mine.isEmpty then memberUp src s else s
        else s
    | none => s)

/-- ROSTER_NO. -/
def execRosterNo (src : Node) (s : State) : Host.Outcome State Fault Refusal :=
  .next (whenServing s fun s => stamped s fun s _ => match findMember s src with
    | some m =>
      if !isManager s || m.state = .removed then s
      else send src 0 0 (.mwrite rJobCmd 3) (setMember { m with state := .excluded, inJob := false } s)
    | none => s)

/-! ### Removal (R477, R482) -/

/-- Held mutations that no replica is left to apply stop waiting for one. -/
def dropHeld (r : Req) (s : State) : State :=
  match r.plan s with
  | some p =>
    if !r.heldForReplica then s
    else
      let alive (shard : Nat) : Bool := ((shardsOf p r.desc.coll).find? (·.shard == shard)).any fun e => !(liveReplicas s e).isEmpty
      let w := r.waitFor.filter fun x => x.2 != 0 || alive x.1
      if w.length = r.waitFor.length then s else awayDone { r with waitFor := w, heldForReplica := w.any (·.2 == 0) } s
  | none => s

/-- A member is removed. -/
def removeMember (m : Member) (s : State) : State :=
  let s := setMember { m with state := .removed, inJob := false } s
  let gone := s.dom.owed.filter (·.2.2 == m.node)
  let s := reclaim { s with dom.owed := s.dom.owed.filter (·.2.2 != m.node), dom.owedDropped := satAdd s.dom.owedDropped gone.length }
  let s := mirrorGone m.node (absorbLoss m.node s)
  (sortBy (fun a b => ticketLe a.ticket b.ticket) s.job.reqs).foldl (fun s r => dropHeld r s) s

/-- A write to DOM_MEMBER_CMD (R490). -/
def memberCommand (v : W64) (s : State) : State :=
  if regBits v 10 2 != 1 || !isManager s then s
  else match memberNo s (regBits v 0 10) with
    | some m => if m.state = .removed then s else removeMember m s
    | none => s

/-- Value of a DOM_MEMBER_CMD write that removes. -/
def removeData (member : BitVec 10) : W64 := atBit 0 member ||| 0x400

/-- MEMBER_REMOVE. -/
def execMemberRemove (c : Cmd) (member : BitVec 10) (s : State) : Host.Outcome State Fault Refusal :=
  .next (mgmtWrite c rMemberCmd (removeData member) (fun _ => memberCommand (removeData member)) s)

end Sys2Proof.Machine
end

