-- ==== Sys2Proof/Machine/Lands.lean ====
section
/-! DEFINITION. The lands that serve the board: the I3C target and the test access port (22 R586, R589, R590, R592). -/

namespace Sys2Proof.Machine

/-! ### I3C (R590) -/

/-- `bstate`. -/
def boardState (s : State) : Nat :=
  (if s.life = .ready then 1 else 0) + (if s.life = .recovery then 2 else 0) + (if s.clk.noRefclk then 4 else 0) +
  (if s.pwr.throttle then 8 else 0) + (if s.lands.thermtrip then 16 else 0) +
  (if s.life = .flushing || s.life = .halted then 32 else 0)

/-- The 24 bytes of telemetry from index 0x00. -/
def telemetry (s : State) : List Byte :=
  toLe 8 s.dom.uid.toNat ++ toLe 2 0x4812 ++ toLe 1 s.cfg.stepping.toNat ++ toLe 1 (boardState s) ++ toLe 1 s.pwr.state ++ [0] ++
  toLe 2 s.pwr.tmax.toNat ++ toLe 2 (powerDw s) ++ toLe 2 s.pwr.inputMv.toNat ++ toLe 2 s.dom.straps.toNat ++
  toLe 2 ((s.lnk.node.map (·.toNat)).getD 0xFFFF)

/-- Indexes that the telemetry table lists. -/
def telemetryIndexes : List Nat := [0x00, 0x08, 0x0A, 0x0B, 0x0C, 0x0D, 0x0E, 0x10, 0x12, 0x14, 0x16]

/-- ENTDAA: the board controller gives the dynamic address. -/
def execEntdaa (address : BitVec 7) (s : State) : Host.Outcome State Fault Refusal :=
  .next { s with lands.i3cAddr := some address, lands.i3cBusy := none }

/-- I3C_PRIVATE_WRITE: one index byte sets the index, and any other write is NACKed; a write of no byte is one whose byte
has not come yet (log 46). -/
def execI3cPrivateWrite (bytes : List Byte) (s : State) : Host.Outcome State Fault Refusal :=
  .next (if s.lands.i3cAddr.isNone then s
    else match bytes with
      | [] => { s with lands.i3cBusy := some s.now }
      | [b] => if telemetryIndexes.contains b.toNat then { s with lands.i3cIndex := b.toNat, lands.i3cBusy := none }
          else { s with lands.i3cBusy := none }
      | _ => { s with lands.i3cBusy := none })

/-- I3C_PRIVATE_READ: `len` bytes of telemetry from the index onward; a read of no byte has not ended (log 46). -/
def execI3cPrivateRead (len : Nat) (s : State) : Host.Outcome State Fault Refusal :=
  .next (if s.lands.i3cAddr.isNone then s
    else if len = 0 then { s with lands.i3cBusy := some s.now }
    else { s with lands.i3cSent := slice (telemetry s) s.lands.i3cIndex len, lands.i3cBusy := none })

/-- I3C_TIMEOUT: a transfer left incomplete for 10 ms is abandoned. -/
def execI3cTimeout (s : State) : Host.Outcome State Fault Refusal :=
  .next (match s.lands.i3cBusy with
    | some t => if past s t 10000000 then { s with lands.i3cBusy := none } else s
    | none => s)

/-! ### The test access port (R589, R592) -/

/-- The instruction the port executes: EXTEST and SAMPLE/PRELOAD act as BYPASS while PORST_N is released. -/
def tapActs (held : Bool) (op : TapOp) : TapOp :=
  match op with
  | .extest => if held then .extest else .bypass
  | .sample => if held then .sample else .bypass
  | .idcode => .idcode
  | .bypass => .bypass

/-- TAP_INSTRUCTION. -/
def execTapInstruction (op : TapOp) (s : State) : Host.Outcome State Fault Refusal :=
  .next { s with lands.tap := tapActs (s.life == .held) op }

end Sys2Proof.Machine
end

