-- ==== Sys2Proof/Machine/Registers.lean ====
section
/-! DEFINITION. The registers of the management window: what each reads as, which reads clear or advance, and what a
write of each does (00 R12 to R15; 17 R447; 21 R561 to R578). -/

namespace Sys2Proof.Machine

/-! ### Fields -/

/-- A register's value from its fields (lowest bit, width, value). -/
def pack : List (Nat × Nat × Nat) → W64
  | [] => 0
  | f :: fs => BitVec.ofNat 64 (f.2.2 % 2 ^ f.2.1 * 2 ^ f.1) ||| pack fs

/-- A one-bit field. -/
def bit (b : Bool) : Nat := if b then 1 else 0

/-- The acting role keeps intake, journal and streams (R562). -/
def keepsIntake (s : State) : Bool := accepts s || role s == 1

/-- The acting role keeps member states (R486, R562). -/
def keepsMembers (s : State) : Bool := isManager s || role s == 1

/-! ### CFG_ and SEC_ -/

/-- CFG_CAP0 (R567). -/
def cfgCap0 : W64 := 0x7FFFFFFF

/-- CFG_CAP_LIMITS (R568). -/
def cfgCapLimits (s : State) : W64 :=
  pack [(0, 16, 0x100), (16, 7, 96 - (fencedBenches s).length), (24, 10, hbmGib s), (34, 14, ddrGib s), (48, 8, stkTib s),
        (56, 4, portsUp s)]

/-- CFG_DEV_INFO (R569). -/
def cfgDevInfo (s : State) : W64 :=
  pack [(0, 16, 0x1800), (16, 8, 2), (24, 8, 1), (32, 16, 0x4812), (48, 8, s.cfg.stepping.toNat)]

/-- CFG_LOAD_STATUS (R72). -/
def cfgLoadStatus (s : State) : W64 :=
  pack [(0, 8, s.cfg.loadCode.toNat), (8, 1, bit s.cfg.load.isSome), (9, 1, bit s.cfg.shadow.isSome), (16, 16, s.cfg.loadDetail.toNat),
        (32, 32, s.cfg.rejectOffset.toNat)]

/-- Requests of the retiring set (R92). -/
def retireLeft (s : State) : Nat :=
  (s.cfg.retiring.map fun p => (s.job.reqs.filter (·.epoch == p.epoch)).length).getD 0

/-- CFG_SWAP_STATUS (R92). -/
def cfgSwapStatus (s : State) : W64 :=
  pack [(0, 8, s.cfg.swapCode.toNat), (8, 1, bit (s.cfg.swap.isSome || s.cfg.domSwap.isSome)), (9, 1, bit s.cfg.retiring.isSome),
        (10, 1, bit s.cfg.prepared.isSome), (16, 16, s.cfg.swapDetail.toNat), (32, 16, s.cfg.setEpoch.toNat),
        (48, 16, min (retireLeft s) 0xFFFF)]

/-- SEC_KEY_STATUS (R571). -/
def secKeyStatus (s : State) : W64 := pack ((List.range 4).map fun i => (2 * i, 2, (s.sec.slots.getD i (0, 0, 0)).1))

/-- SEC_ROLLBACK (R573). -/
def secRollback (s : State) : W64 := hi32 s.sec.rollbackImage ||| atBit 0 s.sec.rollbackMin

/-- SEC_COUNTS (R574). -/
def secCounts (s : State) : W64 := atBit 0 s.sec.sigFailPlan ||| atBit 16 s.sec.sigFailFw ||| atBit 32 s.sec.sigFailClear

/-- Digest of a slot's key in uncompressed point form; zeros for an empty slot (R572). -/
def keyDigest (k : Nat × Nat × Nat) : List Byte :=
  if k.1 = 0 then List.replicate 48 0 else sha384 (4 :: (toLe 48 k.2.1).reverse ++ (toLe 48 k.2.2).reverse)

/-- SEC_KEY_DIGESTn (R572). -/
def secKeyDigest (s : State) (n : Nat) : W64 :=
  BitVec.ofNat 64 (fieldAt (keyDigest (s.sec.slots.getD (n / 6) (0, 0, 0))) (8 * (n % 6)) 8)

/-! ### WB_, JOB_ and DLM_ -/

/-- WB_STATUS (R157). -/
def wbStatus (s : State) : W64 :=
  pack [(0, 1, bit s.wb.mirrorOk), (1, 1, bit s.wb.solo), (2, 1, bit s.wb.seqWarn), (3, 1, bit s.wb.seqStop),
        (4, 1, bit s.wb.cqStalled), (5, 1, bit (accepts s && journalFull s)), (32, 32, s.wb.powerCycles.toNat)]

/-- WB_COUNTS (R161). -/
def wbCounts (s : State) : W64 :=
  atBit 0 s.wb.dupSubmit ||| atBit 16 s.wb.dupAnswer ||| atBit 32 s.wb.reissued ||| atBit 48 s.wb.orderReject ||| atBit 56 s.wb.releaseMiss

/-- WB_STREAM_INFO of a stream (R575). -/
def wbStreamInfo (s : State) (n : Nat) : W64 :=
  let high := (s.wb.streams.find? (·.1 == n)).map (·.2)
  pack [(0, 36, high.getD 0), (36, 1, bit high.isNone), (37, 23, (s.wb.held.filter fun h => tagStream h.1 == n).length)]

/-- A ring's control register (R159, R249). -/
def ringCtrl (r : Ring) : W64 := atBit 0 r.log2 ||| atBit 16 r.head ||| atBit 32 r.tail ||| flagAt 48 r.enable

/-- JOB_STATUS (R127). -/
def jobStatus (s : State) : W64 :=
  pack [(0, 2, s.job.phase.toNat), (2, 1, bit s.cfg.active.isSome), (8, 8, s.job.cmdCode.toNat), (16, 8, s.job.faultCause.toNat),
        (32, 32, s.job.jobId.toNat)]

/-- A request that is accepted (R140). -/
def Req.accepted (r : Req) : Bool :=
  match r.place with
  | .acceptance .. => false
  | _ => true

/-- JOB_INFLIGHT (R128). -/
def jobInflight (s : State) : W64 :=
  pack [(0, 32, (s.job.reqs.filter Req.accepted).length), (32, 32, intakeQueued s)]

/-- JOB_ARITH_COUNTS (R183). -/
def jobArithCounts (s : State) : W64 :=
  atBit 0 s.job.outSat ||| atBit 16 s.job.outNan ||| atBit 32 s.job.intAccSat ||| atBit 48 s.job.kalbaClamp ||| atBit 56 s.job.sfuFlush

/-- DLM_COUNTS (R130). -/
def dlmCounts (s : State) : W64 :=
  atBit 0 s.dlm.softPassed ||| atBit 16 s.dlm.hardPassed ||| atBit 32 s.dlm.cancelMiss ||| atBit 48 s.dlm.intakeFull

/-! ### FLT_ and LOG_ -/

/-- FLT_ASSAY_COUNTS (R204). -/
def fltAssayCounts (s : State) : W64 :=
  atBit 0 s.flt.assayTransient ||| atBit 16 s.flt.slabRetired ||| atBit 24 s.flt.benchFenced ||| atBit 32 s.flt.assaySkip

/-- FLT_SLAB_MAPn (R205). -/
def fltSlabMap (s : State) (n : Nat) : W64 :=
  pack ((List.range 6).map fun i =>
    let b := s.flt.benches.getD (6 * n + i) {}
    (10 * i, 10, b.retired.toNat + 512 * bit b.fenced))

/-- FLT_ALERT_CTRL (R523). -/
def fltAlertCtrl (s : State) : W64 := ringCtrl s.flt.alert ||| atBit 49 s.flt.minSeverity

/-- LOG_STATUS (R519). -/
def logStatus (s : State) : W64 :=
  pack [(0, 1, bit s.log.mounted), (1, 1, bit s.log.presFull), (2, 1, bit s.log.flashFault), (3, 1, bit s.log.clear.isSome),
        (8, 8, s.log.clearCode.toNat), (16, 11, s.log.queue.length), (32, 32, s.log.dropCount.toNat)]

/-- LOG_SPACE (R520); zero until the regions are scanned. -/
def logSpace (s : State) : W64 :=
  if s.log.mounted then pack [(0, 32, ringLive s.log.flash), (32, 32, presUsed s.log.flash)] else 0

def logAreaBytes : Nat := 0x800000

/-- The eight flash bytes at LOG_READ_ADDR (R521). -/
def logReadData (s : State) (a : Nat) : W64 :=
  BitVec.ofNat 64 (leNat ((List.range 8).map fun i => cellGet erased s.log.flash (presBase + (a + i) % logAreaBytes)))

/-- LOG_READ_ADDR after a read (R521). -/
def logNextAddr (v : W64) : W64 := BitVec.ofNat 64 ((v.toNat + 8) % logAreaBytes)

/-! ### CLK_, PWR_ and RST_ -/

/-- CLK_STATUS (R554). -/
def clkStatus (s : State) : W64 :=
  pack [(0, 12, s.clk.lastFailed.toNat), (12, 8, s.clk.fallback.length), (20, 1, bit s.clk.outFast), (21, 1, bit s.clk.ringBad),
        (22, 1, bit s.clk.srcBad), (32, 16, s.clk.transient.toNat)]

/-- CLK_FB_MAPn (R576). -/
def clkFbMap (s : State) (n : Nat) : W64 :=
  pack ((List.range 64).map fun i => (i, 1, bit (s.clk.fallback.contains (64 * n + i))))

/-- PWR_STATUS (R557). -/
def pwrStatus (s : State) : W64 :=
  pack [(0, 3, s.pwr.state), (3, 1, bit s.pwr.move.isSome), (4, 1, bit s.pwr.capBad), (5, 1, bit s.pwr.capUnmet),
        (6, 1, bit s.pwr.throttle), (7, 1, bit s.pwr.avsFault), (8, 8, s.pwr.code.toNat), (16, 7, s.pwr.issueFrac)]

/-- PWR_METER (R558). -/
def pwrMeter (s : State) : W64 := pack [(0, 16, powerDw s), (16, 16, s.pwr.inputMv.toNat), (32, 10, s.pwr.tmax.toNat)]

/-- RST_STATUS (R560). -/
def rstStatus (s : State) : W64 :=
  pack [(0, 3, s.rst.lastReset.toNat), (3, 1, bit (s.life == .ready)), (4, 1, bit (s.life == .recovery)),
        (5, 1, bit s.rst.stagingAbsent), (6, 1, bit s.rst.fwLoad.isSome), (8, 8, s.rst.fwCode.toNat), (32, 32, s.rst.buildId.toNat)]

/-! ### DOM_ and LNK_ -/

/-- DOM_STATUS (R486). -/
def domStatus (s : State) : W64 :=
  pack [(0, 3, role s), (3, 1, bit s.lnk.node.isSome), (4, 1, bit s.dom.strapBad), (5, 1, bit s.dom.claimClash),
        (16, 32, s.dom.mgrEpoch.toNat),
        (48, 11, if keepsMembers s then ((ownMembers s).filter (·.state == .up)).length else 0)]

/-- Number of a member state (R489). -/
def MemberState.code : MemberState → Nat
  | .absent => 0
  | .up => 1
  | .suspect => 2
  | .lost => 3
  | .excluded => 4
  | .removed => 5

/-- DOM_MEMBER_INFO of a member (R489, R563). -/
def domMemberInfo (s : State) (n : Nat) : W64 :=
  match (memberNo s n).filter fun _ => keepsMembers s with
  | some m => pack [(0, 3, m.state.code), (3, 3, m.role), (6, 16, m.node.toNat), (22, 1, bit m.restoring),
      (23, 1, bit (!owesNothing s m.node)), (24, 32, min (usSince s m.heard) 0xFFFFFFFF)]
  | none => 0x38

/-- DOM_COUNTS (R492). -/
def domCounts (s : State) : W64 :=
  atBit 0 s.dom.hbProbeOk ||| atBit 16 s.dom.memberLost ||| atBit 24 s.dom.takeovers ||| atBit 32 s.dom.owedDropped |||
  atBit 40 s.dom.enumOverflow ||| atBit 48 s.dom.staleEpoch

/-- LNK_PORT_CFGn (R455). -/
def lnkPortCfg (c : PortCfg) : W64 := atBit 0 c.split ||| flagAt 2 c.enable ||| atBit 8 c.laneOff

/-- The sub-port that LNK_SUB_SELECT names, or none: one that the port's split does not create does not exist (R457,
R563). -/
def namedSub (s : State) (v : W64) : Option Nat :=
  let port := regBits v 0 4
  let sub := regBits v 4 2
  if port < 12 && subLanes (s.lnk.ports.getD port {}).split.toNat sub != 0 then some (4 * port + sub) else none

/-- Number of a sub-port state (R458). -/
def SubState.code : SubState → Nat
  | .down => 0
  | .training => 1
  | .up => 2
  | .laneChg => 3

/-- LNK_SUB_STATUS (R458): one that does not exist reads DOWN, all else zero (R563). -/
def lnkSubStatus (s : State) (v : W64) : W64 :=
  match namedSub s v with
  | some i =>
    let p := getSub s i
    pack [(0, 2, p.state.code), (2, 8, p.lanes.toNat), (10, 2, p.farKind.toNat), (12, 1, bit p.farBad), (13, 1, bit p.creditStall),
          (16, 16, p.farNode.toNat), (32, 16, p.replay.length)]
  | none => 0

/-- LNK_SUB_COUNTS (R459). -/
def lnkSubCounts (s : State) (v : W64) : W64 :=
  match namedSub s v with
  | some i => let p := getSub s i; atBit 0 p.crcFail ||| atBit 32 p.replayOk ||| atBit 48 p.laneDropped ||| atBit 56 p.portDown
  | none => 0

/-- LNK_NODE_ADDR (R460). -/
def lnkNodeAddr (s : State) : W64 :=
  match s.lnk.node with
  | some n => atBit 0 n ||| 0x10000
  | none => 0

/-- LNK_DEV_COUNTS (R461). -/
def lnkDevCounts (s : State) : W64 :=
  atBit 0 s.lnk.misroute ||| atBit 16 s.lnk.unreachable ||| atBit 24 s.lnk.badTxn ||| atBit 32 s.lnk.subIncomplete |||
  atBit 40 s.lnk.reasmDrop ||| atBit 48 s.lnk.mgmtDenied ||| atBit 56 s.lnk.mgmtDup

/-! ### MEM_, HAUL_ and STK_ -/

/-- The object that MEM_OBJ_INFO shows for an id (R386). -/
def shownObj (s : State) (id : Nat) : Option Obj :=
  ((heldSets s).findSome? fun p => s.mem.objs.find? fun o => o.place.id == id && o.owner == some p.serial).or (residentObj s id)

/-- MEM_OBJ_INFO (R386). -/
def memObjInfo (s : State) (id : Nat) : W64 :=
  match shownObj s id with
  | some o => pack [(0, 31, if o.place.tier = 2 then 0 else o.page), (31, 1, 1), (32, 32, o.place.size)]
  | none => 0

/-- MEM_PAGE_INFO (R387). -/
def memPageInfo (s : State) (page : Nat) : W64 :=
  match s.mem.pages.find? (·.page == page) with
  | some p =>
    let o := pageObj s page
    pack [(0, 2, p.tier), (2, 4, p.unit), (6, 17, p.frame), (23, 1, bit p.motion),
          (24, 1, bit ((o.map (·.owner.isNone)).getD false)), (25, 10, (o.map (·.place.tenant)).getD 0)]
  | none => 3

/-- MEM_TIER_FREE (R388). -/
def memTierFree (s : State) : W64 :=
  pack [(0, 20, ((List.range 12).map (freeFrames s 0)).sum), (20, 22, ((List.range 16).map (freeFrames s 1)).sum)]

/-- MEM_COUNTS (R391). -/
def memCounts (s : State) : W64 :=
  atBit 0 s.mem.eccCorrected ||| atBit 16 s.mem.eccUncorrected ||| atBit 24 s.mem.rowSpared ||| atBit 32 s.mem.motionWaits |||
  atBit 48 s.mem.haulAbort ||| atBit 56 s.mem.quotaHit

/-- HAUL_STATUS (R390). -/
def haulStatus (s : State) : W64 :=
  pack [(0, 8, s.haul.pointId.toNat), (8, 1, bit s.haul.running.isSome), (9, 1, bit s.haul.resumed),
        (16, 32, s.haul.todo.length + s.haul.moves.length)]

/-- STK_GEOMETRY, loaded at mount (R419). -/
def stkGeometry (s : State) : W64 :=
  match s.stk.pop.filter fun _ => s.stk.ready with
  | some p => pack [(0, 2, p.cell), (2, 5, p.targets.foldl max 0), (7, 2, p.luns / 2), (9, 1, bit (p.planes == 4)),
      (12, 20, blockBytes s / 32768), (32, 32, userBlocks s)]
  | none => 3

/-- f of R398 over both controllers, in percent. -/
def fillPct (s : State) : Nat := 100 * (validBytes s 0 + validBytes s 1) / (userBytes s 0 + userBytes s 1)

/-- `free_blocks` (R420). -/
def stkFreeBlocks (s : State) : Nat := (s.stk.ctrls.map fun c => (c.blocks.filter fun b => b.use == .free || b.use == .toErase).length).sum

/-- The lesser of a figure of the two controllers. -/
def lesser (s : State) (f : Ctrl → Nat) : Nat := min (f (getCtrl s 0)) (f (getCtrl s 1))

/-- STK_STATUS (R420). -/
def stkStatus (s : State) : W64 :=
  pack [(0, 1, bit s.stk.ready), (1, 1, bit s.stk.mediaBad), (2, 1, bit s.stk.pfReplayed), (3, 1, bit s.stk.pfIncomplete),
        (4, 1, bit s.stk.formatting.isSome), (8, 8, s.stk.cmdCode.toNat), (16, 7, if s.stk.ready then fillPct s else 0),
        (24, 10, lesser s (·.capMib)), (34, 30, stkFreeBlocks s)]

/-- STK_PF_BUDGET (R421). -/
def stkPfBudget (s : State) : W64 :=
  pack [(0, 20, max (getCtrl s 0).boundUs (getCtrl s 1).boundUs), (20, 20, lesser s (·.rateMbs))]

/-- STK_COUNTS (R423). -/
def stkCounts (s : State) : W64 :=
  atBit 0 s.stk.rdRetryOk ||| atBit 16 s.stk.rdFail ||| atBit 24 s.stk.blkRetired ||| atBit 32 s.stk.peFail |||
  atBit 40 s.stk.mergesFull ||| atBit 56 s.stk.stkFull

/-! ### SRCH_, GTH_, SCR_, TXT_, RRK_ and DEC_ -/

/-- `fold_state` (R313). -/
def foldState (c : Coll) : Nat :=
  match c.fold with
  | some f => if f.running then 1 else 2
  | none => if c.compacting then 3 else 0

/-- SRCH_COLL_STATUS (R313). -/
def srchCollStatus (s : State) (id : Nat) : W64 :=
  match findColl s id with
  | some c => pack [(0, 32, c.version), (32, 25, c.screeTail - c.screeBase), (57, 1, bit c.old.isSome), (58, 2, foldState c)]
  | none => 0

/-- SRCH_COLL_ENTRY (R314). -/
def srchCollEntry (s : State) (id : Nat) : W64 := ((findColl s id).bind (·.entry)).getD 0

/-- SRCH_COLL_SLOTS (R314). -/
def srchCollSlots (s : State) (id : Nat) : W64 :=
  match findColl s id with
  | some c => pack [(0, 32, (slotsWhere c fun n => (slotNow s c n).isLive).length), (32, 32, (slotsWhere c fun n => (slotNow s c n).isDeleted).length)]
  | none => 0

/-- SRCH_COUNTS (R315). -/
def srchCounts (s : State) : W64 :=
  atBit 0 s.srch.edgeStale ||| atBit 16 s.srch.walkCap ||| atBit 24 s.srch.filterShort ||| atBit 32 s.srch.widenRounds |||
  atBit 48 s.srch.candDeleted ||| atBit 56 s.srch.insFull

/-- Number of a region state (R273). -/
def Region.code : Region → Nat
  | .free => 0
  | .build => 1
  | .live => 2
  | .retiring => 3

/-- GTH_TBL_STATUS of the table a GTH_BUILD_CMD value names (R273): a command on a table the device does not hold reads
GTH_NO_TABLE, a SELECT of one zero. -/
def gthTblStatus (s : State) (v : W64) : W64 :=
  match findTable s (gthTable v) with
  | some t => pack [(0, 2, t.region0.code), (2, 2, t.region1.code), (4, 1, bit t.busy.isSome), (8, 8, t.cmdCode.toNat),
      (16, 10, t.failMember.toNat), (32, 32, if t.region0 = .live || t.region1 = .live then t.version else 0)]
  | none => pack [(8, 8, bit (1 ≤ regBits v 0 3 && regBits v 0 3 ≤ 3))]

/-- GTH_COUNTS (R274). -/
def gthCounts (s : State) : W64 :=
  atBit 0 s.gth.fetchSaved ||| atBit 32 s.gth.idxRange ||| atBit 40 s.gth.dirBad ||| atBit 48 s.gth.cntSat ||| atBit 56 s.gth.pubFail

/-- SCR_COUNTS (R333). -/
def scrCounts (s : State) : W64 :=
  atBit 0 s.scr.nanDropped ||| atBit 16 s.scr.mergeDup ||| atBit 32 s.scr.genSuperseded ||| atBit 48 s.scr.mergeConflict |||
  atBit 56 s.scr.shortLists

/-- TXT_COUNTS (R248). -/
def txtCounts (s : State) : W64 :=
  atBit 0 s.txt.utf8Invalid ||| atBit 16 s.txt.textTooLong ||| atBit 24 s.txt.cgjInserted ||| atBit 32 s.txt.unkPieces |||
  atBit 48 s.txt.packSkip ||| atBit 56 s.txt.tokMismatch

/-- RRK_COUNTS (R361). -/
def rrkCounts (s : State) : W64 := atBit 0 s.rrk.pairs ||| atBit 32 s.rrk.fetchSkip ||| atBit 48 s.rrk.trunc

/-- DEC_COUNTS (R362). -/
def decCounts (s : State) : W64 :=
  atBit 0 s.dec.kvResend ||| atBit 16 s.dec.kvDup ||| atBit 32 s.dec.idleFreed ||| atBit 40 s.dec.tallySat |||
  atBit 48 s.dec.tallySpill ||| atBit 56 s.dec.noToken

/-- DEC_POOL (R363). -/
def decPool (s : State) : W64 := pack [(0, 32, freeBlocks s), (32, 32, s.dec.caches.length)]

/-! ### The register map (R578) -/

/-- Register number `i` of a set that starts at `lo`, 8 bytes each. -/
def setIndex (lo n a : Nat) : Option Nat := if lo ≤ a && a < lo + 8 * n then some ((a - lo) / 8) else none

/-! Offsets of the select registers (R563). -/

def rStreamSelect : Nat := 0x20050
def rLogAddr : Nat := 0x60010
def rMemberSelect : Nat := 0xA0048
def rSubSelect : Nat := 0xB0088
def rObjSelect : Nat := 0xC0000
def rPageSelect : Nat := 0xC0010
def rQuotaSelect : Nat := 0xC0020
def rCollSelect : Nat := 0xF0000

/-- Registers of the CFG_ page by offset in it. -/
def cfgRead (s : State) (_src : Node) (a : Nat) : W64 :=
  if a = 0 then cfgCap0
  else if a = 0x20 then cfgCapLimits s
  else if a = 0x28 then cfgDevInfo s
  else if a = 0x48 then cfgLoadStatus s
  else if a = 0x68 then cfgSwapStatus s
  else if a = 0x70 then s.cfg.swapTicket
  else 0

/-- Registers of the SEC_ page by offset in it. -/
def secRead (s : State) (_src : Node) (a : Nat) : W64 :=
  match setIndex 0x100 24 a with
  | some i => secKeyDigest s i
  | none =>
    if a = 0x00 then secKeyStatus s
    else if a = 0x08 then secRollback s
    else if a = 0x10 then secCounts s
    else 0

/-- Registers of the WB_ page by offset in it. -/
def wbRead (s : State) (src : Node) (a : Nat) : W64 :=
  if a = 0x00 then wbStatus s
  else if a = 0x08 then ticketNext s
  else if a = 0x10 then pack [(0, 32, s.wb.held.length)]
  else if a = 0x18 then wbCounts s
  else if a = 0x58 then wbStreamInfo s (tagStream (bankGet s rStreamSelect src))
  else if a = 0x80 then s.wb.cqBase
  else if a = 0x88 then ringCtrl s.wb.cq
  else 0

/-- Registers of the JOB_ page by offset in it. -/
def jobRead (s : State) (_src : Node) (a : Nat) : W64 :=
  if a = 0x08 then jobStatus s
  else if a = 0x10 then jobInflight s
  else if a = 0x18 then jobArithCounts s
  else 0

/-- Registers of the DLM_ page by offset in it. -/
def dlmRead (s : State) (_src : Node) (a : Nat) : W64 :=
  if a = 0x00 then dlmCounts s
  else 0

/-- Registers of the FLT_ page by offset in it. -/
def fltRead (s : State) (_src : Node) (a : Nat) : W64 :=
  match setIndex 0x100 16 a with
  | some i => fltSlabMap s i
  | none =>
    if a = 0x000 then fltAssayCounts s
    else if a = 0x200 then s.flt.alertBase
    else if a = 0x208 then fltAlertCtrl s
    else if a = 0x210 then atBit 0 s.flt.alertLost
    else 0

/-- Registers of the LOG_ page by offset in it. -/
def logRead (s : State) (src : Node) (a : Nat) : W64 :=
  if a = 0x00 then logStatus s
  else if a = 0x08 then logSpace s
  else if a = 0x10 then bankGet s rLogAddr src
  else if a = 0x18 then logReadData s (bankGet s rLogAddr src).toNat
  else if a = 0x20 then s.log.nonce
  else 0

/-- Registers of the CLK_ page by offset in it. -/
def clkRead (s : State) (_src : Node) (a : Nat) : W64 :=
  match setIndex 0x40 4 a with
  | some i => clkFbMap s i
  | none =>
    if a = 0x00 then clkStatus s
    else if a = 0x08 then s.clk.outCfg
    else 0

/-- Registers of the PWR_ page by offset in it. -/
def pwrRead (s : State) (_src : Node) (a : Nat) : W64 :=
  if a = 0x08 then atBit 0 s.pwr.cap
  else if a = 0x10 then pwrStatus s
  else if a = 0x18 then pwrMeter s
  else 0

/-- Registers of the RST_ page by offset in it. -/
def rstRead (s : State) (_src : Node) (a : Nat) : W64 :=
  if a = 0x10 then rstStatus s
  else if a = 0x18 then s.rst.buildId
  else 0

/-- Registers of the DOM_ page by offset in it. -/
def domRead (s : State) (src : Node) (a : Nat) : W64 :=
  if a = 0x00 then domStatus s
  else if a = 0x08 then atBit 0 s.dom.straps
  else if a = 0x10 then s.dom.uid
  else if a = 0x18 then domCounts s
  else if a = 0x50 then domMemberInfo s (regBits (bankGet s rMemberSelect src) 0 10)
  else if a = 0x60 then pack [(0, 8, s.dom.swapFail.1), (8, 10, s.dom.swapFail.2)]
  else 0

/-- Registers of the LNK_ page by offset in it. -/
def lnkRead (s : State) (src : Node) (a : Nat) : W64 :=
  match setIndex 0 12 a with
  | some i => lnkPortCfg (s.lnk.ports.getD i {})
  | none =>
    if a = 0x90 then lnkSubStatus s (bankGet s rSubSelect src)
    else if a = 0x98 then lnkSubCounts s (bankGet s rSubSelect src)
    else if a = 0xA0 then lnkNodeAddr s
    else if a = 0xA8 then lnkDevCounts s
    else 0

/-- Registers of the MEM_ page by offset in it. -/
def memRead (s : State) (src : Node) (a : Nat) : W64 :=
  if a = 0x08 then memObjInfo s (regBits (bankGet s rObjSelect src) 0 32)
  else if a = 0x18 then memPageInfo s (regBits (bankGet s rPageSelect src) 0 31)
  else if a = 0x28 then (let n := regBits (bankGet s rQuotaSelect src) 0 10; pack [(0, 20, tenantUse s n 0), (20, 22, tenantUse s n 1)])
  else if a = 0x30 then pack [(0, 32, tenantUse s (regBits (bankGet s rQuotaSelect src) 0 10) 2)]
  else if a = 0x38 then memTierFree s
  else if a = 0x40 then memCounts s
  else 0

/-- Registers of the HAUL_ page by offset in it. -/
def haulRead (s : State) (_src : Node) (a : Nat) : W64 :=
  if a = 0x00 then haulStatus s
  else 0

/-- Registers of the STK_ page by offset in it. -/
def stkRead (s : State) (_src : Node) (a : Nat) : W64 :=
  if a = 0x00 then stkGeometry s
  else if a = 0x08 then stkStatus s
  else if a = 0x10 then stkPfBudget s
  else if a = 0x18 then stkCounts s
  else 0

/-- Registers of the SRCH_ page by offset in it. -/
def srchRead (s : State) (src : Node) (a : Nat) : W64 :=
  if a = 0x08 then srchCollStatus s (regBits (bankGet s rCollSelect src) 0 16)
  else if a = 0x10 then srchCollEntry s (regBits (bankGet s rCollSelect src) 0 16)
  else if a = 0x18 then srchCollSlots s (regBits (bankGet s rCollSelect src) 0 16)
  else if a = 0x20 then srchCounts s
  else 0

/-- Registers of the GTH_ page by offset in it. -/
def gthRead (s : State) (src : Node) (a : Nat) : W64 :=
  if a = 0x08 then gthTblStatus s (bankGet s rGthCmd.toNat src)
  else if a = 0x10 then gthCounts s
  else 0

/-- Registers of the SCR_ page by offset in it. -/
def scrRead (s : State) (_src : Node) (a : Nat) : W64 :=
  if a = 0x00 then scrCounts s
  else if a = 0x08 then s.scr.conflictId
  else if a = 0x10 then s.scr.conflictTicket
  else 0

/-- Registers of the TXT_ page by offset in it. -/
def txtRead (s : State) (_src : Node) (a : Nat) : W64 :=
  if a = 0x00 then txtCounts s
  else if a = 0x08 then s.txt.srBase
  else if a = 0x10 then ringCtrl s.txt.sr
  else 0

/-- Registers of the RRK_ page by offset in it. -/
def rrkRead (s : State) (_src : Node) (a : Nat) : W64 :=
  if a = 0x00 then rrkCounts s
  else 0

/-- Registers of the DEC_ page by offset in it. -/
def decRead (s : State) (_src : Node) (a : Nat) : W64 :=
  if a = 0x00 then decCounts s
  else if a = 0x08 then decPool s
  else 0

/-- What a register reads as (R578); an offset that no table lists, and a WO register, reads zero. -/
def regRead (s : State) (src : Node) (offset : W64) : W64 :=
  let a := regBits offset 0 16
  match regBits offset 16 8 with
  | 0 => cfgRead s src a
  | 1 => secRead s src a
  | 2 => wbRead s src a
  | 3 => jobRead s src a
  | 4 => dlmRead s src a
  | 5 => fltRead s src a
  | 6 => logRead s src a
  | 7 => clkRead s src a
  | 8 => pwrRead s src a
  | 9 => rstRead s src a
  | 10 => domRead s src a
  | 11 => lnkRead s src a
  | 12 => memRead s src a
  | 13 => haulRead s src a
  | 14 => stkRead s src a
  | 15 => srchRead s src a
  | 16 => gthRead s src a
  | 17 => scrRead s src a
  | 18 => txtRead s src a
  | 19 => rrkRead s src a
  | 20 => decRead s src a
  | _ => 0

/-! ### What a read does (R15, R521, R563, R564) -/

/-- Clear the counts of the sub-port a source names (R459). -/
def clearSubCounts (v : W64) (s : State) : State :=
  match namedSub s v with
  | some i => setSub i { getSub s i with crcFail := 0, replayOk := 0, laneDropped := 0, portDown := 0 } s
  | none => s

/-- Clear the RC fields of a register (R12, R564). -/
def rcClear (src : Node) (offset : W64) (s : State) : State :=
  if offset = 0x10010 then { s with sec.sigFailPlan := 0, sec.sigFailFw := 0, sec.sigFailClear := 0 }
  else if offset = 0x20018 then { s with wb.dupSubmit := 0, wb.dupAnswer := 0, wb.reissued := 0, wb.orderReject := 0, wb.releaseMiss := 0 }
  else if offset = 0x30018 then { s with job.outSat := 0, job.outNan := 0, job.intAccSat := 0, job.kalbaClamp := 0, job.sfuFlush := 0 }
  else if offset = 0x40000 then { s with dlm := {} }
  else if offset = 0x50000 then { s with flt.assayTransient := 0, flt.slabRetired := 0, flt.benchFenced := 0, flt.assaySkip := 0 }
  else if offset = 0x50210 then { s with flt.alertLost := 0 }
  else if offset = 0x70000 then { s with clk.transient := 0 }
  else if offset = 0xA0018 then { s with dom.hbProbeOk := 0, dom.memberLost := 0, dom.takeovers := 0, dom.owedDropped := 0, dom.enumOverflow := 0, dom.staleEpoch := 0 }
  else if offset = 0xB0098 then clearSubCounts (bankGet s rSubSelect src) s
  else if offset = 0xB00A8 then { s with lnk.misroute := 0, lnk.unreachable := 0, lnk.badTxn := 0, lnk.subIncomplete := 0, lnk.reasmDrop := 0, lnk.mgmtDenied := 0, lnk.mgmtDup := 0 }
  else if offset = 0xC0040 then { s with mem.eccCorrected := 0, mem.eccUncorrected := 0, mem.rowSpared := 0, mem.motionWaits := 0, mem.haulAbort := 0, mem.quotaHit := 0 }
  else if offset = 0xE0018 then { s with stk.rdRetryOk := 0, stk.rdFail := 0, stk.blkRetired := 0, stk.peFail := 0, stk.mergesFull := 0, stk.stkFull := 0 }
  else if offset = 0xF0020 then { s with srch.edgeStale := 0, srch.walkCap := 0, srch.filterShort := 0, srch.widenRounds := 0, srch.candDeleted := 0, srch.insFull := 0 }
  else if offset = 0x100010 then { s with gth.fetchSaved := 0, gth.idxRange := 0, gth.dirBad := 0, gth.cntSat := 0, gth.pubFail := 0 }
  else if offset = 0x110000 then { s with scr.nanDropped := 0, scr.mergeDup := 0, scr.genSuperseded := 0, scr.mergeConflict := 0, scr.shortLists := 0 }
  else if offset = 0x120000 then { s with txt.utf8Invalid := 0, txt.textTooLong := 0, txt.cgjInserted := 0, txt.unkPieces := 0, txt.packSkip := 0, txt.tokMismatch := 0 }
  else if offset = 0x130000 then { s with rrk := {} }
  else if offset = 0x140000 then { s with dec.kvResend := 0, dec.kvDup := 0, dec.idleFreed := 0, dec.tallySat := 0, dec.tallySpill := 0, dec.noToken := 0 }
  else s

/-- The select register that steers a view (R563). -/
def viewSelect (offset : W64) : Option Nat :=
  if offset = 0x20058 then some rStreamSelect
  else if offset = 0xA0050 then some rMemberSelect
  else if offset = 0xB0090 || offset = 0xB0098 then some rSubSelect
  else if offset = 0xC0008 then some rObjSelect
  else if offset = 0xC0018 then some rPageSelect
  else if offset = 0xC0028 || offset = 0xC0030 then some rQuotaSelect
  else if offset = 0xF0008 || offset = 0xF0010 || offset = 0xF0018 then some rCollSelect
  else if offset = 0x100008 then some rGthCmd.toNat
  else if offset = 0x60010 || offset = 0x60018 then some rLogAddr
  else none

/-- A view's read takes a bank for its source (R563); a read of LOG_READ_DATA advances the address (R521). -/
def touchView (src : Node) (offset : W64) (s : State) : State :=
  match viewSelect offset with
  | some r => if offset = rLogData then bankSet r src (logNextAddr (bankGet s r src)) s else bankTouch r src s
  | none => s

/-- A read of a register: its value, and what the read does. -/
def readReg (c : Cmd) (offset : W64) (s : State) : State × W64 :=
  (rcClear c.src offset (touchView c.src offset s), regRead s c.src offset)

/-- MREAD (R447). -/
def execMread (c : Cmd) (offset : W64) (s : State) : Host.Outcome State Fault Refusal :=
  .next (manage c offset 0 (readReg c offset) s)

/-- RC_READ: an MREAD of a register with RC fields (R12, R15, R564). -/
def execRcRead (c : Cmd) (offset : W64) (s : State) : Host.Outcome State Fault Refusal :=
  .next (manage c offset 0 (readReg c offset) s)

/-- LOG_READ_DATA (R521). -/
def execLogReadData (c : Cmd) (s : State) : Host.Outcome State Fault Refusal :=
  .next (manage c rLogData 0 (readReg c rLogData) s)

/-! ### What a write does (R12, R160, R562, R563) -/

/-- A write to CFG_SWAP_CMD (R91). -/
def swapWrite (v : W64) (t : Ticket) (s : State) : State :=
  if !regBit v 0 then s
  else if regBit v 1 then domainSwapCommand t (regBits v 8 8) (regBits v 16 8) s
  else swapCommand t (regBits v 8 8) (regBits v 16 8) s

/-- A write to LNK_PORT_CFGn (R455). -/
def portCfgWrite (n : Nat) (v : W64) (s : State) : State :=
  { s with lnk.ports := s.lnk.ports.set n ⟨v.extractLsb' 0 2, regBit v 2, v.extractLsb' 8 8⟩ }

/-- Bits of a select register that name an item. -/
def selectMask (offset : W64) : Option W64 :=
  if offset = 0x20050 then some 0xFFF
  else if offset = 0x60010 then some 0x7FFFF8
  else if offset = 0xA0048 then some 0x3FF
  else if offset = 0xB0088 then some 0x3F
  else if offset = 0xC0000 then some 0xFFFFFFFF
  else if offset = 0xC0010 then some 0x7FFFFFFF
  else if offset = 0xC0020 then some 0x3FF
  else if offset = 0xF0000 then some 0xFFFF
  else none

/-- The acting role has what a select register names (R562). -/
def selectServes (s : State) (offset : W64) : Bool :=
  if offset = 0x20050 then keepsIntake s else if offset = 0xA0048 then keepsMembers s else true

/-- A write of a register of the clearing page (R522). -/
def logWrite (offset v : W64) (s : State) : State :=
  match setIndex 0x60100 16 offset.toNat, setIndex 0x60180 6 offset.toNat with
  | some i, _ => { s with log.token := s.log.token.set i v }
  | _, some i => { s with log.sig := s.log.sig.set i v }
  | none, none => if offset = rLogClear then logClear v s else s

/-- A write to a register (R12): each offset has the effect of its register, and any other is ignored. -/
def regWrite (c : Cmd) (offset v : W64) (t : Ticket) (s : State) : State :=
  match selectMask offset with
  | some m => if selectServes s offset then bankSet offset.toNat c.src (v &&& m) s else s
  | none =>
    match setIndex 0xB0000 12 offset.toNat with
    | some i => portCfgWrite i v s
    | none =>
      if offset = rCfgLoad then (if regBit v 0 then planLoad (regBits v 32 32) s else s)
      else if offset = rCfgSwap then swapWrite v t s
      else if offset = rRelease then releaseTicket v s
      else if offset = rStreamReset then streamReset v s
      else if offset = 0x20080 then (if keepsIntake s && !s.wb.cq.enable then { s with wb.cqBase := v } else s)
      else if offset = rCqCtrl then (if keepsIntake s then cqControl v s else s)
      else if offset = rJobCmd then jobCommand v t s
      else if offset = rCancelTicket then cancelTicket v s
      else if offset = rCancelTag then cancelTag v s
      else if offset = 0x50200 then (if s.flt.alert.enable then s else { s with flt.alertBase := v })
      else if offset = rAlertCtrl then alertControl v s
      else if offset = rClkOut then clkOutWrite v s
      else if offset = rPwrCmd then powerCommand v s
      else if offset = rPwrCap then capWrite v s
      else if offset = rRstCmd then resetCommand v t s
      else if offset = rFwCmd then fwCommand v s
      else if offset = rEnumCmd then enumCommand v s
      else if offset = rMemberCmd then memberCommand v s
      else if offset = rPortCmd then portCommand v s
      else if offset = rStkCmd then stkCommand v s
      else if offset = rGthCmd then gthCommand c v s
      else if offset = 0x120008 then (if keepsIntake s && !s.txt.sr.enable then { s with txt.srBase := v } else s)
      else if offset = rSrCtrl then (if keepsIntake s then srControl v s else s)
      else logWrite offset v s

/-- A claim that names another device's straps is ignored without an answer (R464). -/
def claimElsewhere (offset v : W64) (s : State) : Bool :=
  offset == rEnumCmd && regBits v 0 2 == 1 && !claimHere (regBits v 8 6) (regBits v 16 10) s

/-- REGISTER_WRITE: an MWRITE of any register. -/
def execRegisterWrite (c : Cmd) (offset data : W64) (s : State) : Host.Outcome State Fault Refusal :=
  .next (if claimElsewhere offset data s then s else mgmtWrite c offset data (regWrite c offset data) s)

end Sys2Proof.Machine
end

