-- ==== Sys2Proof/Machine/Dispatch.lean ====
section
/-! DEFINITION. One arm for each command: a direct call of its meaning. -/

namespace Sys2Proof.Machine

def exec (i : Instr) (s : State) : Host.Outcome State Fault Refusal :=
  match i with
  | .planLoad c imageLen => Sys2Proof.Machine.execPlanLoad c imageLen s
  | .loadTimeout => Sys2Proof.Machine.execLoadTimeout s
  | .swap c migrFirst migrCount => Sys2Proof.Machine.execSwap c migrFirst migrCount s
  | .swapInstall bench => Sys2Proof.Machine.execSwapInstall bench s
  | .swapTimeout => Sys2Proof.Machine.execSwapTimeout s
  | .setRetirement => Sys2Proof.Machine.execSetRetirement s
  | .domainSwap c migrFirst migrCount => Sys2Proof.Machine.execDomainSwap c migrFirst migrCount s
  | .prepare src nextEpoch => Sys2Proof.Machine.execPrepare src nextEpoch s
  | .prepared src code detail slices => Sys2Proof.Machine.execPrepared src code detail slices s
  | .domainSwapTimeout => Sys2Proof.Machine.execDomainSwapTimeout s
  | .commit src epoch point => Sys2Proof.Machine.execCommit src epoch point s
  | .abort src epoch => Sys2Proof.Machine.execAbort src epoch s
  | .preparedWait => Sys2Proof.Machine.execPreparedWait s
  | .preparedRelease => Sys2Proof.Machine.execPreparedRelease s
  | .jobOpen c jobId => Sys2Proof.Machine.execJobOpen c jobId s
  | .endDrain c => Sys2Proof.Machine.execEndDrain c s
  | .endAbort c => Sys2Proof.Machine.execEndAbort c s
  | .jobClose => Sys2Proof.Machine.execJobClose s
  | .forceFault c => Sys2Proof.Machine.execForceFault c s
  | .cancelTicket c ticket => Sys2Proof.Machine.execCancelTicket c ticket s
  | .cancelTag c tag => Sys2Proof.Machine.execCancelTag c tag s
  | .cancelFwd src ticket expired => Sys2Proof.Machine.execCancelFwd src ticket expired s
  | .softPass ticket => Sys2Proof.Machine.execSoftPass ticket s
  | .hardPass ticket => Sys2Proof.Machine.execHardPass ticket s
  | .stepStart stage => Sys2Proof.Machine.execStepStart stage s
  | .issueBoundary bench => Sys2Proof.Machine.execIssueBoundary bench s
  | .stepEnd stage => Sys2Proof.Machine.execStepEnd stage s
  | .stepWatchdog stage => Sys2Proof.Machine.execStepWatchdog stage s
  | .queueSlotFree stage => Sys2Proof.Machine.execQueueSlotFree stage s
  | .tileComplete bench slab tile => Sys2Proof.Machine.execTileComplete bench slab tile s
  | .submit src txn desc data => Sys2Proof.Machine.execSubmit src txn desc data s
  | .cont src txn off data => Sys2Proof.Machine.execCont src txn off data s
  | .submissionTimeout src txn => Sys2Proof.Machine.execSubmissionTimeout src txn s
  | .mirrorEntry src mgrEpoch e => Sys2Proof.Machine.execMirrorEntry src mgrEpoch e s
  | .mirrorAck src pos superseded => Sys2Proof.Machine.execMirrorAck src pos superseded s
  | .mirrorAckTimeout pos => Sys2Proof.Machine.execMirrorAckTimeout pos s
  | .completionPost ticket => Sys2Proof.Machine.execCompletionPost ticket s
  | .cqStalled => Sys2Proof.Machine.execCqStalled s
  | .releaseTicket c ticket => Sys2Proof.Machine.execReleaseTicket c ticket s
  | .streamReset c stream => Sys2Proof.Machine.execStreamReset c stream s
  | .fetch src txn ticket => Sys2Proof.Machine.execFetch src txn ticket s
  | .cqCtrlWrite c data => Sys2Proof.Machine.execCqCtrlWrite c data s
  | .srCtrlWrite c data => Sys2Proof.Machine.execSrCtrlWrite c data s
  | .alertCtrlWrite c data => Sys2Proof.Machine.execAlertCtrlWrite c data s
  | .registerWrite c offset data => Sys2Proof.Machine.execRegisterWrite c offset data s
  | .rcRead c offset => Sys2Proof.Machine.execRcRead c offset s
  | .logReadData c => Sys2Proof.Machine.execLogReadData c s
  | .mread c offset => Sys2Proof.Machine.execMread c offset s
  | .answer src a => Sys2Proof.Machine.execAnswer src a s
  | .workFwd src h desc input => Sys2Proof.Machine.execWorkFwd src h desc input s
  | .rerankFwd src h desc tokens ids => Sys2Proof.Machine.execRerankFwd src h desc tokens ids s
  | .tokenize ticket => Sys2Proof.Machine.execTokenize ticket s
  | .pack ticket => Sys2Proof.Machine.execPack ticket s
  | .prompt src h desc decodeNode tokens => Sys2Proof.Machine.execPrompt src h desc decodeNode tokens s
  | .cacheOpen src ticket promptLen lastToken kvFormat layers => Sys2Proof.Machine.execCacheOpen src ticket promptLen lastToken kvFormat layers s
  | .opened src ticket handle => Sys2Proof.Machine.execOpened src ticket handle s
  | .noRoom src ticket => Sys2Proof.Machine.execNoRoom src ticket s
  | .cacheOpenRetry ticket => Sys2Proof.Machine.execCacheOpenRetry ticket s
  | .kvBlock src h segOff data => Sys2Proof.Machine.execKvBlock src h segOff data s
  | .kvAck src handle layer index => Sys2Proof.Machine.execKvAck src handle layer index s
  | .kvResendTimeout handle layer index => Sys2Proof.Machine.execKvResendTimeout handle layer index s
  | .kvLost src ticket handle => Sys2Proof.Machine.execKvLost src ticket handle s
  | .cacheDrop src handle => Sys2Proof.Machine.execCacheDrop src handle s
  | .prefillDone src ticket handle => Sys2Proof.Machine.execPrefillDone src ticket handle s
  | .cacheIdleTimeout handle => Sys2Proof.Machine.execCacheIdleTimeout handle s
  | .streamRec src record => Sys2Proof.Machine.execStreamRec src record s
  | .gthOpen c table => Sys2Proof.Machine.execGthOpen c table s
  | .gthClone c table => Sys2Proof.Machine.execGthClone c table s
  | .gthAbandon c table => Sys2Proof.Machine.execGthAbandon c table s
  | .gthSelect c table => Sys2Proof.Machine.execGthSelect c table s
  | .buildDone table => Sys2Proof.Machine.execBuildDone table s
  | .tableSwitch table => Sys2Proof.Machine.execTableSwitch table s
  | .publishPrep src ticket table version => Sys2Proof.Machine.execPublishPrep src ticket table version s
  | .ready src ticket table code => Sys2Proof.Machine.execReady src ticket table code s
  | .publishTimeout ticket => Sys2Proof.Machine.execPublishTimeout ticket s
  | .publishCommit src ticket table version => Sys2Proof.Machine.execPublishCommit src ticket table version s
  | .retire src table version => Sys2Proof.Machine.execRetire src table version s
  | .regionFree table => Sys2Proof.Machine.execRegionFree table s
  | .gatherReq src txn ticket table version hardLeft index => Sys2Proof.Machine.execGatherReq src txn ticket table version hardLeft index s
  | .gatherAns src ticket table version sliceFirst sliceWidth rows => Sys2Proof.Machine.execGatherAns src ticket table version sliceFirst sliceWidth rows s
  | .insertAppend ticket => Sys2Proof.Machine.execInsertAppend ticket s
  | .deleteAppend ticket => Sys2Proof.Machine.execDeleteAppend ticket s
  | .pendingDrain coll => Sys2Proof.Machine.execPendingDrain coll s
  | .foldStart coll => Sys2Proof.Machine.execFoldStart coll s
  | .foldUnitCommit coll => Sys2Proof.Machine.execFoldUnitCommit coll s
  | .foldPublish coll => Sys2Proof.Machine.execFoldPublish coll s
  | .versionRetire coll => Sys2Proof.Machine.execVersionRetire coll s
  | .compactionDone coll => Sys2Proof.Machine.execCompactionDone coll s
  | .checkpointCommit coll => Sys2Proof.Machine.execCheckpointCommit coll s
  | .collectionRestore coll => Sys2Proof.Machine.execCollectionRestore coll s
  | .pageMoveStart engine => Sys2Proof.Machine.execPageMoveStart engine s
  | .pageSwitch page => Sys2Proof.Machine.execPageSwitch page s
  | .haulAbort page => Sys2Proof.Machine.execHaulAbort page s
  | .memRd src txn addr len upsets => Sys2Proof.Machine.execMemRd src txn addr len upsets s
  | .memWr src txn addr len data => Sys2Proof.Machine.execMemWr src txn addr len data s
  | .scrub tier unit off upsets => Sys2Proof.Machine.execScrub tier unit off upsets s
  | .boot b => Sys2Proof.Machine.execBoot b s
  | .bufferProgram ctrl id => Sys2Proof.Machine.execBufferProgram ctrl id s
  | .programDone ctrl id ok => Sys2Proof.Machine.execProgramDone ctrl id ok s
  | .eraseDone ctrl block ok => Sys2Proof.Machine.execEraseDone ctrl block ok s
  | .nandRead ctrl block page decodesAt => Sys2Proof.Machine.execNandRead ctrl block page decodesAt s
  | .slcTargetRecompute ctrl => Sys2Proof.Machine.execSlcTargetRecompute ctrl s
  | .slcIdleMove ctrl => Sys2Proof.Machine.execSlcIdleMove ctrl s
  | .logBlockMerge ctrl log => Sys2Proof.Machine.execLogBlockMerge ctrl log s
  | .mapDeltaProgram ctrl => Sys2Proof.Machine.execMapDeltaProgram ctrl s
  | .recordBlockClean block => Sys2Proof.Machine.execRecordBlockClean block s
  | .stkFormat c logPerGroup confirm => Sys2Proof.Machine.execStkFormat c logPerGroup confirm s
  | .formatDone factoryBad => Sys2Proof.Machine.execFormatDone factoryBad s
  | .powerFail heldNs => Sys2Proof.Machine.execPowerFail heldNs s
  | .flushDone committed => Sys2Proof.Machine.execFlushDone committed s
  | .linkTraining port sub t => Sys2Proof.Machine.execLinkTraining port sub t s
  | .trainingTimeout port sub => Sys2Proof.Machine.execTrainingTimeout port sub s
  | .dataFlit port sub flit flagged => Sys2Proof.Machine.execDataFlit port sub flit flagged s
  | .nak port sub flit flagged => Sys2Proof.Machine.execNak port sub flit flagged s
  | .laneChg port sub flit => Sys2Proof.Machine.execLaneChg port sub flit s
  | .idle port sub flit => Sys2Proof.Machine.execIdle port sub flit s
  | .replayTimeout port sub => Sys2Proof.Machine.execReplayTimeout port sub s
  | .ackTimer port sub => Sys2Proof.Machine.execAckTimer port sub s
  | .creditStall port sub vc => Sys2Proof.Machine.execCreditStall port sub vc s
  | .creditStallRetrain port sub vc => Sys2Proof.Machine.execCreditStallRetrain port sub vc s
  | .retrain c port sub => Sys2Proof.Machine.execRetrain c port sub s
  | .portReset c port sub => Sys2Proof.Machine.execPortReset c port sub s
  | .portDown c port sub => Sys2Proof.Machine.execPortDown c port sub s
  | .unreachable => Sys2Proof.Machine.execUnreachable s
  | .claim c domain slot => Sys2Proof.Machine.execClaim c domain slot s
  | .call src domain uid => Sys2Proof.Machine.execCall src domain uid s
  | .here src domain slot uid => Sys2Proof.Machine.execHere src domain slot uid s
  | .enumCollectTimeout => Sys2Proof.Machine.execEnumCollectTimeout s
  | .assign src uid node => Sys2Proof.Machine.execAssign src uid node s
  | .assignRetry uid => Sys2Proof.Machine.execAssignRetry uid s
  | .lostCall => Sys2Proof.Machine.execLostCall s
  | .roster src entries => Sys2Proof.Machine.execRoster src entries s
  | .rosterOk src => Sys2Proof.Machine.execRosterOk src s
  | .rosterNo src => Sys2Proof.Machine.execRosterNo src s
  | .beatTimer => Sys2Proof.Machine.execBeatTimer s
  | .beat src h => Sys2Proof.Machine.execBeat src h s
  | .reply src h => Sys2Proof.Machine.execReply src h s
  | .peerSuspect node => Sys2Proof.Machine.execPeerSuspect node s
  | .probe src h => Sys2Proof.Machine.execProbe src h s
  | .peerLost node => Sys2Proof.Machine.execPeerLost node s
  | .heartbeatTakeover src h => Sys2Proof.Machine.execHeartbeatTakeover src h s
  | .memberRemove c member => Sys2Proof.Machine.execMemberRemove c member s
  | .recordWrite readBackOk => Sys2Proof.Machine.execRecordWrite readBackOk s
  | .ringCompaction => Sys2Proof.Machine.execRingCompaction s
  | .flashTimeout => Sys2Proof.Machine.execFlashTimeout s
  | .logClear c => Sys2Proof.Machine.execLogClear c s
  | .clearEraseDone => Sys2Proof.Machine.execClearEraseDone s
  | .monitorWindow domain count => Sys2Proof.Machine.execMonitorWindow domain count s
  | .ringCheck count => Sys2Proof.Machine.execRingCheck count s
  | .clkOutCfgWrite c data => Sys2Proof.Machine.execClkOutCfgWrite c data s
  | .pwrCmd c state => Sys2Proof.Machine.execPwrCmd c state s
  | .powerTransitionDone => Sys2Proof.Machine.execPowerTransitionDone s
  | .pwrCapWrite c data => Sys2Proof.Machine.execPwrCapWrite c data s
  | .capLoopStep => Sys2Proof.Machine.execCapLoopStep s
  | .meterSample milliVolt milliAmp => Sys2Proof.Machine.execMeterSample milliVolt milliAmp s
  | .thermalSample halfDegrees => Sys2Proof.Machine.execThermalSample halfDegrees s
  | .avsAdjust senseMv => Sys2Proof.Machine.execAvsAdjust senseMv s
  | .avsTimeout => Sys2Proof.Machine.execAvsTimeout s
  | .porst heldNs => Sys2Proof.Machine.execPorst heldNs s
  | .supplyMonitorTrip vinMv heldNs => Sys2Proof.Machine.execSupplyMonitorTrip vinMv heldNs s
  | .wrst heldNs => Sys2Proof.Machine.execWrst heldNs s
  | .warm c => Sys2Proof.Machine.execWarm c s
  | .job c => Sys2Proof.Machine.execJob c s
  | .firmwareLoad c imageLen => Sys2Proof.Machine.execFirmwareLoad c imageLen s
  | .firmwareProgramDone readsBack => Sys2Proof.Machine.execFirmwareProgramDone readsBack s
  | .hoursTick => Sys2Proof.Machine.execHoursTick s
  | .entdaa address => Sys2Proof.Machine.execEntdaa address s
  | .i3cPrivateWrite bytes => Sys2Proof.Machine.execI3cPrivateWrite bytes s
  | .i3cPrivateRead len => Sys2Proof.Machine.execI3cPrivateRead len s
  | .i3cTimeout => Sys2Proof.Machine.execI3cTimeout s
  | .tapInstruction op => Sys2Proof.Machine.execTapInstruction op s
  | .integratedVoltageRegulatorFault bench => Sys2Proof.Machine.execIntegratedVoltageRegulatorFault bench s
  | .logClearTimeout => Sys2Proof.Machine.execLogClearTimeout s

end Sys2Proof.Machine
end

