-- ==== Sys2Proof/Machine/Tick.lean ====
section
/-! DEFINITION. What happens on an empty queue: a nanosecond of device time, and the work that no command names
(log 3). -/

namespace Sys2Proof.Machine

/-- The link puts what waits on its lanes: lane changes end, and transactions leave as flits (R427, R430, R442). -/
def linkTick (s : State) : State := pumpLink (laneChanges s)

/-- One nanosecond of device time: the link moves what waits, and Foreman may end a step of a plan load (R69). -/
def tick (s : State) : State :=
  let s := linkTick { s with now := s.now + 1 }
  if serving s && Config.foremanReady s.now then loadStep s else s

end Sys2Proof.Machine
end

