-- ==== Sys2Proof/WellFormed.lean ====
section
/-! DEFINITION. Which commands the spec's operands admit: numbers of Benches, ports, sub-ports, channels, units and
collections in their ranges, descriptors of 128 bytes (R107), flits of 256 bytes (R430), records of 64 bytes (R238),
samples of the sensors and lands the spec counts. -/

namespace Sys2Proof

/-- Twelve ports of four sub-ports (R424, R425). -/
def subPortOk (port sub : Nat) : Bool := decide (port < 12) && decide (sub < 4)

/-- A work descriptor is 128 bytes (R107). -/
def descOk (d : List Byte) : Bool := d.length == 128

/-- A flit is 256 bytes (R430). -/
def flitOk (f : List Byte) : Bool := f.length == 256

/-- A stage id is 0 to 63 (R48). -/
def stageOk (n : Nat) : Bool := decide (n < 64)

/-- A HBM stack, or a DDR5 channel (R369, R370), and a word of it. -/
def wordOk (tier unit off : Nat) : Bool :=
  off % 4 == 0 && ((tier == 0 && decide (unit < 12)) || (tier == 1 && decide (unit < 16)))

def upsetsOk (us : List Upset) : Bool := us.all fun u => wordOk u.tier u.unit u.off && decide (u.repair < 3)

/-- What a board gives: three samples of the straps, four key slots, sixteen channels (R544, R545, R519, R370). -/
def boardOk (b : Board) : Bool :=
  b.straps.length == 3 && b.keySlots.length == 4 && b.modules.length == 16 && b.nand.targets.length == 32 &&
  b.unlocked.all (· < 256) && b.stacksFailed.all (· < 12) && b.flash.all (fun c => decide (c.1 < 0x4000000))

/-- The checks of one command. -/
def wellFormed : Instr → Bool
  | .swapInstall b | .issueBoundary b | .integratedVoltageRegulatorFault b => decide (b < 96)
  | .tileComplete b l _ => decide (b < 96) && decide (l < 8)
  | .stepStart n | .stepEnd n | .stepWatchdog n | .queueSlotFree n => stageOk n
  | .submit _ _ d _ => descOk d
  | .workFwd _ _ d _ | .rerankFwd _ _ d _ _ | .prompt _ _ d _ _ => descOk d
  | .streamRec _ r => r.length == 64
  | .mirrorEntry _ _ e => decide (e.kind < 256)
  | .kvBlock _ h off _ => decide (h.layer < 65536) && off % 65536 == 0
  | .pendingDrain c | .foldStart c | .foldUnitCommit c | .foldPublish c | .versionRetire c | .compactionDone c
  | .checkpointCommit c | .collectionRestore c => decide (c < 65536)
  | .pageMoveStart e => decide (e < 2)
  | .memRd _ _ _ _ us => upsetsOk us
  | .scrub t u o us => wordOk t u o && upsetsOk us
  | .boot b => boardOk b
  | .bufferProgram c _ | .slcTargetRecompute c | .slcIdleMove c | .logBlockMerge c _ | .mapDeltaProgram c
  | .programDone c _ _ | .eraseDone c _ _ | .nandRead c _ _ _ => decide (c < 2)
  | .flushDone cs => cs.length == 2
  | .linkTraining p i t => subPortOk p i && t.buffers.length == 4 && decide (t.farKind < 4)
  | .trainingTimeout p i | .replayTimeout p i | .ackTimer p i => subPortOk p i
  | .dataFlit p i f _ | .nak p i f _ => subPortOk p i && flitOk f
  | .laneChg p i f | .idle p i f => subPortOk p i && flitOk f
  | .creditStall p i v | .creditStallRetrain p i v => subPortOk p i && decide (v < 4)
  | .monitorWindow d n => decide (d < 256) && decide (n < 65536)
  | .ringCheck n => decide (n < 65536)
  | .thermalSample ts => ts.length == 18 && ts.all (· < 1024)
  | .i3cPrivateWrite .. | .i3cPrivateRead .. => true
  | .planLoad .. | .loadTimeout | .swap .. | .swapTimeout | .setRetirement | .domainSwap .. | .prepare .. | .prepared ..
  | .domainSwapTimeout | .commit .. | .abort .. | .preparedWait | .preparedRelease | .jobOpen .. | .endDrain ..
  | .endAbort .. | .jobClose | .forceFault .. | .cancelTicket .. | .cancelTag .. | .cancelFwd .. | .softPass ..
  | .hardPass .. | .cont .. | .submissionTimeout .. | .mirrorAck .. | .mirrorAckTimeout .. | .completionPost ..
  | .cqStalled | .releaseTicket .. | .streamReset .. | .fetch .. | .cqCtrlWrite .. | .srCtrlWrite ..
  | .alertCtrlWrite .. | .registerWrite .. | .rcRead .. | .logReadData .. | .mread .. | .answer .. | .tokenize ..
  | .pack .. | .cacheOpen .. | .opened .. | .noRoom .. | .cacheOpenRetry .. | .kvAck .. | .kvResendTimeout ..
  | .kvLost .. | .cacheDrop .. | .prefillDone .. | .cacheIdleTimeout .. | .gthOpen .. | .gthClone .. | .gthAbandon ..
  | .gthSelect .. | .buildDone .. | .tableSwitch .. | .publishPrep .. | .ready .. | .publishTimeout ..
  | .publishCommit .. | .retire .. | .regionFree .. | .gatherReq .. | .gatherAns .. | .insertAppend ..
  | .deleteAppend .. | .pageSwitch .. | .haulAbort .. | .memWr .. | .recordBlockClean .. | .stkFormat ..
  | .formatDone .. | .powerFail .. | .retrain .. | .portReset .. | .portDown .. | .unreachable | .claim .. | .call ..
  | .here .. | .enumCollectTimeout | .assign .. | .assignRetry .. | .lostCall | .roster .. | .rosterOk .. | .rosterNo ..
  | .beatTimer | .beat .. | .reply .. | .peerSuspect .. | .probe .. | .peerLost .. | .heartbeatTakeover ..
  | .memberRemove .. | .recordWrite .. | .ringCompaction | .flashTimeout | .logClear .. | .clearEraseDone
  | .clkOutCfgWrite .. | .pwrCmd .. | .powerTransitionDone | .pwrCapWrite .. | .capLoopStep | .meterSample ..
  | .avsAdjust .. | .avsTimeout | .porst .. | .supplyMonitorTrip .. | .wrst .. | .warm .. | .job .. | .firmwareLoad ..
  | .firmwareProgramDone .. | .hoursTick | .entdaa .. | .i3cTimeout | .tapInstruction .. | .logClearTimeout => true

end Sys2Proof
end

