-- ==== Sys2Proof/Safety.lean ====
section
/-! DEFINITION. What counts as a safe run, and the terms in which claims speak of states and of what a command leaves. -/

namespace Sys2Proof.Machine

/-- The outcome is a next state. -/
def Answers (o : Host.Outcome State Fault Refusal) : Prop := ∃ t, o = .next t

/-- `exec` of the command has a next state here. -/
def Completes (i : Instr) (s : State) : Prop := ∃ t, exec i s = .next t

/-- The next step has a next state. -/
def SafeStep (s : State) : Prop := ∃ t, step s = .next t

/-- The device runs, and the next stamp crosses no limit of R135. -/
abbrev Runs (s : State) : Prop := serving s = true ∧ s.wb.seq.toNat < 0xFFF000000000

/-- The device runs and grants the management access `c`: its source may manage it (R447), and it repeats none (R448). -/
abbrev Granted (c : Cmd) (s : State) : Prop :=
  serving s = true ∧ mayManage s c.src = true ∧ recordedAnswer s c = none ∧ s.wb.seq.toNat < 0xFFF000000000

/-- A ticket is stamped. -/
def ticked (s : State) : State := { s with wb.seq := s.wb.seq + 1 }

/-- A write is answered M_OK and stamped: the answer is kept and sent. -/
def taken (c : Cmd) (offset data : W64) (s : State) : State := ticked (answerMgmt c (.mresp offset data 0) s)

/-- Every command that waits is well formed, and memory is in canonical form. -/
def Sound (s : State) : Prop := (∀ i ∈ s.pending, wellFormed i = true) ∧ Memory.wf s

end Sys2Proof.Machine
end

