-- ==== Sys2Proof/Certificates/Slice0/Obligations.lean ====
section
/-! DEFINITION. The statements for the provers. -/

open Sys2Proof Sys2Proof.Machine

/-- Where a command stands at the front of the queue, a step is exec of that command on the state whose queue is the rest. [02
R36] -/
def Obligations.QueueFrontRuns : Prop :=
  ∀ (c : Instr) (rest : List Instr) (s : State), s.pending = c :: rest → step s = exec c { s with pending := rest }

/-- With no command waiting, a step ticks: the clock of the device advances by one nanosecond, the link moves what waits, and
where the device serves and Foreman is ready a plan load in progress ends its step. That time passes on an empty queue is
the model's own choice (log 3). [03 R69, 17 R442] -/
def Obligations.IdleStepTicks : Prop :=
  ∀ s : State, s.pending = [] →
    step s = .next (if serving (linkTick { s with now := s.now + 1 }) && Config.foremanReady (linkTick { s with now := s.now + 1 }).now
      then loadStep (linkTick { s with now := s.now + 1 }) else linkTick { s with now := s.now + 1 })

/-- Every command other than a supply-monitor trip above 2,050 mV has a next state in every state; such a trip faults by name,
because above its absolute maximum the device is not specified. [21 R581] -/
def Obligations.EveryCommandAnswers : Prop :=
  (∀ (i : Instr) (s : State), (∀ v h, i = .supplyMonitorTrip v h → v ≤ 2050) → ∃ t, exec i s = .next t) ∧
  ∀ (v h : Nat) (s : State), 2050 < v → exec (.supplyMonitorTrip v h) s = .fault .aboveAbsoluteMaximum

/-- For every command and every state whose memories are in canonical form: where exec answers a next state, the commands that
wait there are those that waited before, and the four memories (HBM and DDR5, the configuration flash, the accumulator
files, the Bench stores) are still in canonical form. [15 R375, 19 R502] -/
def Obligations.ExecKeepsQueueAndMemory : Prop :=
  ∀ (i : Instr) (s t : State), Memory.wf s → exec i s = .next t → t.pending = s.pending ∧ Memory.wf t

/-- From every state, reached or not, whose waiting commands are well formed and whose memories are in canonical form, a step
that answers a next state leaves both so, whether it ran a command or ticked on an empty queue. [02 R36, 15 R375, 19 R502] -/
def Obligations.StepKeepsSound : Prop :=
  ∀ s t : State, Sound s → step s = .next t → Sound t

/-- At reset no command waits and the memories list nothing, so the invariant holds there. [15 R375, 20 R544] -/
def Obligations.ResetSound : Prop :=
  Sound State.reset

/-- Where the device runs and grants the access, an MREAD of CFG_CAP0 answers 0x7FFFFFFF and one of CFG_CAP1 to CFG_CAP3
answers zero, changing nothing but the recorded answer; a REGISTER_WRITE of one of them is answered and stamped and
changes nothing else, so that a later read gives the same value. [R567] -/
def Obligations.CapabilityRegisters : Prop :=
  ∀ (c : Cmd) (s : State), Granted c s →
    exec (.mread c 0) s = .next (answerMgmt c (.mresp 0 0x7FFFFFFF 0) s) ∧
    (∀ o ∈ [8, 0x10, 0x18], exec (.mread c o) s = .next (answerMgmt c (.mresp o 0 0) s)) ∧
    ∀ o ∈ [0, 8, 0x10, 0x18], ∀ d, exec (.registerWrite c o d) s = .next (taken c o d s)

/-- Where the device runs and grants the access, an RC_READ of DLM_COUNTS answers a value whose four fields are soft_passed,
hard_passed, cancel_miss and intake_full, and leaves the four counts zero and all else as the answer leaves it. An
RC_READ, MREAD or REGISTER_WRITE whose source and transaction id are recorded is answered with the recorded answer, is not
executed again, and mgmt_dup rises. [R130, R448, R564] -/
def Obligations.CountsAreReadAndCleared : Prop :=
  (∀ (c : Cmd) (s : State), Granted c s →
    ∃ v : W64, v.extractLsb' 0 16 = s.dlm.softPassed ∧ v.extractLsb' 16 16 = s.dlm.hardPassed ∧
      v.extractLsb' 32 16 = s.dlm.cancelMiss ∧ v.extractLsb' 48 16 = s.dlm.intakeFull ∧
      exec (.rcRead c 0x40000) s = .next (answerMgmt c (.mresp 0x40000 v 0) { s with dlm := ⟨0, 0, 0, 0⟩ })) ∧
  ∀ (c : Cmd) (o d : W64) (a : Txn) (s : State), serving s = true → regBits o 16 8 < 0x15 → recordedAnswer s c = some a →
    exec (.rcRead c o) s = .next (send c.src c.txn 0 a.msg { s with lnk.mgmtDup := satInc s.lnk.mgmtDup }) ∧
    exec (.mread c o) s = .next (send c.src c.txn 0 a.msg { s with lnk.mgmtDup := satInc s.lnk.mgmtDup }) ∧
    (claimElsewhere o d s = false →
      exec (.registerWrite c o d) s = .next (send c.src c.txn 0 a.msg { s with lnk.mgmtDup := satInc s.lnk.mgmtDup }))

/-- Where the device runs and grants the access, LOG_READ_DATA answers the eight bytes of the recorder area from the address
that the reading source's own bank of LOG_READ_ADDR holds, little-endian, and sets that bank to the address plus eight,
wrapping at 8 MiB; nothing else changes but the recorded answer. A REGISTER_WRITE of LOG_READ_ADDR, DOM_MEMBER_SELECT
(where the device keeps members) or LNK_SUB_SELECT sets the writing source's bank to the assigned bits written. [R521,
R563] -/
def Obligations.LogReadsAdvance : Prop :=
  (∀ (c : Cmd) (s : State), Granted c s →
    exec (.logReadData c) s =
      .next (answerMgmt c (.mresp rLogData (logReadData s (bankGet s rLogAddr c.src).toNat) 0)
        (bankSet rLogAddr c.src (BitVec.ofNat 64 (((bankGet s rLogAddr c.src).toNat + 8) % 0x800000)) s))) ∧
  ∀ (c : Cmd) (d : W64) (s : State), Granted c s →
    exec (.registerWrite c 0x60010 d) s = .next (bankSet rLogAddr c.src (d &&& 0x7FFFF8) (taken c 0x60010 d s)) ∧
    exec (.registerWrite c 0xB0088 d) s = .next (bankSet rSubSelect c.src (d &&& 0x3F) (taken c 0xB0088 d s)) ∧
    (keepsMembers s = true →
      exec (.registerWrite c 0xA0048 d) s = .next (bankSet rMemberSelect c.src (d &&& 0x3FF) (taken c 0xA0048 d s)))

/-- Where the device runs and no answer to the request is recorded: an access from a source that is neither a host adapter nor
the domain's manager or mirror is answered M_DENIED and mgmt_denied rises; one of a granted source whose offset is not
aligned is answered M_ALIGN; one of a page that no block uses is answered M_NO_PAGE. None has any other effect. This holds
for every read and for every write of a command register: the writes of the plan, job, cancellation, ring, table,
Stockpile, port, power, clock, reset and log registers go through the same operation. [R447, R566, R12] -/
def Obligations.ManagementRefusals : Prop :=
  ∀ (c : Cmd) (o d : W64) (s : State), serving s = true → recordedAnswer s c = none →
    (regBits o 16 8 < 0x15 → mayManage s c.src = false →
      exec (.mread c o) s = .next (answerMgmt c (.mresp o 0 2) { s with lnk.mgmtDenied := satInc s.lnk.mgmtDenied }) ∧
      exec (.rcRead c o) s = .next (answerMgmt c (.mresp o 0 2) { s with lnk.mgmtDenied := satInc s.lnk.mgmtDenied }) ∧
      (claimElsewhere o d s = false → exec (.registerWrite c o d) s =
        .next (answerMgmt c (.mresp o 0 2) { s with lnk.mgmtDenied := satInc s.lnk.mgmtDenied }))) ∧
    (regBits o 16 8 < 0x15 → mayManage s c.src = true → aligned o = false →
      exec (.mread c o) s = .next (answerMgmt c (.mresp o 0 3) s) ∧
      (claimElsewhere o d s = false → exec (.registerWrite c o d) s = .next (answerMgmt c (.mresp o 0 3) s))) ∧
    (0x15 ≤ regBits o 16 8 → exec (.mread c o) s = .next (answerMgmt c (.mresp o 0 1) s)) ∧
    (mayManage s c.src = false →
      exec (.pwrCmd c 1) s =
        .next (answerMgmt c (.mresp rPwrCmd 0 2) { s with lnk.mgmtDenied := satInc s.lnk.mgmtDenied }) ∧
      exec (.jobOpen c 1) s =
        .next (answerMgmt c (.mresp rJobCmd 0 2) { s with lnk.mgmtDenied := satInc s.lnk.mgmtDenied }))

/-- PLAN_LOAD on a device that runs and grants it, with no load, no firmware load and no prepared swap in progress, no shadow
set, and a staged header that reads back and passes the format check: the write is answered and stamped, the load results
are cleared, and a load that began now, with the length written, stands at step 3. While one of the three is in progress
the only effect beside the answer is the code CFG_BUSY. LOAD_TIMEOUT 250 ms after the write abandons the load with
CFG_LOAD_TIMEOUT, the step it had reached in the detail, and leaves the shadow set empty. [R69, R70, R74, R94] -/
def Obligations.PlanLoadBegins : Prop :=
  (∀ (c : Cmd) (n : W32) (head : List Byte) (s : State), Granted c s → s.cfg.load = none → s.rst.fwLoad = none →
    s.cfg.prepared = none → s.cfg.shadow = none → stagingRead s (min n.toNat 256) = .ok head →
    lowest (checkFormat head n.toNat) = none →
    exec (.planLoad c n) s = .next { taken c rCfgLoad (hi32 n ||| 1) s with
      cfg := { s.cfg with load := some ⟨s.now, n.toNat, 3, [], [], false⟩, loadCode := 0, loadDetail := 0, rejectOffset := 0 } }) ∧
  (∀ (c : Cmd) (n : W32) (s : State), Granted c s →
    (s.cfg.load.isSome ∨ s.rst.fwLoad.isSome ∨ s.cfg.prepared.isSome) →
    exec (.planLoad c n) s = .next { taken c rCfgLoad (hi32 n ||| 1) s with cfg := { s.cfg with loadCode := 1 } }) ∧
  ∀ (l : Load) (s : State), serving s = true → s.cfg.load = some l → past s l.began 250000000 = true →
    exec .loadTimeout s = .next { s with
      cfg := { s.cfg with load := none, shadow := none, loadCode := 0x0E, loadDetail := BitVec.ofNat 16 l.step, rejectOffset := 0 } }

/-- SWAP on a device that runs and grants it, with no domain swap and no prepared swap, whose checks pass, with a job open and
a shadow that reserves Benches: the write is answered and stamped and the swap stands in progress from now, at the write's
ticket, with the migration points named and no Bench installed. SWAP_INSTALL of a reserved Bench that no running step
issues to, where another reserved Bench has not installed, adds that Bench and changes nothing else. SWAP_TIMEOUT 5 ms
after the swap ticket abandons the swap with CFG_SWAP_TIMEOUT, and requests held for the new epoch run under the active
one. [R82, R83, R91] -/
def Obligations.SwapWaitsForItsBenches : Prop :=
  (∀ (c : Cmd) (first count : Byte) (b : PlanSet) (s : State), Granted c s → s.cfg.prepared = none → s.cfg.domSwap = none →
    swapCheck s first.toNat count.toNat = none → s.cfg.shadow = some b → s.job.phase ≠ 0 → reservedBenches b ≠ [] →
    exec (.swap c first count) s = .next { taken c rCfgSwap (swapData false first count) s with
      cfg := { s.cfg with swapCode := 0, swapDetail := 0,
                          swap := some ⟨ticketNext s, s.now, first.toNat, count.toNat, [], none⟩ } }) ∧
  (∀ (bench : Nat) (w : Swap) (b : PlanSet) (s : State), serving s = true → s.cfg.swap = some w → s.cfg.shadow = some b →
    bench ∈ reservedBenches b → bench ∉ w.installed → bench ∉ busyBenches s →
    (∃ x ∈ reservedBenches b, x ∉ w.installed ++ [bench]) →
    exec (.swapInstall bench) s = .next { s with cfg := { s.cfg with swap := some { w with installed := w.installed ++ [bench] } } }) ∧
  ∀ (w : Swap) (s : State), serving s = true → s.cfg.swap = some w → past s w.began 5000000 = true →
    (w.point = none ∨ isManager s = true) → s.job.reqs = [] →
    exec .swapTimeout s = .next { s with cfg := { s.cfg with swap := none, swapCode := 0x18, swapDetail := 0 } }

/-- SWAP on a device that runs and grants it, whose checks pass, with no job open, no set active, no request and no migration
named: the write is answered and stamped, and at the boundary, stamped next, the shadow is the active set under the epoch
that follows, the shadow is empty, there is no retiring set, the swap ticket is the boundary's, and the code is
CFG_SWAPPED. SET_RETIREMENT where no request and no step of the retiring epoch is left frees the retiring set's objects,
empties it and records the retirement at a ticket. [R82, R86, R92] -/
def Obligations.SwapBoundaryInstallsTheShadow : Prop :=
  (∀ (c : Cmd) (first count : Byte) (b : PlanSet) (s : State), Granted c s → s.wb.seq.toNat + 1 < 0xFFF000000000 →
    s.cfg.prepared = none → s.cfg.domSwap = none → swapCheck s first.toNat count.toNat = none → s.cfg.shadow = some b →
    s.job.phase = 0 → s.cfg.active = none → s.job.reqs = [] → namedMoves b.plan first.toNat count.toNat = [] →
    exec (.swap c first count) s = .next { ticked (taken c rCfgSwap (swapData false first count) s) with
      cfg := { s.cfg with active := some { b with epoch := (s.cfg.setEpoch.toNat + 1) % 65536 }, shadow := none, swap := none,
                          setEpoch := BitVec.ofNat 16 ((s.cfg.setEpoch.toNat + 1) % 65536), swapCode := 0x10, swapDetail := 0,
                          swapTicket := ticketNext (ticked s) },
      haul := { s.haul with points := [] } }) ∧
  ∀ (p : PlanSet) (s : State), Runs s → s.cfg.retiring = some p → epochBusy s p.epoch = false →
    exec .setRetirement s = .next (event (ticketNext s) 0x61 devLoc p.epoch 1 0 0 []
      (ticked { freeObjects p.serial s with cfg := { s.cfg with retiring := none } }))

/-- DOMAIN_SWAP on a manager that runs and grants it, with no domain swap in progress, checks passed and members present:
beside the answer, PREPARE with the next epoch goes to every member present and the domain swap stands open. On a device
that is not a manager the swap is refused with CFG_NOT_MANAGER. PREPARED from a member that is asked and has not answered,
where another has not answered, is kept and does nothing else. DOMAIN_SWAP_TIMEOUT 20 ms after the prepares aborts the
swap, each silent member named with CFG_SWAP_TIMEOUT. [R94, R95, R91] -/
def Obligations.DomainSwapCollectsAnswers : Prop :=
  (∀ (c : Cmd) (first count : Byte) (s : State), Granted c s → isManager s = true → s.cfg.domSwap = none →
    swapCheck s first.toNat count.toNat = none → membersPresent s ≠ [] →
    exec (.domainSwap c first count) s =
      .next (sendEach ((membersPresent s).map (·.node)) 0 (.prepare ((s.cfg.setEpoch.toNat + 1) % 65536))
        { taken c rCfgSwap (swapData true first count) s with
          cfg := { s.cfg with
            swapCode := 0, swapDetail := 0,
            domSwap := some ⟨ticketNext s, (s.cfg.setEpoch.toNat + 1) % 65536, s.now, first.toNat, count.toNat,
              (membersPresent s).map (·.node), [], none⟩ } })) ∧
  (∀ (c : Cmd) (first count : Byte) (s : State), Granted c s → isManager s = false →
    exec (.domainSwap c first count) s =
      .next { taken c rCfgSwap (swapData true first count) s with cfg := { s.cfg with swapCode := 0x19, swapDetail := 0 } }) ∧
  (∀ (src other : Node) (code : Byte) (detail : W16) (slices : List Slice) (d : DomSwap) (s : State), Runs s →
    s.cfg.domSwap = some d → src ∈ d.members → answered d src = false → d.point = none → other ∈ d.members → other ≠ src →
    answered d other = false →
    exec (.prepared src code detail slices) s = .next { ticked s with
      cfg := { s.cfg with domSwap := some { d with answers := d.answers ++ [(src, code.toNat, detail.toNat, slices)] } } }) ∧
  ∀ (d : DomSwap) (s : State), serving s = true → s.cfg.domSwap = some d → past s d.since 20000000 = true → d.point = none →
    exec .domainSwapTimeout s = .next (domAbort d
      ((d.members.filter fun n => !answered d n).map (fun n => (n, 0x18, 0)) ++
        (d.answers.filter fun a => a.2.1 != 0x16).map fun a => (a.1, a.2.1, a.2.2.1)) s)

/-- PREPARE on a device that runs, has nothing prepared and whose swap checks pass is answered PREPARED with code CFG_PREPARED
and the device's slices, and the epoch stands prepared from now; with something prepared it is answered CFG_BUSY. ABORT of
the prepared epoch ends the preparation, and of another epoch does nothing. PREPARED_WAIT after 100 ms records the wait
once; PREPARED_RELEASE after one second ends the preparation, keeps its epoch as the late one, and records that. [R94,
R95, R98] -/
def Obligations.MemberPreparesAndWaits : Prop :=
  (∀ (src : Node) (e : W16) (s : State), Runs s → s.cfg.prepared = none → swapCheck s 0 0 = none →
    exec (.prepare src e) s = .next (send src 0 (ticketNext s) (.prepared 0x16 0 (mySlices s)) { ticked s with
      cfg := { s.cfg with prepared := some ⟨e.toNat, s.now, false⟩, swapCode := 0x16 } })) ∧
  (∀ (src : Node) (e : W16) (s : State), Runs s → s.cfg.prepared.isSome →
    exec (.prepare src e) s = .next (send src 0 0 (.prepared 0x12 0 (mySlices s)) (ticked s))) ∧
  (∀ (src : Node) (e : W16) (p : PreparedSwap) (s : State), Runs s → s.cfg.prepared = some p →
    exec (.abort src e) s = .next (if p.epoch = e.toNat then { ticked s with cfg := { s.cfg with prepared := none } } else ticked s)) ∧
  (∀ (p : PreparedSwap) (s : State), Runs s → s.cfg.prepared = some p → past s p.since 100000000 = true → p.waited = false →
    exec .preparedWait s = .next (event (ticketNext s) 0x55 devLoc 0 1 0 0 []
      (ticked { s with cfg := { s.cfg with prepared := some { p with waited := true } } }))) ∧
  ∀ (p : PreparedSwap) (s : State), Runs s → s.cfg.prepared = some p → past s p.since 1000000000 = true →
    exec .preparedRelease s = .next (event (ticketNext s) 0x55 devLoc 1 1 0 0 []
      (ticked { s with cfg := { s.cfg with prepared := none, lateEpoch := some p.epoch } }))

/-- COMMIT of the epoch that a device has prepared, with a job open and a shadow that reserves Benches, ends the preparation
and puts the swap in progress at the manager's swap point; COMMIT where nothing is prepared and the epoch is not the late
one does nothing but take its ticket. [R94, R96, R98] -/
def Obligations.CommitSwapsAMember : Prop :=
  (∀ (src : Node) (e : W16) (point : Ticket) (p : PreparedSwap) (b : PlanSet) (s : State), Runs s → s.cfg.prepared = some p →
    p.epoch = e.toNat → s.cfg.shadow = some b → s.job.phase ≠ 0 → reservedBenches b ≠ [] →
    exec (.commit src e point) s = .next { ticked s with
      cfg := { s.cfg with prepared := none, swapCode := 0, swapDetail := 0, swap := some ⟨point, s.now, 0, 0, [], some point⟩ } }) ∧
  ∀ (src : Node) (e : W16) (point : Ticket) (s : State), Runs s → s.cfg.prepared = none → s.cfg.lateEpoch ≠ some e.toNat →
    exec (.commit src e point) s = .next (ticked s)

/-- JOB_OPEN on a device that runs and grants it, below PS2, with no job, an active set and an empty journal: beside the
answer and the stamp the job is open under the id written, the code is JOB_DONE, and a manager opens it on each member
whose image matches. With no active set it only reports JOB_NO_PLAN, and with a job open JOB_ALREADY_OPEN. END_DRAIN of an
open job puts it in CLOSING and reports JOB_DONE, a manager passing it on; with no job it only reports JOB_NONE_OPEN.
JOB_CLOSE of a closing job with no request in flight discards the sets and leaves no job; with a request in flight it does
nothing. [R100, R103, R126, R127] -/
def Obligations.JobOpensAndEnds : Prop :=
  (∀ (c : Cmd) (id : W32) (p : PlanSet) (s : State), Granted c s → s.pwr.state < 2 → s.job.phase = 0 → s.cfg.active = some p →
    s.wb.journal = [] →
    exec (.jobOpen c id) s = .next ((if isManager s then openable s else []).foldl (fun s m => openMember id m s)
      { taken c rJobCmd (hi32 id ||| 1) s with job := { s.job with phase := 1, aborting := false, cmdCode := 0, jobId := id } })) ∧
  (∀ (c : Cmd) (id : W32) (s : State), Granted c s → s.pwr.state < 2 →
    (s.job.phase = 0 → s.cfg.active = none →
      exec (.jobOpen c id) s = .next { taken c rJobCmd (hi32 id ||| 1) s with job := { s.job with cmdCode := 1 } }) ∧
    (s.job.phase ≠ 0 →
      exec (.jobOpen c id) s = .next { taken c rJobCmd (hi32 id ||| 1) s with job := { s.job with cmdCode := 2 } })) ∧
  (∀ (c : Cmd) (s : State), Granted c s →
    (s.job.phase = 1 → exec (.endDrain c) s =
      .next (forwardEnd 2 { taken c rJobCmd 2 s with job := { s.job with phase := 2, aborting := false, cmdCode := 0 } })) ∧
    (s.job.phase = 0 → exec (.endDrain c) s = .next { taken c rJobCmd 2 s with job := { s.job with cmdCode := 3 } })) ∧
  ∀ s : State, serving s = true → s.job.phase = 2 →
    (s.job.reqs = [] → ∃ t, exec .jobClose s = .next t ∧ t.job.phase = 0 ∧ t.cfg.active = none ∧ t.cfg.retiring = none ∧
      t.cfg.shadow = s.cfg.shadow ∧ t.job.steps = [] ∧ t.dec.caches = [] ∧ t.out = s.out) ∧
    (s.job.reqs ≠ [] → exec .jobClose s = .next s)

/-- END_ABORT of an open job on a device that runs and grants it: the job is CLOSING, the code is JOB_DONE, and only requests
whose acceptance has not completed are left in flight. FORCE_FAULT of an open or closing job: the job is gone, the cause
is HOST_FAULT, the active and the retiring set are discarded, no step and no cache is left, and again only such requests
are left in flight. With no job open both only report JOB_NONE_OPEN. [R103, R123, R124, R126, R127] -/
def Obligations.AbortAndFaultEndRequests : Prop :=
  (∀ (c : Cmd) (s : State), Granted c s → s.job.phase = 1 →
    ∃ t, exec (.endAbort c) s = .next t ∧ t.job.phase = 2 ∧ t.job.aborting = true ∧ t.job.cmdCode = 0 ∧
      ∀ r ∈ t.job.reqs, ∃ pos src txn reject, r.place = .acceptance pos src txn reject) ∧
  (∀ (c : Cmd) (s : State), Granted c s → (s.job.phase = 1 ∨ s.job.phase = 2) →
    ∃ t, exec (.forceFault c) s = .next t ∧ t.job.phase = 0 ∧ t.job.faultCause = 5 ∧ t.job.cmdCode = 0 ∧
      t.cfg.active = none ∧ t.cfg.retiring = none ∧ t.job.steps = [] ∧ t.dec.caches = [] ∧
      ∀ r ∈ t.job.reqs, ∃ pos src txn reject, r.place = .acceptance pos src txn reject) ∧
  ∀ (c : Cmd) (s : State), Granted c s → s.job.phase = 0 →
    exec (.endAbort c) s = .next { taken c rJobCmd 3 s with job := { s.job with cmdCode := 3 } } ∧
    exec (.forceFault c) s = .next { taken c rJobCmd 4 s with job := { s.job with cmdCode := 3 } }

/-- CANCEL_TICKET and CANCEL_TAG, on a device that runs and grants them, of a request accepted here that is past acceptance,
is no DECODE, mutation, FOLD or TABLE_PUBLISH and is not ending already: the request leaves the requests in flight, and
one completion, of its ticket and tag with status CANCELLED and no result, joins the completions held back. The tag is
compared in bits 47 to 0. Where no request accepted here has the ticket or the tag, cancel_miss rises, saturating, and
nothing else happens beside the answer. [R120, R121, R129] -/
def Obligations.CancellationCompletesTheRequest : Prop :=
  (∀ (c : Cmd) (t : Ticket) (r : Req) (s : State), Granted c s →
    s.job.reqs.find? (fun q => q.boss.isNone && q.ticket == t) = some r →
    (∀ pos src txn reject, r.place ≠ .acceptance pos src txn reject) → r.desc.type ≤ 5 → r.ending = 0 → r.dec = none →
    ∃ u, exec (.cancelTicket c t) s = .next u ∧ findReq u r.ticket = none ∧
      ∃ k : Comp, u.wb.holdback = s.wb.holdback ++ [k] ∧ k.ticket = r.ticket ∧ k.tag = r.desc.tag ∧ k.status = 3 ∧ k.result = []) ∧
  (∀ (c : Cmd) (tag : BitVec 48) (r : Req) (s : State), Granted c s →
    s.job.reqs.find? (fun q => q.boss.isNone && q.desc.tag.extractLsb' 0 48 == tag) = some r →
    (∀ pos src txn reject, r.place ≠ .acceptance pos src txn reject) → r.desc.type ≤ 5 → r.ending = 0 → r.dec = none →
    ∃ u, exec (.cancelTag c tag) s = .next u ∧ findReq u r.ticket = none ∧
      ∃ k : Comp, u.wb.holdback = s.wb.holdback ++ [k] ∧ k.ticket = r.ticket ∧ k.tag = r.desc.tag ∧ k.status = 3 ∧ k.result = []) ∧
  (∀ (c : Cmd) (t : Ticket) (s : State), Granted c s → (∀ q ∈ s.job.reqs, q.boss = none → q.ticket ≠ t) →
    exec (.cancelTicket c t) s = .next { taken c rCancelTicket t s with dlm.cancelMiss := satInc s.dlm.cancelMiss }) ∧
  ∀ (c : Cmd) (tag : BitVec 48) (s : State), Granted c s →
    (∀ q ∈ s.job.reqs, q.boss = none → q.desc.tag.extractLsb' 0 48 ≠ tag) →
    exec (.cancelTag c tag) s = .next { taken c rCancelTag (tag.zeroExtend 64) s with dlm.cancelMiss := satInc s.dlm.cancelMiss }

/-- CANCEL_FWD on a device that runs, with one piece of work of its ticket for another device, which is no mutation and no
FOLD: the work leaves the requests in flight and an ANSWER of its ticket with status CANCELLED goes to that device. Where
no work, no unclaimed cache and no prepared publication has the ticket, cancel_miss rises and nothing else happens beside
the ticket; an unclaimed cache of the ticket is freed. [R121, R124, R35] -/
def Obligations.ForwardedCancellationAnswersTheManager : Prop :=
  (∀ (src n : Node) (t : Ticket) (r : Req) (s : State), Runs s →
    s.job.reqs.filter (fun q => q.boss.isSome && q.mgr == t) = [r] → r.boss = some n → isMutation r.desc.type = false →
    r.desc.type ≠ 9 →
    ∃ u, exec (.cancelFwd src t false) s = .next u ∧ findReq u r.ticket = none ∧
      ∃ a : Answer, (s.now, (⟨n, myNode s, 0, t, .answer a⟩ : Txn)) ∈ u.out ∧ a.ticket = t ∧ a.status = 3) ∧
  (∀ (src : Node) (t : Ticket) (x : Bool) (s : State), Runs s → s.job.reqs.filter (fun q => q.boss.isSome && q.mgr == t) = [] →
    (∀ k ∈ s.dec.caches, k.ticket = t → k.claimed ≠ none) →
    (∀ b ∈ s.gth.tables, b.prepared.map (·.1) ≠ some t) →
    exec (.cancelFwd src t x) s = .next { ticked s with dlm.cancelMiss := satInc s.dlm.cancelMiss }) ∧
  ∀ (src : Node) (t : Ticket) (x : Bool) (s : State), Runs s → s.job.reqs.filter (fun q => q.boss.isSome && q.mgr == t) = [] →
    (∃ k ∈ s.dec.caches, k.ticket = t ∧ k.claimed = none) →
    exec (.cancelFwd src t x) s =
      .next { ticked s with dec.caches := s.dec.caches.filter fun k => !(k.ticket == t && k.claimed.isNone) }

/-- SOFT_PASS of a request in flight whose soft budget has passed and is not marked: it takes a ticket, the request is marked
and soft_passed rises, and nothing else changes. HARD_PASS of a request accepted here, past acceptance and with no answers
to merge, no DECODE, mutation, FOLD or TABLE_PUBLISH, whose hard budget has passed: the request leaves the requests in
flight, hard_passed rises, and one completion of its ticket with status EXPIRED joins those held back. Before its budget
has passed, and for a ticket of no request, neither does anything. [R115, R118, R130] -/
def Obligations.DeadlinesAreStamped : Prop :=
  (∀ (t : Ticket) (r : Req) (s : State), Runs s → findReq s t = some r → r.softPassed = false → r.soft ≤ usSince s r.start →
    exec (.softPass t) s =
      .next (setReq { r with softPassed := true } { ticked s with dlm.softPassed := satInc s.dlm.softPassed })) ∧
  (∀ (t : Ticket) (r : Req) (s : State), Runs s → findReq s t = some r → r.hardPassed = false → r.hard ≤ usSince s r.start →
    r.boss = none → (∀ pos src txn reject, r.place ≠ .acceptance pos src txn reject) → (∀ b, r.place ≠ .answers b) →
    r.desc.type ≤ 5 → r.heldForReplica = false → r.dec = none →
    ∃ u, exec (.hardPass t) s = .next u ∧ findReq u t = none ∧ u.dlm.hardPassed = satInc s.dlm.hardPassed ∧
      ∃ k : Comp, u.wb.holdback = s.wb.holdback ++ [k] ∧ k.ticket = t ∧ k.tag = r.desc.tag ∧ k.status = 2) ∧
  ∀ (t : Ticket) (s : State), serving s = true → (∀ r, findReq s t = some r → usSince s r.start < r.soft ∧ usSince s r.start < r.hard) →
    exec (.softPass t) s = .next s ∧ exec (.hardPass t) s = .next s

/-- STEP_START of a stage that no step runs, on a device that runs and whose Benches issue, where a batch forms whose groups
read no table, and no request of it is turned away or met poison: one step is added, of the batch's group and epoch, at
the next ticket, holding the batch and what each request read at that ticket; each request of the batch is then running.
STEP_END of a step all of whose requests are masked or gone, which pins no table and waits for no gather, while no
publication stands, removes it and takes a ticket; nothing else changes. STEP_END of a step of one running request, under
a plan with no generation model, hands what its stages deliver to that request and sends it on. [R104, R105, R119] -/
def Obligations.StepRunsItsBatch : Prop :=
  (∀ (stage e cap : Nat) (g : List Nat) (batch : List Req) (q : PlanSet) (s s1 s2 : State) (ws : List (Req × Work)),
    serving s = true → stepsRun s = true → (∀ p ∈ s.job.steps, stage ∉ p.stages) →
    formBatch stage s = (s1, ⟨some (e, g, cap), batch⟩) → Runs s1 → planSet s1 e = some q → groupTable q.plan g = none →
    batchWorks q.plan (ticketNext s1) g batch (ticked s1) = (s2, ws) → ws ≠ [] →
    (∀ w ∈ ws, w.2.reject = none ∧ w.2.poisoned = false) →
    ∃ u k, exec (.stepStart stage) s = .next u ∧ u.job.steps = s2.job.steps ++ [k] ∧ k.stages = g ∧ k.epoch = e ∧
      k.start = ticketNext s1 ∧ k.batch = ws.map (·.1.ticket) ∧ k.outs = ws.map (·.2.out) ∧ k.dropped = [] ∧
      (∀ r ∈ u.job.reqs, r.ticket ∈ k.batch → r.place = .running)) ∧
  (∀ (stage : Nat) (k : Step) (q : PlanSet) (s : State), Runs s →
    s.job.steps.find? (fun p => p.stages.contains stage) = some k → planSet s k.epoch = some q →
    (∀ g ∈ s.gth.gathers, g.step ≠ k.start) → (∀ o ∈ k.outs, o.ticket ∈ k.dropped ∨ findReq s o.ticket = none) →
    k.tablePins = [] → s.gth.pubs = [] →
    exec (.stepEnd stage) s = .next { ticked s with
      job := { s.job with steps := s.job.steps.filter (·.start != k.start) } }) ∧
  ∀ (stage : Nat) (k : Step) (o : StepOut) (r : Req) (q : PlanSet) (s : State), Runs s →
    s.job.steps.find? (fun p => p.stages.contains stage) = some k → planSet s k.epoch = some q →
    (∀ g ∈ s.gth.gathers, g.step ≠ k.start) → k.outs = [o] → o.ticket ∉ k.dropped → findReq s o.ticket = some r →
    r.place = .running → genOfPlan q.plan = none → k.tablePins = [] →
    let x := k.stages.foldl (fun x n => stageDeliver q.plan k o n x)
      (r, { ticked s with job := { s.job with steps := s.job.steps.filter (·.start != k.start) } })
    exec (.stepEnd stage) s =
      .next (retirePubs (advance phases { x.1 with agenda := x.1.agenda.drop 1, place := .held } x.2))

/-- ISSUE_BOUNDARY of a Bench keeps every step with its start ticket, batch and outputs, adds to each step that issues to that
Bench the requests of its batch that are no longer in flight, and changes no other step and no request. QUEUE_SLOT_FREE,
where one request is held for the stage, puts it into the queue if every stage of its group has room, and otherwise
changes nothing. STEP_WATCHDOG of a stage whose step has run more than 50 ms ends the job with cause STEP_WATCHDOG, and
leaves no step; of a shorter step it does nothing. [R31, R106, R119, R123] -/
def Obligations.BoundariesMaskAndSlotsFree : Prop :=
  (∀ (bench : Nat) (s : State), serving s = true →
    ∃ u, exec (.issueBoundary bench) s = .next u ∧ u.job.reqs = s.job.reqs ∧ u.job.steps.length = s.job.steps.length ∧
      (∀ p ∈ s.job.steps, bench ∉ issueOf s p.epoch p.stages → p ∈ u.job.steps) ∧
      ∀ p ∈ s.job.steps, bench ∈ issueOf s p.epoch p.stages →
        ∃ x ∈ u.job.steps, x.start = p.start ∧ x.batch = p.batch ∧ x.outs = p.outs ∧
          ∀ t, t ∈ x.dropped ↔ t ∈ p.dropped ∨ (t ∈ p.batch ∧ findReq s t = none)) ∧
  (∀ (stage : Nat) (r : Req) (p : Plan) (s : State), serving s = true →
    s.job.reqs.filter (fun q => q.place == .held && (q.agenda.headD []).contains stage) = [r] → r.plan s = some p →
    exec (.queueSlotFree stage) s =
      .next (if groupRoom s p (r.agenda.headD []) then setReq { r with place := .queue } s else s)) ∧
  (∀ (stage : Nat) (k : Step) (s : State), Runs s → s.job.phase ≠ 0 → k ∈ s.job.steps → stage ∈ k.stages →
    past s (k.began + 1) 50000000 = true →
    ∃ u, exec (.stepWatchdog stage) s = .next u ∧ u.job.phase = 0 ∧ u.job.faultCause = 4 ∧ u.job.steps = []) ∧
  ∀ (stage : Nat) (s : State), serving s = true →
    (∀ k ∈ s.job.steps, stage ∈ k.stages → past s (k.began + 1) 50000000 = false) → exec (.stepWatchdog stage) s = .next s

/-- TILE_COMPLETE on a Bench that is not fenced, in a logical position 0 to 7. A tile that passes in its first run commits and
nothing else happens; one that is not checked commits and assay_skip rises. A tile that fails in its first run commits
nothing: it only stands to run again. One that passes then commits, assay_transient rises and an ASSAY record with action
1 is queued. One that fails again, with the spare unused and in service, retires the physical Slab, gives its logical
position to the spare, raises slab_retired and queues its record; the tile commits nothing. A tile of a fenced Bench does
nothing. [R199, R200, R201] -/
def Obligations.TileVerdict : Prop :=
  ∀ (bench slab : Nat) (t : Tile) (b : Bench) (s : State), Runs s → bench < 96 → slab < 8 → s.flt.benches[bench]? = some b →
    (b.fenced = true → exec (.tileComplete bench slab t) s = .next s) ∧
    (b.fenced = false → t.skipped = true → (bench, slab, t.ticket) ∉ s.flt.retrying →
      exec (.tileComplete bench slab t) s =
        .next (commitTile bench (b.logical.getD slab 0) t { s with flt.assaySkip := satInc s.flt.assaySkip })) ∧
    (b.fenced = false → t.skipped = false → t.passes = true → (bench, slab, t.ticket) ∉ s.flt.retrying →
      exec (.tileComplete bench slab t) s = .next (commitTile bench (b.logical.getD slab 0) t s)) ∧
    (b.fenced = false → t.skipped = false → t.passes = false → (bench, slab, t.ticket) ∉ s.flt.retrying →
      exec (.tileComplete bench slab t) s =
        .next { s with flt.retrying := s.flt.retrying ++ [(bench, slab, t.ticket)] }) ∧
    (b.fenced = false → t.skipped = false → t.passes = true → s.flt.retrying = [(bench, slab, t.ticket)] → t.post = none →
      ∃ u, exec (.tileComplete bench slab t) s = .next u ∧ u.flt.retrying = [] ∧
        u.flt.assayTransient = satInc s.flt.assayTransient ∧ u.wb.seq = s.wb.seq + 1 ∧
        u.flt.accs = (commitTile bench (b.logical.getD slab 0) t s).flt.accs) ∧
    (b.fenced = false → t.skipped = false → t.passes = false → s.flt.retrying = [(bench, slab, t.ticket)] →
      b.logical.contains 8 = false → b.retired.getLsbD 8 = false →
      exec (.tileComplete bench slab t) s =
        .next (event (ticketNext s) 0x02 (benchLoc bench (b.logical.getD slab 0)) 0 2 2 t.ticket []
          { ticked s with flt := { s.flt with
            slabRetired := satInc s.flt.slabRetired, retrying := [],
            benches := s.flt.benches.set bench { b with
              retired := b.retired ||| BitVec.ofNat 9 (2 ^ b.logical.getD slab 0), logical := b.logical.set slab 8 } } }))

/-- INTEGRATED_VOLTAGE_REGULATOR_FAULT of one of the 96 Benches on a device that runs, with no active or retiring set, no plan
load and no step: the Bench is fenced, bench_fenced rises, a ticket is taken, and a BENCH_FENCED record at that ticket is
queued; nothing else changes. Of a Bench that is fenced already, or of no Bench, it does nothing. [R201, R541, R506] -/
def Obligations.BenchesAreFenced : Prop :=
  (∀ (bench : Nat) (b : Bench) (s : State), Runs s → s.flt.benches[bench]? = some b → bench < 96 → b.fenced = false →
    s.cfg.active = none → s.cfg.retiring = none → s.cfg.load = none → s.job.steps = [] → (∀ x ∈ s.flt.retrying, x.1 ≠ bench) →
    exec (.integratedVoltageRegulatorFault bench) s =
      .next (event (ticketNext s) 0x03 (benchLoc bench 0xFFFF) 0xFFFF 1 3 0 []
        { ticked s with flt := { s.flt with
          benches := s.flt.benches.set bench { b with fenced := true }, benchFenced := satInc s.flt.benchFenced } })) ∧
  ∀ (bench : Nat) (s : State), serving s = true → (96 ≤ bench ∨ (s.flt.benches.getD bench {}).fenced = true) →
    exec (.integratedVoltageRegulatorFault bench) s = .next s

/-- SUBMIT of a whole descriptor with its payload, at a manager that runs with a mirror and is not solo, with a job open,
room, no seq_warn, and a stream_seq above the stream's high_seq: the next ticket is the intake ticket; an INTAKE entry of
that ticket and tag with descriptor and payload is the journal's last entry; the one transaction sent is that entry, to
the mirror; the request stands in acceptance; the stream's high_seq is the new stream_seq; the held tags are as before.
Where the tag is held already, DUPLICATE with the held ticket goes back, and dup_submit rises. With no job open
REFUSED_NO_JOB goes back. [R138, R139, R140, R141, R475] -/
def Obligations.SubmissionsAreJournaledBeforeTheyAreAccepted : Prop :=
  (∀ (src m : Node) (txn : W16) (desc data : List Byte) (s : State), Runs s → desc.length = 128 → data.length = Desc.payloadLen desc →
    data.length ≤ 65536 → (∀ h ∈ s.wb.held, h.1 ≠ Desc.tag desc) → s.dom.superseded = false → isManager s = true →
    s.job.phase = 1 → s.wb.seqWarn = false → s.wb.seqStop = false → intakeQueued s < 65536 → s.wb.held.length < 4194304 →
    journalFull s = false → (∀ h, highSeq s (Desc.stream desc) = some h → h < Desc.seq desc) → s.wb.solo = false →
    s.dom.mirrorNode = some m →
    ∃ u r, exec (.submit src txn desc data) s = .next u ∧
      u.wb.journal = s.wb.journal ++ [⟨1, ticketNext s, Desc.tag desc, s.wb.journalPos, desc ++ data⟩] ∧
      u.out = s.out ++ [(s.now, ⟨m, myNode s, 0, ticketNext s,
        .mirrorEntry ⟨1, ticketNext s, Desc.tag desc, s.wb.journalPos, desc ++ data⟩⟩)] ∧
      u.job.reqs = s.job.reqs ++ [r] ∧ r.ticket = ticketNext s ∧ r.desc = desc ∧ r.payload = data ∧ r.boss = none ∧
      (∃ reject, r.place = .acceptance s.wb.journalPos src txn reject) ∧
      highSeq u (Desc.stream desc) = some (Desc.seq desc) ∧ u.wb.held = s.wb.held ∧ u.wb.seq = s.wb.seq + 1) ∧
  (∀ (src : Node) (txn : W16) (desc data : List Byte) (t : Ticket) (s : State), Runs s → s.wb.seqStop = false → desc.length = 128 →
    data.length = Desc.payloadLen desc → data.length ≤ 65536 → s.wb.held.find? (·.1 == Desc.tag desc) = some (Desc.tag desc, t) →
    exec (.submit src txn desc data) s = .next (send src txn t (.intakeAck (Desc.tag desc) 1)
      { ticked s with wb := { s.wb with seq := s.wb.seq + 1, dupSubmit := satInc s.wb.dupSubmit } })) ∧
  ∀ (src : Node) (txn : W16) (desc data : List Byte) (s : State), Runs s → s.wb.seqStop = false → desc.length = 128 →
    data.length = Desc.payloadLen desc → data.length ≤ 65536 → (∀ h ∈ s.wb.held, h.1 ≠ Desc.tag desc) → s.dom.superseded = false →
    s.job.phase ≠ 1 →
    exec (.submit src txn desc data) s = .next (send src txn 0 (.intakeAck (Desc.tag desc) 3) (ticked s))

/-- SUBMIT whose payload is longer than its first segment, with no such submission open and room for it, opens it and does
nothing else. CONT of the next segment in order, not the last, is appended and restarts the wait; one that does not
continue it in order discards the submission and raises bad_txn; CONT of no open submission only raises bad_txn.
SUBMISSION_TIMEOUT 1 ms after the last segment discards the submission and raises sub_incomplete; before that it does
nothing. [R449] -/
def Obligations.SubmissionsArriveInSegments : Prop :=
  (∀ (src : Node) (txn : W16) (desc data : List Byte) (s : State), serving s = true → desc.length = 128 →
    Desc.payloadLen desc ≤ 1048576 → 65536 < Desc.payloadLen desc → data.length = 65536 → findSub s src txn = none →
    s.wb.subs.length < 1024 → (s.wb.subs.map (·.data.length)).sum + 65536 ≤ 128 * 1048576 →
    exec (.submit src txn desc data) s = .next { s with wb.subs := s.wb.subs ++ [⟨src, txn, desc, data, s.now⟩] }) ∧
  (∀ (src : Node) (txn : W16) (data : List Byte) (x : Sub) (s : State), serving s = true → s.wb.subs = [x] → x.src = src →
    x.txn = txn → data.length = 65536 → x.data.length % 65536 = 0 → x.data.length + 65536 < Desc.payloadLen x.desc →
    exec (.cont src txn x.data.length data) s =
      .next { s with wb.subs := [{ x with data := x.data ++ data, last := s.now }] }) ∧
  (∀ (src : Node) (txn : W16) (off : Nat) (data : List Byte) (x : Sub) (s : State), serving s = true →
    findSub s src txn = some x → off > x.data.length →
    exec (.cont src txn off data) s = .next { s with
      wb.subs := s.wb.subs.filter (fun y => !(y.src == src && y.txn == txn)), lnk.badTxn := satInc s.lnk.badTxn }) ∧
  (∀ (src : Node) (txn : W16) (off : Nat) (data : List Byte) (s : State), serving s = true → findSub s src txn = none →
    exec (.cont src txn off data) s = .next { s with lnk.badTxn := satInc s.lnk.badTxn }) ∧
  ∀ (src : Node) (txn : W16) (x : Sub) (s : State), serving s = true → findSub s src txn = some x →
    exec (.submissionTimeout src txn) s = .next (if past s x.last 1000000 then { s with
      wb.subs := s.wb.subs.filter (fun y => !(y.src == src && y.txn == txn)), lnk.subIncomplete := satInc s.lnk.subIncomplete } else s)

/-- MIRROR_ENTRY at a mirror, of a COMPLETE entry at a position it does not hold, whose ticket no RELEASE entry releases, and
with no released entry: the entry is appended and MIRROR_ACK without superseded goes back. At a manager of a higher epoch
it is answered superseded, and nothing is kept. MIRROR_ACK of a position the manager waits for, where others wait and
nothing hangs on it: the position waits no more. Of the position of a request that the range check rejected: ACCEPTED goes
back with its ticket, its tag is held, and one completion of it, REJECTED_RANGE with the field's offset, joins those held
back. MIRROR_ACK_TIMEOUT after 100 us sends the entry once more; after the second 100 us the manager is solo, without
mirror_ok, waits for no position, and queues a MIRROR_LOST record. [R140, R142, R475, R476] -/
def Obligations.TheMirrorKeepsTheJournal : Prop :=
  (∀ (src : Node) (ep : W32) (e : JEntry) (s : State), Runs s → role s = 1 → e.kind = 2 → (∀ x ∈ s.wb.journal, x.pos ≠ e.pos) →
    (∀ x ∈ s.wb.journal, x.kind ≠ 3) →
    exec (.mirrorEntry src ep e) s = .next (send src 0 e.ticket (.mirrorAck e.pos false) { ticked s with
      wb := { s.wb with seq := s.wb.seq + 1, journal := s.wb.journal ++ [e], journalPos := e.pos + 1, tail := s.wb.tail + entryLen e } })) ∧
  (∀ (src : Node) (ep : W32) (e : JEntry) (s : State), Runs s → isManager s = true → ep.ult s.dom.mgrEpoch = true →
    exec (.mirrorEntry src ep e) s = .next (send src 0 e.ticket (.mirrorAck e.pos true) (ticked s))) ∧
  (∀ (src : Node) (pos other : W64) (w : Nat × Bool) (s : State), Runs s → isManager s = true → s.dom.mirrorNode = some src →
    s.wb.mirrorWait.any (·.1 == pos) = true → (other, w) ∈ s.wb.mirrorWait → other ≠ pos →
    (∀ r ∈ s.job.reqs, ∀ a b c, r.place ≠ .acceptance pos a b c) → (∀ b ∈ s.gth.pubs, b.pos ≠ some pos) → s.cfg.domSwap = none →
    exec (.mirrorAck src pos false) s = .next { ticked s with
      wb := { s.wb with seq := s.wb.seq + 1, mirrorWait := s.wb.mirrorWait.filter (·.1 != pos) } }) ∧
  (∀ (src from' : Node) (txn : W16) (pos : W64) (off : Nat) (r : Req) (s : State), Runs s → isManager s = true →
    s.dom.mirrorNode = some src → s.wb.mirrorWait.any (·.1 == pos) = true → s.job.reqs = [r] →
    r.place = .acceptance pos from' txn (some off) → r.boss = none → r.dec = none → s.gth.pubs = [] → s.cfg.domSwap = none →
    ∃ u, exec (.mirrorAck src pos false) s = .next u ∧ (r.desc.tag, r.ticket) ∈ u.wb.held ∧
      (s.now, (⟨from', myNode s, txn, r.ticket, .intakeAck r.desc.tag 0⟩ : Txn)) ∈ u.out ∧ findReq u r.ticket = none ∧
      ∃ k : Comp, u.wb.holdback = s.wb.holdback ++ [k] ∧ k.ticket = r.ticket ∧ k.status = 5 ∧ k.detail = off) ∧
  ∀ (pos : W64) (since : Nat) (m : Node) (e : JEntry) (again : Bool) (s : State), Runs s → isManager s = true →
    s.dom.superseded = false → s.wb.solo = false → s.wb.mirrorWait = [(pos, since, again)] → past s since 100000 = true →
    s.dom.mirrorNode = some m → s.wb.journal.find? (fun e => e.pos == pos) = some e →
    (again = false → exec (.mirrorAckTimeout pos) s =
      .next (send m 0 e.ticket (.mirrorEntry e) { s with wb.mirrorWait := [(pos, s.now, true)] })) ∧
    (again = true → s.job.reqs = [] → s.gth.pubs = [] → s.cfg.domSwap = none →
      exec (.mirrorAckTimeout pos) s = .next (event (ticketNext s) 0x53 devLoc 0 2 0 0 []
        { ticked s with wb := { s.wb with seq := s.wb.seq + 1, solo := true, mirrorOk := false, mirrorWait := [] } }))

/-- COMPLETION_POST of a completion held back whose COMPLETE entry stands and is not waited for, in its stream's turn, with
the ring enabled and not full: its record, with the ring's phase, is written at the ring's tail in the owner's memory, the
tail advances, and the completion moves from those held back to those posted. While an accepted request or a completion
held back has a lower stream_seq on the stream, or the ring is full or disabled, it does nothing. With no COMPLETE entry
yet and a mirror, only the entry is journaled and sent. CQ_STALLED after a ring has been full for 1 s sets cq_stalled,
takes a ticket and queues a CQ_STALLED record. [R150, R151, R152, R160] -/
def Obligations.CompletionsArePostedInOrder : Prop :=
  (∀ (t : Ticket) (k : Comp) (p : W64) (s : State), serving s = true → s.wb.holdback.find? (·.ticket == t) = some k →
    accepts s = true → streamTurn s k = true → s.wb.cq.open = true → k.pos = some p → (∀ w ∈ s.wb.mirrorWait, w.1 ≠ p) →
    exec (.completionPost t) s = .next
      { send (baseNode s.wb.cqBase) 0 0 (.wr (baseAddr s.wb.cqBase + 64 * s.wb.cq.tail.toNat) (k.bytes s.wb.cq.pass)) s with
        wb := { s.wb with cq := s.wb.cq.next.clock s.now, holdback := s.wb.holdback.filter (·.ticket != k.ticket),
                          posted := s.wb.posted ++ [{ k with phase := s.wb.cq.pass }] } }) ∧
  (∀ (t : Ticket) (k : Comp) (s : State), serving s = true → s.wb.holdback.find? (·.ticket == t) = some k →
    (streamTurn s k = false ∨ s.wb.cq.open = false) → exec (.completionPost t) s = .next s) ∧
  (∀ (t : Ticket) (k : Comp) (s : State), serving s = true → s.wb.holdback.find? (·.ticket == t) = some k →
    isManager s = true → s.wb.solo = false → streamTurn s k = true → s.wb.cq.open = true → k.pos = none → completeFits s k = true →
    ∃ u, exec (.completionPost t) s = .next u ∧ u.wb.posted = s.wb.posted ∧
      u.wb.journal = s.wb.journal ++ [⟨2, k.ticket, k.tag, s.wb.journalPos, k.bytes false ++ k.result⟩] ∧
      u.wb.holdback = s.wb.holdback.map fun x => if x.ticket = k.ticket then { x with pos := some s.wb.journalPos } else x) ∧
  ∀ (since : Nat) (s : State), Runs s → s.wb.cq.fullSince = some since → past s since 1000000000 = true → s.wb.cqStalled = false →
    exec .cqStalled s = .next (event (ticketNext s) 0x64 devLoc 0 1 0 0 []
      (ticked { s with wb := { s.wb with cqStalled := true } }))

/-- RELEASE_TICKET of a ticket that is posted and held, at a device that accepts work: no completion posted and no tag held
has the ticket afterwards, and release_miss stays. Of any other ticket it only raises release_miss. STREAM_RESET of a
stream with no held tag leaves it without high_seq and every other stream as it was; of a stream with a held tag it only
raises release_miss. FETCH of a ticket in flight or held back answers NOT_READY, of one that is unknown REJECTED_RANGE,
and of one posted, whose result ends within one segment, the record and the result bytes; it changes nothing else but the
ticket it takes. [R153, R154, R155, R451] -/
def Obligations.ReleasesAndFetches : Prop :=
  (∀ (c : Cmd) (t : Ticket) (k : Comp) (s : State), Granted c s → accepts s = true →
    s.wb.posted.find? (·.ticket == t) = some k → (s.wb.held.any fun h => h.2 == t) = true →
    ∃ u, exec (.releaseTicket c t) s = .next u ∧ (∀ x ∈ u.wb.posted, x.ticket ≠ t) ∧ (∀ h ∈ u.wb.held, h.2 ≠ t) ∧
      u.wb.posted = s.wb.posted.filter (·.ticket != t) ∧ u.wb.held = s.wb.held.filter (·.2 != t) ∧
      u.wb.releaseMiss = s.wb.releaseMiss) ∧
  (∀ (c : Cmd) (t : Ticket) (s : State), Granted c s → accepts s = true →
    ((∀ x ∈ s.wb.posted, x.ticket ≠ t) ∨ (∀ h ∈ s.wb.held, h.2 ≠ t)) →
    exec (.releaseTicket c t) s = .next { taken c rRelease t s with
      wb := { s.wb with seq := s.wb.seq + 1, releaseMiss := satInc s.wb.releaseMiss } }) ∧
  (∀ (c : Cmd) (n : BitVec 12) (s : State), Granted c s → accepts s = true → (∀ h ∈ s.wb.held, tagStream h.1 ≠ n.toNat) →
    ∃ u, exec (.streamReset c n) s = .next u ∧ highSeq u n.toNat = none ∧ (∀ k, k ≠ n.toNat → highSeq u k = highSeq s k) ∧
      u.wb.releaseMiss = s.wb.releaseMiss) ∧
  (∀ (c : Cmd) (n : BitVec 12) (h : W64 × Ticket) (s : State), Granted c s → accepts s = true → h ∈ s.wb.held →
    tagStream h.1 = n.toNat →
    exec (.streamReset c n) s = .next { taken c rStreamReset (n.zeroExtend 64) s with
      wb := { s.wb with seq := s.wb.seq + 1, releaseMiss := satInc s.wb.releaseMiss } }) ∧
  ∀ (src : Node) (txn : W16) (t : Ticket) (s : State), Runs s →
    ((∀ x ∈ s.wb.posted, x.ticket ≠ t) → (∃ x ∈ s.wb.holdback, x.ticket = t) →
      exec (.fetch src txn t) s = .next (send src txn t (.fetchResp 6 0 []) (ticked s))) ∧
    ((∀ x ∈ s.wb.posted, x.ticket ≠ t) → (∀ x ∈ s.wb.holdback, x.ticket ≠ t) → (∀ r ∈ s.job.reqs, r.ticket ≠ t) →
      exec (.fetch src txn t) s = .next (send src txn t (.fetchResp 5 0 []) (ticked s))) ∧
    (∀ k, s.wb.posted.find? (·.ticket == t) = some k → k.result.length < 65000 →
      exec (.fetch src txn t) s = .next (send src txn t (.fetchResp 0 0 (k.bytes k.phase ++ k.result)) (ticked s)))

/-- CQ_CTRL_WRITE, SR_CTRL_WRITE and ALERT_CTRL_WRITE at a device that runs and grants them, and accepts work: with enable set
on a stopped ring and log2_entries 8 or more, the ring takes that size with head and tail 0 in its first pass and is
enabled. With enable set and log2_entries below 8, or another size on an enabled ring, nothing but the answer and the
stamp happens. With enable clear the ring stops and takes the size and the head written. An alert ring takes min_severity
with each of these writes that is not ignored. [R159, R160, R249, R523] -/
def Obligations.RingControlsObeyEnable : Prop :=
  ∀ (c : Cmd) (d : W64) (s : State), Granted c s → accepts s = true →
    (regBit d 48 = true → 8 ≤ (d.extractLsb' 0 4).toNat →
      (s.wb.cq.enable = false → exec (.cqCtrlWrite c d) s = .next { taken c rCqCtrl d s with
        wb := { s.wb with seq := s.wb.seq + 1, cqStalled := s.wb.cqStalled && (0 == s.wb.cq.head),
                          cq := { log2 := d.extractLsb' 0 4, head := 0, tail := 0, enable := true, pass := true, fullSince := none } } }) ∧
      (s.txt.sr.enable = false → s.txt.srWaiting = [] → exec (.srCtrlWrite c d) s = .next { taken c rSrCtrl d s with
        txt := { s.txt with
          sr := { log2 := d.extractLsb' 0 4, head := 0, tail := 0, enable := true, pass := true, fullSince := none } } }) ∧
      (s.flt.alert.enable = false → exec (.alertCtrlWrite c d) s = .next { taken c rAlertCtrl d s with
        flt := { s.flt with minSeverity := d.extractLsb' 49 2,
                            alert := { log2 := d.extractLsb' 0 4, head := 0, tail := 0, enable := true, pass := true, fullSince := none } } })) ∧
    (regBit d 48 = true → (d.extractLsb' 0 4).toNat < 8 →
      exec (.cqCtrlWrite c d) s = .next (taken c rCqCtrl d s) ∧ exec (.srCtrlWrite c d) s = .next (taken c rSrCtrl d s) ∧
      exec (.alertCtrlWrite c d) s = .next (taken c rAlertCtrl d s)) ∧
    (regBit d 48 = true →
      (s.wb.cq.enable = true → d.extractLsb' 0 4 ≠ s.wb.cq.log2 → exec (.cqCtrlWrite c d) s = .next (taken c rCqCtrl d s)) ∧
      (s.txt.sr.enable = true → d.extractLsb' 0 4 ≠ s.txt.sr.log2 → exec (.srCtrlWrite c d) s = .next (taken c rSrCtrl d s)) ∧
      (s.flt.alert.enable = true → d.extractLsb' 0 4 ≠ s.flt.alert.log2 →
        exec (.alertCtrlWrite c d) s = .next (taken c rAlertCtrl d s))) ∧
    (regBit d 48 = false →
      exec (.cqCtrlWrite c d) s = .next { taken c rCqCtrl d s with
        wb := { s.wb with seq := s.wb.seq + 1, cqStalled := false,
                          cq := { s.wb.cq with log2 := d.extractLsb' 0 4, enable := false, fullSince := none, head := d.extractLsb' 16 16 } } } ∧
      exec (.alertCtrlWrite c d) s = .next { taken c rAlertCtrl d s with
        flt := { s.flt with
          minSeverity := d.extractLsb' 49 2,
          alert := { s.flt.alert with log2 := d.extractLsb' 0 4, enable := false, fullSince := none, head := d.extractLsb' 16 16 } } })

/-- ANSWER, at a device that runs, for a request that waits for its members' answers, is waited for under that shard and has
another shard still to answer: the answer joins those kept, and the request waits on. A second answer for the shard only
raises dup_answer, as does one that no request waits for. The answer of the device that runs a DECODE, other than
FAULT_JOB, completes the DECODE with the answer's status, result0, end reason and bytes. [R33, R146, R147, R352] -/
def Obligations.AnswersAreTakenOnce : Prop :=
  (∀ (src : Node) (a : Answer) (r : Req) (rr : Bool) (other : Nat × Node) (s : State), Runs s → s.job.reqs = [r] →
    r.mgr = a.ticket → r.place = .answers rr → a.status ≠ 4 → (∀ x ∈ r.answers, x.shard ≠ a.shard) →
    (∃ x ∈ r.waitFor, x.1 = a.shard) → other ∈ r.waitFor → (∀ x ∈ r.answers ++ [a], x.shard ≠ other.1) →
    exec (.answer src a) s = .next { ticked s with job := { s.job with reqs := [{ r with answers := r.answers ++ [a] }] } }) ∧
  (∀ (src : Node) (a : Answer) (r : Req) (rr : Bool) (s : State), Runs s → s.job.reqs = [r] → r.mgr = a.ticket →
    r.place = .answers rr → a.status ≠ 4 → (∃ x ∈ r.answers, x.shard = a.shard) →
    exec (.answer src a) s = .next { ticked s with wb := { s.wb with seq := s.wb.seq + 1, dupAnswer := satInc s.wb.dupAnswer } }) ∧
  (∀ (src : Node) (a : Answer) (s : State), Runs s → (∀ r ∈ s.job.reqs, r.mgr ≠ a.ticket) →
    ∃ u, exec (.answer src a) s = .next u ∧ u.wb.dupAnswer = satInc s.wb.dupAnswer ∧ u.job = s.job ∧ u.out = s.out) ∧
  ∀ (src : Node) (a : Answer) (r : Req) (s : State), Runs s → s.job.reqs = [r] → r.mgr = a.ticket → r.place = .away →
    r.desc.type = 6 → a.status ≠ 4 → r.ending = 0 → r.boss = none → r.dec = none →
    ∃ u, exec (.answer src a) s = .next u ∧ findReq u r.ticket = none ∧
      ∃ k : Comp, u.wb.holdback = s.wb.holdback ++ [k] ∧ k.ticket = r.ticket ∧ k.status = a.status ∧ k.result0 = a.result0 ∧
        k.endReason = a.endReason ∧ k.result = a.bytes

/-- WORK_FWD of a SEARCH and RERANK_FWD, at a device that runs a job and is no manager, under an epoch whose set it has, from
a manager of its own epoch, not known here: a request of the next ticket, answering to the sender under the ticket
forwarded, stands in the queue of the first group of its route's phase, where that group has room. PROMPT naming a decode
device: the request stands in the prompt's move, and CACHE_OPEN of the prompt goes to the decode device. Work from a
manager of a lower epoch of this domain is answered REJECTED_RANGE and stale_epoch rises; with no job open it is answered
FAULT_JOB. [R31, R96, R349, R474] -/
def Obligations.ForwardedWorkEntersItsStage : Prop :=
  (∀ (src : Node) (h : FwdHead) (desc input : List Byte) (g : List Nat) (rest : List (List Nat)) (p : Plan) (s : State), Runs s →
    isManager s = false → (s.job.phase = 1 ∨ s.job.phase = 2) → h.mgrEpoch = s.dom.mgrEpoch.toNat → Desc.type desc = 2 →
    (planSet s h.epoch).map (·.plan) = some p → (∀ q ∈ s.job.reqs, q.ticket ≠ ticketNext s ∧ q.mgr ≠ h.ticket) →
    (∀ x ∈ s.dec.ended, x.1 ≠ h.ticket) → (∃ c, findColl s (Desc.coll desc) = some c ∧ c.version ≠ 0) →
    agendaOf p 2 1 = g :: rest → g.length = 1 → groupRoom s p g = true →
    ∃ u r, exec (.workFwd src h desc input) s = .next u ∧ u.job.reqs = s.job.reqs ++ [r] ∧ r.ticket = ticketNext s ∧
      r.mgr = h.ticket ∧ r.boss = some src ∧ r.shard = h.shard ∧ r.soft = h.softLeft ∧ r.hard = h.hardLeft ∧ r.start = s.now ∧
      r.place = .queue ∧ r.agenda = g :: rest) ∧
  (∀ (src : Node) (h : FwdHead) (desc : List Byte) (tokens : List Nat) (ids : List W64) (g : List Nat) (rest : List (List Nat))
      (p : Plan) (s : State), Runs s →
    isManager s = false → (s.job.phase = 1 ∨ s.job.phase = 2) → h.mgrEpoch = s.dom.mgrEpoch.toNat →
    (planSet s h.epoch).map (·.plan) = some p → (∀ q ∈ s.job.reqs, q.ticket ≠ ticketNext s ∧ q.mgr ≠ h.ticket) →
    (∀ x ∈ s.dec.ended, x.1 ≠ h.ticket) → agendaOf p (Desc.type desc) 2 = g :: rest → g.length = 1 → groupRoom s p g = true →
    ∃ u r, exec (.rerankFwd src h desc tokens ids) s = .next u ∧ u.job.reqs = s.job.reqs ++ [r] ∧ r.ticket = ticketNext s ∧
      r.mgr = h.ticket ∧ r.boss = some src ∧ r.tokens = tokens ∧ r.merged.map (·.payload) = ids ∧ r.place = .queue ∧
      r.agenda = g :: rest) ∧
  (∀ (src d : Node) (h : FwdHead) (desc : List Byte) (tokens : List Nat) (p : Plan) (s : State), Runs s → d ≠ 0 →
    (s.job.phase = 1 ∨ s.job.phase = 2) → h.mgrEpoch = s.dom.mgrEpoch.toNat → (planSet s h.epoch).map (·.plan) = some p →
    (∀ q ∈ s.job.reqs, q.ticket ≠ ticketNext s ∧ q.mgr ≠ h.ticket) → (∀ x ∈ s.dec.ended, x.1 ≠ h.ticket) →
    ∃ u r fmt layers, exec (.prompt src h desc d tokens) s = .next u ∧ u.job.reqs = s.job.reqs ++ [r] ∧ r.ticket = ticketNext s ∧
      r.mgr = h.ticket ∧ r.boss = some src ∧ r.place = .move ∧
      u.out = s.out ++ [(s.now, ⟨d, myNode s, 0, h.ticket, .cacheOpen tokens.length (tokens.getLastD 0) fmt layers⟩)]) ∧
  (∀ (src : Node) (h : FwdHead) (desc input : List Byte) (s : State), Runs s → nodeDomain src = nodeDomain (myNode s) →
    h.mgrEpoch < s.dom.mgrEpoch.toNat →
    ∃ u a, exec (.workFwd src h desc input) s = .next u ∧ u.dom.staleEpoch = satInc s.dom.staleEpoch ∧ u.job = s.job ∧
      u.out = s.out ++ [(s.now, ⟨src, myNode s, 0, h.ticket, .answer a⟩)] ∧ a.ticket = h.ticket ∧ a.status = 5) ∧
  ∀ (src : Node) (h : FwdHead) (desc input : List Byte) (s : State), Runs s → h.mgrEpoch = s.dom.mgrEpoch.toNat →
    (∀ q ∈ s.job.reqs, q.mgr ≠ h.ticket) → (∀ x ∈ s.dec.ended, x.1 ≠ h.ticket) → s.job.phase = 0 →
    ∃ u a, exec (.workFwd src h desc input) s = .next u ∧ u.job = s.job ∧
      u.out = s.out ++ [(s.now, ⟨src, myNode s, 0, h.ticket, .answer a⟩)] ∧ a.ticket = h.ticket ∧ a.status = 4

/-- STREAM_REC of a 64-byte record at a device that accepts work: with the ring enabled and not full and none waiting, it is
written at the ring's tail with the ring's phase in byte 26, and the tail advances; with the ring closed it waits behind
those that wait. One of another length only raises bad_txn. [R239, R250] -/
def Obligations.StreamRecordsReachTheRing : Prop :=
  ∀ (src : Node) (b : List Byte) (s : State), Runs s → accepts s = true →
    (b.length = 64 → s.txt.sr.open = true → s.txt.srWaiting = [] →
      exec (.streamRec src b) s = .next { send (baseNode s.txt.srBase) 0 0 (.wr (baseAddr s.txt.srBase + 64 * s.txt.sr.tail.toNat)
          (b.set 26 (b.getD 26 0 ||| (if s.txt.sr.pass then 1 else 0)))) (ticked s) with
        txt := { s.txt with sr := s.txt.sr.next } }) ∧
    (b.length = 64 → s.txt.sr.open = false →
      exec (.streamRec src b) s = .next { ticked s with txt := { s.txt with srWaiting := s.txt.srWaiting ++ [b] } }) ∧
    (b.length ≠ 64 → exec (.streamRec src b) s = .next { ticked s with lnk := { s.lnk with badTxn := satInc s.lnk.badTxn } })

/-- TOKENIZE of a request that waits for it, at a device that runs and whose plan has normalization tables and a lattice.
Where the text is refused, the request completes REJECTED_RANGE with the payload's offset, and the counts of the text are
added. Where it is not, for an EMBED or QUERY whose route has encode stages with room in the first, the request stands in
that stage's queue with the text's tokens, and the counts are added. PACK of a PACK request on a device that is no
manager, whose template gives a prompt, takes a ticket, and the request completes with the placed passage ids and the
tokens as its result; with a template that its plan does not hold it completes REJECTED_RANGE with detail 3. [R226, R236,
R245, R246, R248] -/
def Obligations.TextIsTokenizedAndPacked : Prop :=
  (∀ (t : Ticket) (r : Req) (p : Plan) (nt : NormTables) (l : LatticeParams) (s : State), serving s = true → findReq s t = some r →
    r.place = .text → r.boss = none → r.dec = none → r.plan s = some p → p.normTables = some nt → p.lattice = some l →
    (tokenizeText nt l p.vocab (queryText r)).refused = true →
    ∃ u, exec (.tokenize t) s = .next u ∧ findReq u t = none ∧ u.txt.textTooLong = satInc s.txt.textTooLong ∧
      ∃ k : Comp, u.wb.holdback = s.wb.holdback ++ [k] ∧ k.ticket = t ∧ k.status = 5 ∧ k.detail = 0x20) ∧
  (∀ (t : Ticket) (r : Req) (p : Plan) (nt : NormTables) (l : LatticeParams) (g : List Nat) (rest : List (List Nat)) (s : State),
    serving s = true → s.job.reqs = [r] → r.ticket = t → r.place = .text → r.desc.type ≤ 1 → r.plan s = some p →
    p.normTables = some nt → p.lattice = some l → (tokenizeText nt l p.vocab (queryText r)).refused = false →
    agendaOf p r.desc.type 0 = g :: rest → g.length = 1 → groupRoom s p g = true →
    exec (.tokenize t) s = .next { countText (tokenizeText nt l p.vocab (queryText r)) s with
      job := { s.job with reqs := [{ r with tokens := (tokenizeText nt l p.vocab (queryText r)).tokens, phase := 0,
                                            agenda := g :: rest, place := .queue }] } }) ∧
  (∀ (t : Ticket) (r : Req) (s : State), Runs s → findReq s t = some r → r.place = .pack → r.packed = [] → r.desc.type = 4 →
    isManager s = false → r.boss = none → r.dec = none →
    (∀ p tm, r.plan s = some p → p.template? r.desc.template = some tm →
      (packPrompt tm r.desc.budget [] (packList r (ticketNext s) (ticked s))).refused = false →
      ∃ u, exec (.pack t) s = .next u ∧ findReq u t = none ∧ u.wb.seq = s.wb.seq + 1 ∧
        ∃ k : Comp, u.wb.holdback = s.wb.holdback ++ [k] ∧ k.ticket = t ∧ k.status = okStatus r ∧
          k.result = packedBytes (packPrompt tm r.desc.budget [] (packList r (ticketNext s) (ticked s)))) ∧
    ((r.plan s).bind (·.template? r.desc.template) = none →
      ∃ u, exec (.pack t) s = .next u ∧ findReq u t = none ∧
        ∃ k : Comp, u.wb.holdback = s.wb.holdback ++ [k] ∧ k.ticket = t ∧ k.status = 5 ∧ k.detail = 3)) ∧
  ∀ (t : Ticket) (s : State), serving s = true → (∀ r, findReq s t = some r → r.place ≠ .text ∧ r.place ≠ .pack) →
    exec (.tokenize t) s = .next s ∧ exec (.pack t) s = .next s

/-- CACHE_OPEN at a device that runs a job: with blocks for the prompt it opens a cache of that ticket under the next handle
and answers OPENED with the handle, and otherwise answers NO_ROOM, as it does with no job. OPENED for a move that waits
for it gives the move its handle and puts the prompt into the queue of the prefill stage. NO_ROOM only sets the time from
which CACHE_OPEN is tried again, and CACHE_OPEN_RETRY 100 us later sends it again. CACHE_DROP frees the cache of the
handle. CACHE_IDLE_TIMEOUT frees an unclaimed cache whose idle time has passed and raises idle_freed, and leaves a claimed
one. [R341, R349, R350, R353] -/
def Obligations.CachesAreOpenedAndReleased : Prop :=
  (∀ (src : Node) (t : Ticket) (n last fmt layers : Nat) (s : State), Runs s → s.job.phase = 1 →
    (s.dec.nextSlot < 0xFFFFFFFF → layers * ceilDiv (n - 1) 64 ≤ freeBlocks s →
      exec (.cacheOpen src t n last fmt layers) s = .next (send src 0 t (.opened (cacheHandle s s.dec.nextSlot)) { ticked s with
        dec := { s.dec with nextSlot := s.dec.nextSlot + 1,
                            caches := s.dec.caches ++ [⟨cacheHandle s s.dec.nextSlot, t, n, last, fmt, layers, layers * ceilDiv (n - 1) 64,
                              [], [], [], none, s.now⟩] } })) ∧
    (freeBlocks s < layers * ceilDiv (n - 1) 64 →
      exec (.cacheOpen src t n last fmt layers) s = .next (send src 0 t .noRoom (ticked s)))) ∧
  (∀ (src : Node) (t : Ticket) (h : W64) (v : PfMove) (r : Req) (g : List Nat) (rest : List (List Nat)) (p : Plan) (s : State), Runs s →
    s.dec.moves = [v] → v.mgr = t → v.decode = src → v.handle = none → s.job.reqs = [r] → r.ticket = v.ticket → r.plan s = some p →
    agendaOf p r.desc.type 3 = g :: rest → g.length = 1 → groupRoom s p g = true →
    exec (.opened src t h) s = .next { ticked s with
      dec := { s.dec with moves := [{ v with handle := some h, retryAt := none }] },
      job := { s.job with reqs := [{ r with phase := 3, agenda := g :: rest, place := .queue }] } }) ∧
  (∀ (src : Node) (t : Ticket) (v : PfMove) (s : State), Runs s → s.dec.moves = [v] → v.mgr = t → v.decode = src → v.handle = none →
    exec (.noRoom src t) s = .next { ticked s with dec := { s.dec with moves := [{ v with retryAt := some s.now }] } }) ∧
  (∀ (t : Ticket) (v : PfMove) (r : Req) (at0 : Nat) (s : State), serving s = true → s.dec.moves = [v] → v.ticket = t →
    findReq s t = some r → v.retryAt = some at0 → v.handle = none → v.decode ≠ 0 → v.decode ≠ myNode s →
    exec (.cacheOpenRetry t) s = .next (if past s at0 100000 then
        send v.decode 0 r.mgr (.cacheOpen v.tokens.length (v.tokens.getLastD 0) (cacheShape s r).1 (cacheShape s r).2)
          { s with dec := { s.dec with moves := [{ v with retryAt := none }] } }
      else s)) ∧
  (∀ (src : Node) (h : W64) (s : State), Runs s →
    exec (.cacheDrop src h) s = .next { ticked s with dec := { s.dec with caches := s.dec.caches.filter (fun c => !(c.handle == h)) } }) ∧
  ∀ (h : W64) (c : Cache) (s : State), serving s = true → s.dec.caches.find? (·.handle == h) = some c →
    (c.claimed = none → past s c.openedAt (idleNs s) = true →
      exec (.cacheIdleTimeout h) s = .next { s with
        dec := { s.dec with idleFreed := satInc s.dec.idleFreed, caches := s.dec.caches.filter (fun c => !(c.handle == h)) } }) ∧
    (c.claimed ≠ none → exec (.cacheIdleTimeout h) s = .next s)

/-- KV_BLOCK of a whole block that the open cache of its handle does not hold: the block is kept and KV_ACK goes back; of a
block it holds, KV_ACK goes back and kv_dup rises; for no cache of the handle, nothing happens. KV_ACK of a sent block,
others unacknowledged, marks it and drops the block kept for it; of the last block it ends the move, and PREFILL_DONE goes
to the manager. KV_RESEND_TIMEOUT 1 ms after a block was sent sends it once more and raises kv_resend; after the second 1
ms the work ends here and KV_LOST goes to the manager. KV_LOST at the manager, with no prefill device up, sends
CACHE_DROP, raises reissued, and holds the packed prompt. PREFILL_DONE completes the request with the handle. [R34, R349,
R350, R351, R453] -/
def Obligations.BlocksMoveOnce : Prop :=
  (∀ (src : Node) (h : KvHead) (data : List Byte) (c : Cache) (s : State), Runs s → s.dec.caches = [c] → c.handle = h.handle →
    h.layer < c.layers → data.length = h.dataLen → c.segments = [] →
    ((∀ w ∈ c.written, w.1 ≠ h.layer ∨ w.2.1 ≠ h.index) → data ≠ [] →
      exec (.kvBlock src h 0 data) s = .next (send src 0 h.ticket (.kvAck h.handle h.layer h.index) { ticked s with
        dec := { s.dec with caches := [{ c with written := insertBy blockLe (h.layer, h.index, h, data) c.written }] } })) ∧
    ((∃ w ∈ c.written, w.1 = h.layer ∧ w.2.1 = h.index) →
      exec (.kvBlock src h 0 data) s = .next (send src 0 h.ticket (.kvAck h.handle h.layer h.index)
        { ticked s with dec := { s.dec with kvDup := satInc s.dec.kvDup } }))) ∧
  (∀ (src : Node) (layer index : Nat) (h : W64) (v : PfMove) (s : State), Runs s → s.dec.moves = [v] → v.handle = some h →
    v.decode ≠ myNode s → (∃ x ∈ v.sent, x.1 = layer ∧ x.2.1 = index) → (layer, index) ∉ v.acked →
    (v.acked.length + 1 ≠ v.sent.length → exec (.kvAck src h layer index) s = .next { ticked s with
      dec := { s.dec with moves := [{ v with acked := v.acked ++ [(layer, index)],
                                             blocks := v.blocks.filter fun b => !(b.1.layer == layer && b.1.index == index) }] } }) ∧
    (∀ n r, v.acked.length + 1 = v.sent.length → s.job.reqs = [r] → r.ticket = v.ticket → r.boss = some n →
      exec (.kvAck src h layer index) s = .next (send n 0 r.mgr (.prefillDone h)
        { ticked s with dec := { s.dec with moves := [] }, job := { s.job with reqs := [] } }))) ∧
  (∀ (layer index since : Nat) (h : W64) (v : PfMove) (b : KvHead × List Byte) (s : State), serving s = true → s.dec.moves = [v] →
    v.handle = some h → v.decode ≠ myNode s → (layer, index) ∉ v.acked → past s since 1000000 = true →
    (v.sent = [(layer, index, since, false)] → v.blocks.find? (fun b => b.1.layer == layer && b.1.index == index) = some b →
      exec (.kvResendTimeout h layer index) s = .next (sendBlock v.decode b.1 b.2 { s with
        dec := { s.dec with kvResend := satInc s.dec.kvResend, moves := [{ v with sent := [(layer, index, s.now, true)] }] } })) ∧
    (∀ n r, v.sent = [(layer, index, since, true)] → s.job.reqs = [r] → r.ticket = v.ticket → r.boss = some n →
      exec (.kvResendTimeout h layer index) s = .next (send n 0 v.mgr (.kvLost h)
        { s with dec := { s.dec with moves := [] }, job := { s.job with reqs := [] } }))) ∧
  ∀ (src c : Node) (t : Ticket) (h : W64) (r : Req) (s : State), Runs s → s.job.reqs = [r] → r.mgr = t → r.place = .prefill src c → c ≠ 0 →
    (prefillMember s = none → exec (.kvLost src t h) s = .next (send c 0 t (.cacheDrop h) { ticked s with
      wb := { s.wb with seq := s.wb.seq + 1, reissued := satInc s.wb.reissued }, job := { s.job with reqs := [{ r with place := .pack }] } })) ∧
    (h.extractLsb' 0 16 = c → r.boss = none → r.dec = none →
      ∃ u, exec (.prefillDone src t h) s = .next u ∧ findReq u r.ticket = none ∧
        ∃ k : Comp, u.wb.holdback = s.wb.holdback ++ [k] ∧ k.ticket = r.ticket ∧ k.status = okStatus r ∧ k.result0 = h ∧ k.node = c)

/-- GTH_OPEN, GTH_CLONE and GTH_ABANDON on a device that runs and grants them, of a table that it holds, name the table for
the source and act on the region that the next version occupies. OPEN of a FREE region makes it BUILD and busy; CLONE does
where the other region is LIVE, and otherwise reports GTH_NO_LIVE. Neither acts on a region that is BUILD or RETIRING, and
each reports why. ABANDON of a BUILD region that is not busy makes it FREE, and of a busy one only reports GTH_BUSY.
GTH_SELECT only names the table. BUILD_DONE of a busy table clears the busy mark; after OPEN the region's counters are
zero bytes, and nothing else changes. [R265, R266, R272, R273] -/
def Obligations.TableRegionsAreBuilt : Prop :=
  (∀ (c : Cmd) (x : W32) (t : Table) (s : State), Granted c s → findTable s x.toNat = some t → t.spec.remote = false →
    (t.state t.nextRegion = .free → exec (.gthOpen c x) s =
      .next (setTable { t.setState t.nextRegion .build with busy := some false, cmdCode := 0 }
        (bankSet rGthCmd.toNat c.src (gthData 1 x) (taken c rGthCmd (gthData 1 x) s)))) ∧
    (t.state t.nextRegion = .build → exec (.gthOpen c x) s =
      .next (setTable { t with cmdCode := 3 } (bankSet rGthCmd.toNat c.src (gthData 1 x) (taken c rGthCmd (gthData 1 x) s)))) ∧
    (t.state t.nextRegion = .retiring → exec (.gthOpen c x) s =
      .next (setTable { t with cmdCode := 2 } (bankSet rGthCmd.toNat c.src (gthData 1 x) (taken c rGthCmd (gthData 1 x) s)))) ∧
    (t.state t.nextRegion = .free → t.state (1 - t.nextRegion) = .live → exec (.gthClone c x) s =
      .next (setTable { t.setState t.nextRegion .build with busy := some true, cmdCode := 0 }
        (bankSet rGthCmd.toNat c.src (gthData 2 x) (taken c rGthCmd (gthData 2 x) s)))) ∧
    (t.state t.nextRegion = .free → t.state (1 - t.nextRegion) ≠ .live → exec (.gthClone c x) s =
      .next (setTable { t with cmdCode := 6 } (bankSet rGthCmd.toNat c.src (gthData 2 x) (taken c rGthCmd (gthData 2 x) s)))) ∧
    (t.state t.nextRegion = .build → t.busy = none → exec (.gthAbandon c x) s =
      .next (setTable { t.setState t.nextRegion .free with cmdCode := 0 }
        (bankSet rGthCmd.toNat c.src (gthData 3 x) (taken c rGthCmd (gthData 3 x) s)))) ∧
    (t.state t.nextRegion = .build → t.busy ≠ none → exec (.gthAbandon c x) s =
      .next (setTable { t with cmdCode := 5 } (bankSet rGthCmd.toNat c.src (gthData 3 x) (taken c rGthCmd (gthData 3 x) s))))) ∧
  (∀ (c : Cmd) (x : W32) (s : State), Granted c s →
    exec (.gthSelect c x) s = .next (bankSet rGthCmd.toNat c.src (gthData 4 x) (taken c rGthCmd (gthData 4 x) s))) ∧
  ∀ (x : W32) (t : Table) (clone : Bool) (s : State), serving s = true → findTable s x.toNat = some t → t.busy = some clone →
    (∃ u, exec (.buildDone x) s = .next u ∧ findTable u x.toNat = some { t with busy := none }) ∧
    (clone = false → exec (.buildDone x) s = .next (setTable { t with busy := none }
      (objPut t.spec.dir (counterAt s t.spec t.nextRegion 0) (List.replicate (4 * t.spec.rows) 0) s)))

/-- TABLE_SWITCH of a table with a TABLE_PUBLISH waiting on this device: where the next region is BUILD and not busy, the
request completes OK with the next version as result0, that region is LIVE, the former LIVE region is RETIRING, and the
ticket is recorded; where it is not, the request completes REJECTED_RANGE with detail 0x28, pub_fail rises, and the table
is as it was. At a member whose publication is committed it switches the table and records the ticket. PUBLISH_PREP
answers READY with code 0 and prepares the version, or with the reason and prepares nothing. READY short of the last
answer is kept. READY as the last, where a member refused, and PUBLISH_TIMEOUT 20 ms after acceptance, end the publication
and complete the request REJECTED_RANGE with detail 0x28. PUBLISH_COMMIT commits what is prepared, RETIRE is noted, and
REGION_FREE frees a retiring region that no step pins. [R148, R267, R268, R269, R270] -/
def Obligations.TablesArePublished : Prop :=
  (∀ (x : W32) (t : Table) (r : Req) (s : State), Runs s → findTable s x.toNat = some t → t.prepared = none →
    publishWaiting s x.toNat = some r → r.boss = none → r.dec = none → (∀ y ∈ t.recorded, y.1 ≠ r.mgr) → t.spec.remote = false →
    (publishable t = true → t.state (1 - t.nextRegion) = .live →
      ∃ u v, exec (.tableSwitch x) s = .next u ∧ findReq u r.ticket = none ∧ findTable u x.toNat = some v ∧
        v.version = t.version + 1 ∧ v.state t.nextRegion = .live ∧ v.state (1 - t.nextRegion) = .retiring ∧
        v.recorded = t.recorded ++ [(r.mgr, t.version + 1)] ∧
        ∃ k : Comp, u.wb.holdback = s.wb.holdback ++ [k] ∧ k.ticket = r.ticket ∧ k.status = 0 ∧
          k.result0 = BitVec.ofNat 64 (t.version + 1)) ∧
    (publishable t = false →
      ∃ u, exec (.tableSwitch x) s = .next u ∧ findTable u x.toNat = some t ∧ u.gth.pubFail = satInc s.gth.pubFail ∧
        ∃ k : Comp, u.wb.holdback = s.wb.holdback ++ [k] ∧ k.ticket = r.ticket ∧ k.status = 5 ∧ k.detail = 0x28)) ∧
  (∀ (x : W32) (t : Table) (tk : Ticket) (v : Nat) (s : State), Runs s → findTable s x.toNat = some t → t.prepared = some (tk, v) →
    t.committed = true →
    exec (.tableSwitch x) s = .next (setTable { switchTable t with recorded := t.recorded ++ [(tk, v)] } (ticked s))) ∧
  (∀ (src : Node) (tk : Ticket) (x v : W32) (s : State), Runs s →
    (∀ t, findTable s x.toNat = some t → (∀ y ∈ t.recorded, y.1 ≠ tk) → prepCode (some t) tk v.toNat = 0 →
      exec (.publishPrep src tk x v) s = .next (send src 0 tk (.ready x.toNat 0)
        (setTable { t with prepared := some (tk, v.toNat), committed := false, retireSeen := false } (ticked s)))) ∧
    (prepCode (findTable s x.toNat) tk v.toNat ≠ 0 →
      exec (.publishPrep src tk x v) s =
        .next (send src 0 tk (.ready x.toNat (prepCode (findTable s x.toNat) tk v.toNat)) (ticked s)))) ∧
  (∀ (src : Node) (tk : Ticket) (x : W32) (code : Byte) (b : Publication) (s : State), Runs s → s.gth.pubs = [b] → b.ticket = tk →
    b.committed = false → b.table = x.toNat → src ∈ b.members → (∀ a ∈ b.answers, a.1 ≠ src) →
    (b.answers.length + 1 ≠ b.members.length → exec (.ready src tk x code) s = .next { ticked s with
      gth := { s.gth with pubs := [{ b with answers := b.answers ++ [(src, code.toNat)] }] } }) ∧
    (∀ r, b.answers.length + 1 = b.members.length → 2 ≤ code.toNat → findReq s tk = some r → r.boss = none → r.dec = none →
      ∃ u, exec (.ready src tk x code) s = .next u ∧ u.gth.pubs = [] ∧ u.gth.pubFail = satInc s.gth.pubFail ∧
        ∃ k : Comp, u.wb.holdback = s.wb.holdback ++ [k] ∧ k.ticket = tk ∧ k.status = 5 ∧ k.detail = 0x28)) ∧
  (∀ (tk : Ticket) (b : Publication) (r : Req) (s : State), Runs s → s.gth.pubs = [b] → b.ticket = tk → b.committed = false →
    past s b.since 20000000 = true → findReq s tk = some r → r.boss = none → r.dec = none →
    ∃ u, exec (.publishTimeout tk) s = .next u ∧ u.gth.pubs = [] ∧ u.gth.pubFail = satInc s.gth.pubFail ∧
      ∃ k : Comp, u.wb.holdback = s.wb.holdback ++ [k] ∧ k.ticket = tk ∧ k.status = 5 ∧ k.detail = 0x28) ∧
  (∀ (src : Node) (tk : Ticket) (x v : W32) (t : Table) (s : State), Runs s → findTable s x.toNat = some t →
    (t.prepared = some (tk, v.toNat) →
      exec (.publishCommit src tk x v) s = .next (setTable { t with committed := true } (ticked s))) ∧
    (t.version = v.toNat + 1 → exec (.retire src x v) s = .next (setTable { t with retireSeen := true } (ticked s)))) ∧
  ∀ (x : W32) (t : Table) (s : State), serving s = true → s.gth.pubs = [] → findTable s x.toNat = some t →
    t.state t.nextRegion = .retiring → t.retireSeen = true → (∀ p ∈ s.job.steps, p.tablePins = []) →
    exec (.regionFree x) s = .next (setTable (t.setState t.nextRegion .free) s)

/-- GATHER_REQ of a table that the device holds a slice of, at a version it has, none of whose rows reads poison: GATHER_ANS
goes back with the number of indices in range, this device's first column and width, and the rows' elements in index
order. Of a table it does not hold, it does nothing but take its ticket. GATHER_ANS of a first slice that leaves columns
missing is kept with its columns; a second one of the same columns is discarded, as is one that no gather waits for.
[R258, R261, R263, R264] -/
def Obligations.GathersAreServedAndCollected : Prop :=
  (∀ (src : Node) (txn : W16) (tk : Ticket) (x v hard : W32) (index : List Nat) (t : Table) (s : State), Runs s →
    findTable s x.toNat = some t → t.spec.table = x.toNat → t.spec.remote = false → t.prepared = none → versionHere t v.toNat = true →
    (∀ i ∈ index, i < t.spec.rows → (decodeRow s t.spec v.toNat i).poisoned = false) →
    ∃ u, exec (.gatherReq src txn tk x v hard index) s = .next u ∧
      u.out = s.out ++ [(s.now, ⟨src, myNode s, 0, tk, .gatherAns x.toNat v.toNat (index.filter (· < t.spec.rows)).length
        t.spec.sliceFirst t.spec.sliceWidth
        ((index.filter (· < t.spec.rows)).flatMap fun i =>
          (decodeRow s t.spec v.toNat i).elems.flatMap (outBytes t.spec.outFormat))⟩)]) ∧
  (∀ (src : Node) (txn : W16) (tk : Ticket) (x v hard : W32) (index : List Nat) (s : State), Runs s → findTable s x.toNat = none →
    exec (.gatherReq src txn tk x v hard index) s = .next (ticked s)) ∧
  (∀ (src : Node) (tk : Ticket) (x v : W32) (first width : Nat) (rows : List Byte) (g : Gather) (t : Table) (s : State), Runs s →
    s.gth.gathers = [g] → g.ticket = tk → g.table = x.toNat → g.version = v.toNat → findTable s x.toNat = some t →
    (∀ y ∈ g.slices, y.1 ≠ first) → slicesCover t.spec.dims (g.slices ++ [(first, width, rows)]) = false →
    exec (.gatherAns src tk x v first width rows) s =
      .next { ticked s with gth := { s.gth with gathers := [{ g with slices := g.slices ++ [(first, width, rows)] }] } }) ∧
  ∀ (src : Node) (tk : Ticket) (x v : W32) (first width : Nat) (rows : List Byte) (s : State), Runs s →
    (∀ g ∈ s.gth.gathers, g.ticket = tk → ∃ y ∈ g.slices, y.1 = first) →
    exec (.gatherAns src tk x v first width rows) s = .next (ticked s)

/-- INSERT_APPEND and DELETE_APPEND of a request whose collection may act and that no earlier mutation of the collection
precedes. A manager ticket with a recorded outcome: the request completes with that outcome. INSERT: a vector with a non-
finite element, or a payload shorter than a vector, completes REJECTED_RANGE with detail 0x20; with no free slot it
completes with detail 6 and ins_full rises; else, where the Stockpile has room and no new block is needed, the slot is the
lowest free one, its new state (same gen, live, the record's attributes) enters the pending table at the event's ticket,
the outcome is recorded and the request completes OK with the passage id. DELETE of a live passage of this shard enters
the state with tombstone set; of a deleted one it completes OK; of any other, REJECTED_RANGE with detail 0x28.
PENDING_DRAIN takes out exactly the changes that no running step precedes. [R148, R295, R298, R300] -/
def Obligations.MutationsAreApplied : Prop :=
  (∀ (t : Ticket) (r : Req) (c : Coll) (s : State), Runs s → findReq s t = some r → collReady s r.desc.coll = some c →
    r.place = .mutation → earlierMutation s r = false → r.boss = none → r.dec = none →
    (∀ (o : Outcome) (i : Instr), recordedOutcome c r.mgr = some o →
      (i = .insertAppend t ∧ r.desc.type = 7 ∨ i = .deleteAppend t ∧ r.desc.type = 8) →
      ∃ u, exec i s = .next u ∧ findReq u t = none ∧
        ∃ k : Comp, u.wb.holdback = s.wb.holdback ++ [k] ∧ k.ticket = t ∧ k.status = o.status) ∧
    (r.desc.type = 7 → recordedOutcome c r.mgr = none →
      (r.payload.length < c.vecLen → ∃ u, exec (.insertAppend t) s = .next u ∧ findReq u t = none ∧ findColl u c.id = some c ∧
        ∃ k : Comp, u.wb.holdback = s.wb.holdback ++ [k] ∧ k.ticket = t ∧ k.status = 5 ∧ k.detail = 0x20) ∧
      (c.vecLen ≤ r.payload.length → (vecOf c.spec.vecFormat (r.payload.take c.vecLen)).all f32IsFin = true →
        (lowestSlot c (fun n => (slotNow s c n).isFree) = none →
          ∃ u, exec (.insertAppend t) s = .next u ∧ findReq u t = none ∧ findColl u c.id = some c ∧
            u.srch.insFull = satInc s.srch.insFull ∧
            ∃ k : Comp, u.wb.holdback = s.wb.holdback ++ [k] ∧ k.ticket = t ∧ k.status = 5 ∧ k.detail = 6) ∧
        ∀ n, lowestSlot c (fun n => (slotNow s c n).isFree) = some n → screeRoom s c = true →
          opensBlock s c.id r.desc.tenant (r.payload.drop c.vecLen).length = false → pendingFull s = false → insertRoom s r = true →
          ∃ u d, exec (.insertAppend t) s = .next u ∧ findReq u t = none ∧ findColl u c.id = some d ∧
            d.pending = c.pending ++
              [⟨ticketNext s, n, ⟨(slotNow s c n).gen, true, false, recAttr (r.payload.drop c.vecLen)⟩⟩] ∧
            d.screeTail = (if c.par.degree = 0 then c.screeTail else c.screeTail + 1) ∧
            d.recorded = c.recorded ++ [(r.mgr, 0, passageId (slotNow s c n).gen c.spec.shard n)] ∧
            ∃ k : Comp, u.wb.holdback = s.wb.holdback ++ [k] ∧ k.ticket = t ∧ k.status = 0 ∧
              k.result0 = passageId (slotNow s c n).gen c.spec.shard n)) ∧
    (r.desc.type = 8 → recordedOutcome c r.mgr = none → ∀ id : W64, id = BitVec.ofNat 64 r.desc.object →
      (shardOf id = c.spec.shard → localSlot id < c.spec.slots → (slotNow s c (localSlot id)).gen = genOf id →
        ((slotNow s c (localSlot id)).isLive = true → pendingFull s = false → bufferRoom s (sysCtrl s) 64 = true →
          ∃ u d, exec (.deleteAppend t) s = .next u ∧ findReq u t = none ∧ findColl u c.id = some d ∧
            d.pending = c.pending ++ [⟨ticketNext s, localSlot id, { slotNow s c (localSlot id) with tomb := true }⟩] ∧
            d.recorded = c.recorded ++ [(r.mgr, 0, 0)] ∧
            ∃ k : Comp, u.wb.holdback = s.wb.holdback ++ [k] ∧ k.ticket = t ∧ k.status = 0) ∧
        ((slotNow s c (localSlot id)).isLive = false → (slotNow s c (localSlot id)).isDeleted = true →
          ∃ u, exec (.deleteAppend t) s = .next u ∧ findReq u t = none ∧ findColl u c.id = some c ∧
            ∃ k : Comp, u.wb.holdback = s.wb.holdback ++ [k] ∧ k.ticket = t ∧ k.status = 0)) ∧
      (shardOf id ≠ c.spec.shard →
        ∃ u, exec (.deleteAppend t) s = .next u ∧ findReq u t = none ∧ findColl u c.id = some c ∧
          ∃ k : Comp, u.wb.holdback = s.wb.holdback ++ [k] ∧ k.ticket = t ∧ k.status = 5 ∧ k.detail = 0x28))) ∧
  ∀ (id : Nat) (c : Coll) (s : State), Runs s → findColl s id = some c →
    ∃ u, exec (.pendingDrain id) s = .next u ∧
      u = { s with mem.cells := u.mem.cells
                   srch.colls := s.srch.colls.map fun d =>
                     if d.id = c.id then
                       { c with pending := c.pending.filter fun p => s.job.steps.any fun k => ticketLt k.start p.ticket } else d }

/-- FOLD_START with a FOLD request waiting, of a collection that holds no fold, no old version and no compaction: where there
is nothing to fold the request completes OK with the present version as result0; where there is and degree is 0, the
collection holds a running fold of the event's ticket with no units at all; at another degree, one whose repair set and
deleted set are those of the event's ticket and whose end is the largest the overlay has room for, or, where even the
repairs do not fit, the request completes REJECTED_RANGE with detail 6. Where a fold of the collection runs already, or
none is asked for, nothing happens. FOLD_UNIT_COMMIT of a running fold with units left appends one UNIT entry to the fold
journal and counts the unit. FOLD_PUBLISH of a fold past its last unit whose publication is committed, while no SEARCH
step runs: the version is one more, the fold is gone, the version before stands as the old one with the fold's deleted
set, and the request completes OK with the new version as result0; while a SEARCH step runs, the version stays. [R303,
R305, R306, R307, R311, R411] -/
def Obligations.FoldsRunByUnitsAndPublish : Prop :=
  (∀ (id : Nat) (c : Coll) (r : Req) (s : State), Runs s → collReady s id = some c → nextFold s id = some r →
    findReq s r.ticket = some r → recordedOutcome c r.mgr = none → c.old = none → c.compacting = false → c.fold = none →
    r.boss = none → r.dec = none →
    (nothingToFold s c = true → ∃ u, exec (.foldStart id) s = .next u ∧ findReq u r.ticket = none ∧ findColl u id = some c ∧
      ∃ k : Comp, u.wb.holdback = s.wb.holdback ++ [k] ∧ k.ticket = r.ticket ∧ k.status = 0 ∧ k.result0 = BitVec.ofNat 64 c.version) ∧
    (nothingToFold s c = false → ∀ f : Fold,
      f = { ticket := ticketNext s, request := r.ticket, eEnd := c.screeTail, step := 4, next := 0, units := 0, repair := [],
            deleted := deletedAt s c (ticketNext s), records := [], running := true, committed := false } →
      (c.par.degree = 0 → ∃ u, exec (.foldStart id) s = .next u ∧ findReq u r.ticket = some r ∧
        findColl u id = some { c with folded := true, fold := some { f with eEnd := 0, step := 7 } }) ∧
      (c.par.degree ≠ 0 →
        (∀ e, foldEnd c (overlayRecords s c) (repairSet s c f).length c.screeTail = some e →
          ∃ u g, exec (.foldStart id) s = .next u ∧ findReq u r.ticket = some r ∧ (findColl u id).map (·.fold) = some (some g) ∧
            g = { f with repair := repairSet s c f, eEnd := e, step := if repairSet s c f = [] then 5 else 4 }) ∧
        (overlayRecords s c < (repairSet s c f).length →
          ∃ u, exec (.foldStart id) s = .next u ∧ findReq u r.ticket = none ∧
            ∃ k : Comp, u.wb.holdback = s.wb.holdback ++ [k] ∧ k.ticket = r.ticket ∧ k.status = 5 ∧ k.detail = 6)))) ∧
  (∀ (id : Nat) (s : State), Runs s → (∀ c, findColl s id = some c → foldRuns c = true ∨ nextFold s id = none) →
    exec (.foldStart id) s = .next s) ∧
  (∀ (id : Nat) (c : Coll) (f : Fold) (s : State), Runs s → collReady s id = some c → c.fold = some f → f.running = true →
    f.step < 7 → bufferRoom s (sysCtrl s) 64 = true →
    ∃ u e g, exec (.foldUnitCommit id) s = .next u ∧ u.stk.foldJournal = s.stk.foldJournal ++ [e] ∧ e.coll = c.id ∧ e.kind = 2 ∧
      e.fold = f.ticket ∧ e.number = f.units ∧ findColl u id = some { c with fold := some g } ∧ g.units = f.units + 1 ∧
      g.ticket = f.ticket ∧ g.eEnd = f.eEnd ∧ u.mem = s.mem ∧ u.wb = s.wb) ∧
  (∀ (id : Nat) (c : Coll) (f : Fold) (r : Req) (s : State), Runs s → collReady s id = some c → c.fold = some f →
    f.running = true → f.step = 7 → f.committed = true → findReq s f.request = some r → r.boss = none → r.dec = none →
    (searchRunning s = true → exec (.foldPublish id) s = .next s) ∧
    (searchRunning s = false → ∃ u d, exec (.foldPublish id) s = .next u ∧ findReq u r.ticket = none ∧ findColl u id = some d ∧
      d.version = c.version + 1 ∧ d.fold = none ∧ d.overlay = f.records ∧
      d.old = some ⟨c.version, c.screeBase, c.entry, f.deleted, f.ticket⟩ ∧
      d.screeBase = (if c.par.degree = 0 then c.screeBase else f.eEnd) ∧ d.screeTail = c.screeTail ∧ d.pending = c.pending ∧
      ∃ k : Comp, u.wb.holdback = s.wb.holdback ++ [k] ∧ k.ticket = r.ticket ∧ k.status = 0 ∧
        k.result0 = BitVec.ofNat 64 (c.version + 1)))

/-- VERSION_RETIRE of a collection with an old version that is not being compacted: while a step or a request holds that
version nothing happens; otherwise compaction begins, the old version's deleted set is empty, the pending changes of its
slots are gone and so are those slots' passage records. COMPACTION_DONE: the overlay is empty, the old version gone, a
DONE entry of its fold stands in the journal, and an uncommitted checkpoint of the present version stands.
CHECKPOINT_COMMIT with a block free and room in the buffer: the committed checkpoint is the only one of the collection and
no log entry of it before the checkpoint's start is left; with no block free, the checkpoint is dropped with a record of
type 0x33. COLLECTION_RESTORE with the Stockpile ready waits for a lower collection; with no log and no fold journal it
gives the last committed checkpoint's version, entry, Scree bounds and recorded outcomes, and without one an empty
collection. [R306, R307, R404, R409, R410] -/
def Obligations.VersionsRetireAndAreRestored : Prop :=
  (∀ (id : Nat) (c : Coll) (o : OldVersion) (s : State), Runs s → collReady s id = some c → c.old = some o →
    (c.compacting = false →
      (versionHeld s id o.version = true → exec (.versionRetire id) s = .next s) ∧
      (versionHeld s id o.version = false →
        ∃ u, exec (.versionRetire id) s = .next u ∧
          findColl u id = some { c with pending := c.pending.filter (fun p => !o.deleted.contains p.slot)
                                        old := some { o with deleted := [] }
                                        compacting := true } ∧
          (∀ r ∈ u.stk.records, r.coll = c.id → r.slot ∉ o.deleted) ∧
          (∀ r ∈ s.stk.records, r.coll ≠ c.id ∨ r.slot ∉ o.deleted → r ∈ u.stk.records))) ∧
    (c.compacting = true →
      exec (.versionRetire id) s = .next s ∧
      ∃ u e k, exec (.compactionDone id) s = .next u ∧
        findColl u id = some { c with overlay := [], compacting := false, old := none } ∧
        u.stk.foldJournal = s.stk.foldJournal ++ [e] ∧ e.coll = c.id ∧ e.kind = 4 ∧ e.fold = o.fold ∧
        k ∈ u.stk.checkpoints ∧ k.coll = c.id ∧ k.committed = false ∧ k.version = c.version ∧ k.start = ticketNext s ∧
        k.screeBase = c.screeBase ∧ k.screeTail = c.screeTail ∧ k.entry = c.entry ∧ k.recorded = c.recorded)) ∧
  (∀ (id : Nat) (c : Coll) (k : Checkpoint) (s : State), Runs s → collReady s id = some c →
    s.stk.checkpoints.find? (fun k => k.coll == id && !k.committed) = some k →
    (anyFreeBlock s = true → bufferRoom s (sysCtrl s) 64 = true →
      ∃ u j, exec (.checkpointCommit id) s = .next u ∧ (u.stk.checkpoints.filter fun x => x.coll = id) = [j] ∧ j.committed = true ∧
        j.start = k.start ∧ j.version = k.version ∧ j.screeBase = k.screeBase ∧ j.screeTail = k.screeTail ∧ j.entry = k.entry ∧
        j.recorded = k.recorded ∧ (∀ e ∈ u.stk.logs, e.coll = id → ticketLt e.stamped k.start = false) ∧ u.srch = s.srch) ∧
    (anyFreeBlock s = false → exec (.checkpointCommit id) s = .next (event (ticketNext s) 0x33 devLoc id 1 0 0 []
      { ticked s with stk.checkpoints := s.stk.checkpoints.filter fun x => x.coll != id || x.committed }))) ∧
  ∀ (id : Nat) (c : Coll) (s : State), Runs s → findColl s id = some c → c.restoring = true → s.stk.ready = true →
    ((∃ d ∈ s.srch.colls, d.restoring = true ∧ d.id < id) → exec (.collectionRestore id) s = .next s) ∧
    ((∀ d ∈ s.srch.colls, d.restoring = true → id ≤ d.id) → (∀ e ∈ s.stk.logs, e.coll ≠ id) → (∀ e ∈ s.stk.foldJournal, e.coll ≠ id) →
      (∀ k, (s.stk.checkpoints.filter fun x => x.coll == id && x.committed).getLast? = some k →
        ∃ u, exec (.collectionRestore id) s = .next u ∧
          findColl u id = some { c with version := k.version, entry := k.entry, screeBase := k.screeBase, screeTail := k.screeTail
                                        recorded := k.recorded, old := none, overlay := [], compacting := false, fold := none
                                        pending := [], restoring := false }) ∧
      ((∀ k ∈ s.stk.checkpoints, k.coll = id → k.committed = false) →
        ∃ u, exec (.collectionRestore id) s = .next u ∧ u.mem = s.mem ∧
          findColl u id = some { c with version := 0, entry := none, screeBase := 0, screeTail := 0, recorded := [], old := none
                                        overlay := [], compacting := false, fold := none, pending := [], restoring := false }))

/-- PAGE_MOVE_START of an engine with fewer than eight moves while a point runs, where a page may start: the page takes the
lowest free frame of its destination, is in motion, and leaves the list of pages to move; where no point runs, the engine
has eight moves, or no page may start, nothing happens. PAGE_SWITCH of a page in motion, of which nothing waits and others
are still to move: the destination is the page's home, its words are copied there, and the move is gone. A switch past 50
microseconds does nothing, nor does HAUL_ABORT before: past it, the page keeps its home, is not in motion, haul_abort
rises, and a record of type 0x15 names the page. [R378, R379, R380] -/
def Obligations.PagesMove : Prop :=
  (∀ (engine : Nat) (s : State), Runs s →
    (∀ x f, s.haul.running ≠ none → (s.haul.moves.filter (·.engine == engine)).length < 8 → nextMove s engine = some x →
      lowestFrame s x.2.1 x.2.2 = some f →
      exec (.pageMoveStart engine) s = .next { ticked s with
        haul.todo := s.haul.todo.filter (·.1 != x.1)
        haul.moves := s.haul.moves ++ [⟨engine, x.1, x.2.1, x.2.2, f, s.now, []⟩]
        mem.pages := s.mem.pages.map fun p => if p.page = x.1 then { p with motion := true } else p }) ∧
    (s.haul.running = none ∨ 8 ≤ (s.haul.moves.filter (·.engine == engine)).length ∨ nextMove s engine = none →
      exec (.pageMoveStart engine) s = .next s)) ∧
  (∀ (page : Nat) (m : Move) (p : Page) (s : State), Runs s → s.haul.moves.find? (·.page == page) = some m →
    (past s m.since 50000 = false → exec (.haulAbort page) s = .next s ∧
      (s.mem.pages.find? (fun p => p.page == page && p.motion) = some p → m.waiting = [] → s.haul.todo ≠ [] →
        exec (.pageSwitch page) s = .next { ticked s with
          haul.moves := s.haul.moves.filter (·.page != page)
          mem.cells := (copyFrame p m (pageBytes / 4) s).mem.cells
          mem.pages := s.mem.pages.map fun q =>
            if q.page = page then { q with tier := m.tier, unit := m.unit, frame := m.frame, motion := false } else q })) ∧
    (past s m.since 50000 = true → exec (.pageSwitch page) s = .next s ∧
      (m.waiting = [] → s.haul.todo ≠ [] →
        exec (.haulAbort page) s = .next (event (ticketNext s) 0x15 devLoc s.haul.pointId.toNat 1 0 (BitVec.ofNat 64 page) []
          { ticked s with
            haul.moves := s.haul.moves.filter (·.page != page)
            mem.haulAbort := satInc s.mem.haulAbort
            mem.pages := s.mem.pages.map fun p => if p.page = page then { p with motion := false } else p })))) ∧
  ∀ (page : Nat) (s : State), Runs s → (∀ m ∈ s.haul.moves, m.page ≠ page) →
    exec (.pageSwitch page) s = .next s ∧ exec (.haulAbort page) s = .next s

/-- MEM_RD and MEM_WR, where no page of the range moves: an address or length that breaks its rule is answered MEM_ALIGN, a
range with an unmapped page MEM_UNMAPPED, a write into a closed region MEM_REFUSED, a read of a range with a poisoned word
MEM_POISONED, each with nothing written; any other read, with no bit in error, is answered MEM_OK with the bytes of its
range and changes no byte, and any other write is answered MEM_REFUSED, with nothing written, where it would leave a whole
weight object with a scale table or a digest that fails its check (log 49), and else MEM_OK: every cell outside the words
of its range is as before, a one-word write is read back as written, without poison, every weight object it does not touch
is as before, and one it touches and leaves whole passes the scale check and carries the digest of its contents, which
equals every digest that a plan names for it. An access to a page in motion waits and motion_waits rises. SCRUB of a word
with no bit in error changes nothing; of one whose error a read corrects, and which then reads clean, writes it back
corrected and ecc_corrected rises; of one that no read corrects, writes it back poisoned with its data bits unchanged,
ecc_uncorrected rises, and a record of type 0x11 is queued. [R365, R376, R377, R452, R61, R176] -/
def Obligations.MemoryIsReadAndWritten : Prop :=
  (∀ (src : Node) (txn : W16) (addr : W64) (len : W32) (data : List Byte) (s : State), Runs s →
    (accessAligned addr len = false →
      exec (.memRd src txn addr len []) s = .next (send src txn 0 (.rdData 4 []) (ticked s)) ∧
      exec (.memWr src txn addr len data) s = .next (send src txn 0 (.wrAck 4) (ticked s))) ∧
    (accessAligned addr len = true → s.pwr.state < 3 →
      (rangeMapped s addr.toNat len.toNat = false →
        exec (.memRd src txn addr len []) s = .next (send src txn 0 (.rdData 1 []) (ticked s)) ∧
        (data.length = len.toNat → exec (.memWr src txn addr len data) s = .next (send src txn 0 (.wrAck 1) (ticked s)))) ∧
      (rangeMapped s addr.toNat len.toNat = true →
        (rangeMove s addr.toNat len.toNat = none →
          exec (.memRd src txn addr len []) s = .next (send src txn 0
            (if (peekBytes s addr.toNat len.toNat).2 then .rdData 3 [] else .rdData 0 (peekBytes s addr.toNat len.toNat).1) (ticked s))) ∧
        (data.length = len.toNat → writeClosed s addr.toNat len.toNat = true →
          exec (.memWr src txn addr len data) s = .next (send src txn 0 (.wrAck 2) (ticked s))) ∧
        (data.length = len.toNat → writeClosed s addr.toNat len.toNat = false → rangeMove s addr.toNat len.toNat = none →
          (noteWrite addr.toNat len.toNat (pokeBytes addr.toNat data (ticked s)) = none →
            exec (.memWr src txn addr len data) s = .next (send src txn 0 (.wrAck 2) (ticked s))) ∧
          ∀ t, noteWrite addr.toNat len.toNat (pokeBytes addr.toNat data (ticked s)) = some t →
            ∃ u, exec (.memWr src txn addr len data) s = .next u ∧
              u = send src txn 0 (.wrAck 0) { ticked s with mem.cells := u.mem.cells, mem.objs := u.mem.objs } ∧
              (∀ a, Memory.wf s → (∀ b < len.toNat, ∀ p, locate s ((addr.toNat + b) / 4 * 4) = some p →
                  (a < (wordCells s p.1 p.2.1 p.2.2).1 ∨ (wordCells s p.1 p.2.1 p.2.2).1 + 4 ≤ a) ∧ a ≠ (wordCells s p.1 p.2.1 p.2.2).2) →
                cellGet unwritten u.mem.cells a = cellGet unwritten s.mem.cells a) ∧
              (∀ p, Memory.wf s → len = 4 → locate s addr.toNat = some p → unitUp s p.1 p.2.1 = true → p.2.2 < 0xC00000000 →
                peekBytes u addr.toNat 4 = (data, false)) ∧
              u.mem.objs.map (·.place) = s.mem.objs.map (·.place) ∧
              (∀ o ∈ s.mem.objs, meetsWeights addr.toNat len.toNat o = none → o ∈ u.mem.objs) ∧
              ∀ o ∈ u.mem.objs, (meetsWeights addr.toNat len.toNat o).isSome = true → o.whole = true →
                scaleTableOk u o = true ∧ o.digest = some (contentDigest u o) ∧
                ∀ d ∈ namedDigests s o, some d = o.digest) ∧
        ∀ m, rangeMove s addr.toNat len.toNat = some m →
          exec (.memRd src txn addr len []) s = .next (waitMove m (.memRd src txn addr len []) (ticked s)) ∧
          (data.length = len.toNat → writeClosed s addr.toNat len.toNat = false →
            exec (.memWr src txn addr len data) s = .next (waitMove m (.memWr src txn addr len data) (ticked s)))))) ∧
  ∀ (tier unit off : Nat) (us : List Upset) (s : State), Runs s →
    ((∀ x ∈ us, x.tier = tier → x.unit = unit → x.off ≠ off) → exec (.scrub tier unit off us) s = .next s) ∧
    ∀ x, us.find? (fun u => u.tier == tier && u.unit == unit && u.off == off) = some x → unitUp s tier unit = true →
      (∀ d p, eccRead (rawWord s tier unit off ^^^ x.mask) = .clean d p → exec (.scrub tier unit off us) s = .next s) ∧
      (∀ d p, eccRead (rawWord s tier unit off ^^^ x.mask) = .corrected d p → x.lasting = false → eccRead (w40 d p) = .clean d p →
        exec (.scrub tier unit off us) s = .next { putWord tier unit off (w40 d p) s with
          mem.eccCorrected := satInc s.mem.eccCorrected }) ∧
      (eccRead (rawWord s tier unit off ^^^ x.mask) = .uncorrectable →
        exec (.scrub tier unit off us) s = .next (event (ticketNext s) 0x11 (wordLoc s tier unit off) 0 1 8 (BitVec.ofNat 64 off) []
          (ticked { s with mem.cells :=
                            (putWord tier unit off (w40 (W40.data (rawWord s tier unit off ^^^ x.mask)) true) s).mem.cells
                           mem.eccUncorrected := satInc s.mem.eccUncorrected })))

/-- For every 32 data bits and poison bit: the stored word reads clean with its data and poison; with any one of its 40 bits
inverted, it reads corrected with the same data and poison; with any two different bits inverted, it reads uncorrectable.
So no error of one or two bits gives other data without notice. [R373, R374, R375] -/
def Obligations.SingleErrorsAreCorrected : Prop :=
  ∀ (d : W32) (p : Bool), eccRead (w40 d p) = .clean d p ∧
    (∀ i < 40, eccRead (w40 d p ^^^ (1#40 <<< i)) = .corrected d p) ∧
    ∀ i < 40, ∀ j < i, eccRead (w40 d p ^^^ (1#40 <<< i) ^^^ (1#40 <<< j)) = .uncorrectable

/-- BUFFER_PROGRAM of a waiting entry, with no journal tail to take in: into the SLC buffer where its target is above zero and
it has room and a block, else into the log block of the entry's logical block; with the Stockpile not ready nothing
happens. PROGRAM_DONE: passed, the entry is gone from the buffer; failed, it stays and waits again, pe_fail rises, and a
block without a failure mark takes one. ERASE_DONE: passed, the block is free; failed once, it is tried again; failed
twice, it is retired. A block that is retired counts in blk_retired. NAND_READ: at the default level nothing happens; at
levels 1 to 7 rd_retry_ok rises; where none decodes, rd_fail rises and every record in the page is poisoned. STK_FORMAT,
granted, sets cmd_code as its checks say and begins only where they pass; FORMAT_DONE leaves the Stockpile ready, with
nothing stored and the parameter kept. That a block awaiting erasure is used no more and takes its lowest number first is
the model's own (log 11). [R397, R402, R403, R422] -/
def Obligations.WritesReachTheNand : Prop :=
  (∀ (ctrl id : Nat) (e : BufEnt) (s : State), Runs s → s.stk.ready = true → ctrlClock s ctrl = true → s.wb.tail = 0 →
    (getCtrl s ctrl).buf.find? (fun e => e.id == id && e.target.isNone) = some e →
    (∀ b, 0 < (getCtrl s ctrl).slcTarget → slcUsed (getCtrl s ctrl) + e.bytes ≤ (getCtrl s ctrl).slcTarget → slcBlock (getCtrl s ctrl) = some b →
      exec (.bufferProgram ctrl id) s = .next
        (setCtrl ctrl (setEntry { e with target := some b.no } (setBlock { b with use := .slc } (getCtrl s ctrl))) s)) ∧
    ∀ d l, (getCtrl s ctrl).slcTarget < slcUsed (getCtrl s ctrl) + e.bytes → dataBlock (getCtrl s ctrl) (bufKey e) = some d →
      logFor s (getCtrl s ctrl) (bufKey e) d.lun = some l →
      exec (.bufferProgram ctrl id) s = .next (setCtrl ctrl (setEntry { e with target := some l.block }
        (putLog { l with lblock := some (bufKey e), last := s.now } (getCtrl s ctrl))) s)) ∧
  (∀ (ctrl id : Nat) (s : State), Runs s → s.stk.ready = false → exec (.bufferProgram ctrl id) s = .next s) ∧
  (∀ (ctrl id b : Nat) (e : BufEnt) (s : State), Runs s → (getCtrl s ctrl).buf.find? (·.id == id) = some e → e.target = some b →
    (∃ u, exec (.programDone ctrl id true) s = .next u ∧ (getCtrl u ctrl).buf = (getCtrl s ctrl).buf.filter (·.id != id) ∧
      (getCtrl u ctrl).blocks = (getCtrl s ctrl).blocks ∧ (getCtrl u ctrl).deltas = (getCtrl s ctrl).deltas + 16 ∧
      u = { s with stk.ctrls := u.stk.ctrls }) ∧
    ∀ x, (getCtrl s ctrl).blocks.find? (·.no == b) = some x → x.failMark = false →
      exec (.programDone ctrl id false) s = .next { setCtrl ctrl (setBlock { x with failMark := true }
        (setEntry { e with target := none } (getCtrl s ctrl))) s with stk.peFail := satInc s.stk.peFail }) ∧
  (∀ (ctrl block : Nat) (b : StkBlock) (s : State), Runs s →
    (getCtrl s ctrl).blocks.find? (fun b => b.no == block && b.use == .toErase) = some b →
    exec (.eraseDone ctrl block true) s =
      .next (setCtrl ctrl (setBlock { b with use := .free, eraseTried := false, lblock := none } (getCtrl s ctrl)) s) ∧
    (b.eraseTried = false → exec (.eraseDone ctrl block false) s = .next
      { setCtrl ctrl (setBlock { b with eraseTried := true } (getCtrl s ctrl)) s with stk.peFail := satInc s.stk.peFail }) ∧
    (b.eraseTried = true → b.lblock = none → ∃ u, exec (.eraseDone ctrl block false) s = .next u ∧ u.stk.peFail = satInc s.stk.peFail ∧
      u.stk.blkRetired = satInc s.stk.blkRetired ∧ ∃ x ∈ (getCtrl u ctrl).blocks, x.no = block ∧ x.use = .retired)) ∧
  (∀ (ctrl block page : Nat) (b : StkBlock) (s : State), Runs s → (getCtrl s ctrl).blocks.find? (·.no == block) = some b →
    b.use ≠ .retired →
    exec (.nandRead ctrl block page (some 0)) s = .next s ∧
    (∀ l ∈ [1, 2, 3, 4, 5, 6, 7], ∃ u, exec (.nandRead ctrl block page (some l)) s = .next u ∧
      u.stk.rdRetryOk = satInc s.stk.rdRetryOk ∧ u.stk.records = s.stk.records) ∧
    ∃ u, exec (.nandRead ctrl block page none) s = .next u ∧ u.stk.rdFail = satInc s.stk.rdFail ∧
      ∀ l r, b.lblock = some l → r ∈ u.stk.records → r.block = l → r.off < page * 16384 + 16384 → page * 16384 < r.off + r.bytes.length →
        r.poisoned = true) ∧
  (∀ (c : Cmd) (n : Byte) (confirm : W32) (s : State), Granted c s →
    (formatCode s n.toNat confirm.toNat ≠ 0 → exec (.stkFormat c n confirm) s =
      .next { taken c rStkCmd (formatData n confirm) s with stk.cmdCode := BitVec.ofNat 8 (formatCode s n.toNat confirm.toNat) }) ∧
    (formatCode s n.toNat confirm.toNat = 0 → exec (.stkFormat c n confirm) s =
      .next { taken c rStkCmd (formatData n confirm) s with
        stk.cmdCode := 0, stk.formatting := some (if n = 0 then 64 else n.toNat), stk.ready := false }) ∧
    (s.job.phase ≠ 0 → formatCode s n.toNat confirm.toNat = 1) ∧
    (s.job.phase = 0 → s.stk.formatting = none → heldSets s = [] → s.srch.colls = [] →
      (confirm ≠ 0x53544B46 → formatCode s n.toNat confirm.toNat = 2) ∧
      (confirm = 0x53544B46 → n ≠ 0 → n.toNat < 16 → formatCode s n.toNat confirm.toNat = 6))) ∧
  ∀ (bad : List (Nat × Nat)) (s : State), Runs s →
    (∀ n p, s.stk.formatting = some n → s.stk.pop = some p →
      ∃ u, exec (.formatDone bad) s = .next u ∧ u.stk.ready = true ∧ u.stk.formatting = none ∧ u.stk.formatted = some n ∧
        u.stk.cmdCode = 0 ∧ u.stk.records = [] ∧ u.stk.recBlocks = [] ∧ u.stk.logs = [] ∧ u.stk.foldJournal = [] ∧
        u.stk.checkpoints = [] ∧ u.stk.ctrls.length = 2 ∧
        (∀ i < 2, (getCtrl u i).blocks = formatBlocks p i n bad ∧ (getCtrl u i).buf = [] ∧
          (getCtrl u i).capMib = bufferCap p (ctrlRate p i)) ∧
        u = { s with stk := u.stk }) ∧
    (s.stk.formatting = none → exec (.formatDone bad) s = .next s)

/-- SLC_TARGET_RECOMPUTE a second after the last one sets the target that R398's table gives for the fill level, zero on an
SLC part; sooner it does nothing. SLC_IDLE_MOVE, where R398 calls for a move, takes the oldest buffered entry into its log
block. LOG_BLOCK_MERGE of a due log block that holds every page in ascending order makes it the data block and leaves
merges_full; of any other due one, with a block free, merges_full rises. A merge that is not due does nothing.
MAP_DELTA_PROGRAM at 32 MiB of deltas, or with some a second after the last program, leaves none and counts the programs
to 64, where an image is written; else it does nothing. RECORD_BLOCK_CLEAN of a closed block with live bytes below a
quarter: the block is gone, and each of its live records is still there with its bytes; of an open one or one a quarter
full it does nothing. [R398, R399, R400, R407] -/
def Obligations.TheStockpileKeepsItsRoom : Prop :=
  (∀ (ctrl : Nat) (p : NandPop) (s : State), Runs s → s.stk.pop = some p →
    (s.stk.ready = true → past s (getCtrl s ctrl).slcAt 1000000000 = true →
      exec (.slcTargetRecompute ctrl) s = .next (setCtrl ctrl { getCtrl s ctrl with
        slcTarget := if p.cell = 0 then 0 else slcTargetOf (validBytes s ctrl) (userBytes s ctrl), slcAt := s.now } s)) ∧
    (past s (getCtrl s ctrl).slcAt 1000000000 = false → exec (.slcTargetRecompute ctrl) s = .next s)) ∧
  (∀ d u : Nat, (4 * d < u → slcTargetOf d u = 6 * u / 100) ∧ (u ≤ 4 * d → 2 * d < u → slcTargetOf d u = 4 * u / 100) ∧
    (u ≤ 2 * d → 4 * d < 3 * u → slcTargetOf d u = 2 * u / 100) ∧ (3 * u ≤ 4 * d → 10 * d < 9 * u → slcTargetOf d u = u / 100) ∧
    (9 * u ≤ 10 * d → slcTargetOf d u = u / 400)) ∧
  (∀ (ctrl : Nat) (e : BufEnt) (rest : List BufEnt) (s : State), Runs s → (getCtrl s ctrl).slcHeld = e :: rest → s.stk.ready = true →
    (slcMoves s (getCtrl s ctrl) = false → exec (.slcIdleMove ctrl) s = .next s) ∧
    (slcMoves s (getCtrl s ctrl) = true → ∀ d l, dataBlock (getCtrl s ctrl) (bufKey e) = some d →
      logFor s (getCtrl s ctrl) (bufKey e) d.lun = some l →
      ∃ u, exec (.slcIdleMove ctrl) s = .next u ∧ (getCtrl u ctrl).slcHeld = rest ∧
        (getCtrl u ctrl).deltas = (getCtrl s ctrl).deltas + 16 ∧
        (getCtrl u ctrl).logs = (getCtrl s ctrl).logs.map (fun x =>
          if x.block = l.block then { l with lblock := some (bufKey e), pages := l.pages ++ [e.page], last := s.now } else x) ∧
        u = { s with stk.ctrls := u.stk.ctrls })) ∧
  (∀ (ctrl log : Nat) (l : LogBlock) (b d : StkBlock) (s : State), Runs s → (getCtrl s ctrl).logs.find? (·.block == log) = some l →
    (getCtrl s ctrl).blocks.find? (·.no == log) = some b → l.lblock.bind (dataBlock (getCtrl s ctrl)) = some d →
    (mergeDue s (getCtrl s ctrl) l b.lun = false → exec (.logBlockMerge ctrl log) s = .next s) ∧
    (mergeDue s (getCtrl s ctrl) l b.lun = true → d.no ≠ log →
      (l.pages = List.range (blockPages s) → ∃ u, exec (.logBlockMerge ctrl log) s = .next u ∧ u.stk.mergesFull = s.stk.mergesFull ∧
        (getCtrl u ctrl).blocks.find? (·.no == log) = some { b with use := d.use, lblock := d.lblock } ∧
        u = { s with stk.ctrls := u.stk.ctrls }) ∧
      (l.pages ≠ List.range (blockPages s) → ∀ f, lunFree (getCtrl s ctrl) b.lun = some f →
        ∃ u, exec (.logBlockMerge ctrl log) s = .next u ∧ u.stk.mergesFull = satInc s.stk.mergesFull ∧
          (getCtrl u ctrl).blocks.find? (·.no == f.no) = some { f with use := d.use, lblock := d.lblock }))) ∧
  (∀ (ctrl : Nat) (s : State), Runs s → s.stk.ready = true →
    ((32 * mib ≤ (getCtrl s ctrl).deltas ∨ 0 < (getCtrl s ctrl).deltas ∧ past s (getCtrl s ctrl).deltaAt 1000000000 = true) →
      exec (.mapDeltaProgram ctrl) s = .next (setCtrl ctrl { getCtrl s ctrl with
        deltas := 0, fresh := [], deltaAt := s.now, deltaPrograms := ((getCtrl s ctrl).deltaPrograms + 1) % 64,
        fullImages := if (getCtrl s ctrl).deltaPrograms = 63 then (getCtrl s ctrl).fullImages + 1 else (getCtrl s ctrl).fullImages } s)) ∧
    ((getCtrl s ctrl).deltas < 32 * mib → past s (getCtrl s ctrl).deltaAt 1000000000 = false →
      exec (.mapDeltaProgram ctrl) s = .next s)) ∧
  ∀ (block : Nat) (b : RecBlock) (s : State), Runs s → s.stk.recBlocks.find? (fun b => b.id == block && !b.openNow) = some b →
    (blockBytes s ≤ 4 * liveBytes s block → exec (.recordBlockClean block) s = .next s) ∧
    (s.stk.ready = true → 4 * liveBytes s block < blockBytes s → (s.stk.records.map fun r => (r.coll, r.slot)).Nodup →
      s.wb.seq.toNat + s.stk.records.length < 0xFFF000000000 →
      ∃ u, exec (.recordBlockClean block) s = .next u ∧ (∀ x ∈ u.stk.recBlocks, x.id ≠ block) ∧
        ∀ r ∈ s.stk.records, ∃ q ∈ u.stk.records, q.coll = r.coll ∧ q.slot = r.slot ∧ q.gen = r.gen ∧ q.bytes = r.bytes ∧
          (r.poisoned = true → q.poisoned = true))

/-- BOOT does nothing unless the device is held in reset with the power good; without a reference clock it only sets
no_refclk; with an unreadable image it ends in recovery with code 4, with an image that fails a check in recovery with
that check's code, and with a good one in service with the power-cycle count one more, the hours 64 beyond the last
written, last_reset 0 and fw_code 0. PORST of 1 microsecond, and SUPPLY_MONITOR_TRIP of 2 microseconds outside 1,700 to
1,950 mV, hold the device in reset: memory, Bench stores, job, plan sets, the node address, the queue of records and the
collections' versions are lost, the flash, the spare map and the hours are kept, and nothing is sent; shorter pulses and
voltages within the range do nothing. WRST of 1 microsecond and WARM end the job and empty the plan sets, keep the flash,
the recorder queue, the node address and the intake journal, count a power cycle, and end in service or recovery by the
image's check; in PS4 they start the exit to PS0. JOB ends the job, clears the Bench stores and accumulators and sets
last_reset 4, keeping memory, the node address and the power-cycle count. [R542, R544, R545, R548, R550, R551, R581, R586] -/
def Obligations.ResetsAndBoot : Prop :=
  (∀ (b : Board) (s : State),
    (s.life ≠ .held ∨ b.pwrfail = true → exec (.boot b) s = .next s) ∧
    (s.life = .held → b.pwrfail = false →
      (b.refclk = false → exec (.boot b) s = .next { s with clk.noRefclk := true }) ∧
      (b.refclk = true →
        (b.flashReads = false → ∃ u, exec (.boot b) s = .next u ∧ u.life = .recovery ∧ u.rst.fwCode = 4 ∧ u.rst.lastReset = 0) ∧
        (b.flashReads = true → ∀ code, fwCheck b.keySlots (readBoard b s).sec.rollbackMin (flashRead (readBoard b s)) = code →
          (code ≠ 0 → ∃ u, exec (.boot b) s = .next u ∧ u.life = .recovery ∧ u.rst.fwCode = BitVec.ofNat 8 code) ∧
          (code = 0 → ∃ u, exec (.boot b) s = .next u ∧ u.life = .ready ∧ u.wb.powerCycles = s.wb.powerCycles + 1 ∧
            u.log.hours = s.log.hoursFlash + 64 ∧ u.rst.fwCode = 0 ∧ u.rst.lastReset = 0))))) ∧
  (∀ (held v : Nat) (i : Instr) (s : State), s.life ≠ .flushing →
    (i = .porst held ∧ 1000 ≤ held ∨ i = .supplyMonitorTrip v held ∧ 2000 ≤ held ∧ (v < 1700 ∨ 1950 < v ∧ v ≤ 2050)) →
    ∃ u, exec i s = .next u ∧ u.life = .held ∧ u.mem.cells = [] ∧ u.flt.accs = [] ∧ u.flt.store = [] ∧ u.job = {} ∧
      u.cfg.active = none ∧ u.cfg.shadow = none ∧ u.cfg.retiring = none ∧ u.lnk.node = none ∧ u.log.queue = [] ∧ u.out = [] ∧
      u.stk.ready = false ∧ (∀ c ∈ u.srch.colls, c.restoring = true ∧ c.version = 0) ∧ (∀ p ∈ u.mem.pages, p.motion = false) ∧
      u.flt.benches = s.flt.benches ∧ u.mem.remap = s.mem.remap ∧ u.log.hoursFlash = s.log.hoursFlash ∧ u.pending = s.pending ∧
      (s.rst.fwLoad = none → u.log.flash = s.log.flash)) ∧
  (∀ (held v : Nat) (s : State),
    (held < 1000 → exec (.porst held) s = .next s ∧ exec (.wrst held) s = .next s) ∧
    (v ≤ 2050 → held < 2000 ∨ 1700 ≤ v ∧ v ≤ 1950 → exec (.supplyMonitorTrip v held) s = .next s)) ∧
  (∀ (held : Nat) (c : Cmd) (cause : BitVec 3) (i : Instr) (s : State), Granted c s → s.haul.moves = [] → s.rst.fwLoad = none →
    s.wb.seq.toNat + 2 < 0xFFF000000000 →
    (i = .wrst held ∧ 1000 ≤ held ∧ cause = 1 ∨ i = .warm c ∧ cause = 2) →
    ∃ u, exec i s = .next u ∧ u.rst.lastReset = cause ∧ u.job = {} ∧ u.cfg.active = none ∧ u.cfg.shadow = none ∧
      u.cfg.retiring = none ∧ u.flt.accs = [] ∧ u.flt.store = [] ∧ u.log.queue = s.log.queue ∧ u.lnk.node = s.lnk.node ∧
      u.wb.journal = s.wb.journal ∧ u.wb.powerCycles = s.wb.powerCycles + 1 ∧ u.pwr.state = 0 ∧ u.mem.objs ⊆ s.mem.objs ∧
      (fwCheck s.sec.slots s.sec.rollbackMin (flashRead s) = 0 → u.life = .ready) ∧
      (fwCheck s.sec.slots s.sec.rollbackMin (flashRead s) ≠ 0 → u.life = .recovery ∧
        u.rst.fwCode = BitVec.ofNat 8 (fwCheck s.sec.slots s.sec.rollbackMin (flashRead s)) ∧ u.log.flash = s.log.flash)) ∧
  (∀ (held : Nat) (s : State), 1000 ≤ held → s.life = .ready → s.pwr.state = 4 → s.pwr.move = none →
    exec (.wrst held) s = .next { s with pwr.move := some (0, s.now) }) ∧
  ∀ (c : Cmd) (s : State), Granted c s →
    ∃ u, exec (.job c) s = .next u ∧ u.job.phase = 0 ∧
      (s.job.phase ≠ 0 → ∀ r ∈ u.job.reqs, ∃ p a b d, r.place = .acceptance p a b d) ∧
      u.flt.accs = [] ∧ u.flt.store = [] ∧ u.rst.lastReset = 4 ∧ u.mem.cells = s.mem.cells ∧ u.lnk.node = s.lnk.node ∧
      u.wb.powerCycles = s.wb.powerCycles ∧ u.life = s.life

/-- LINK_TRAINING of a training sub-port whose lanes passed and whose far end is a device or a switch of its width: it is UP
with those of its lanes, the far end's kind and node, sequence numbers at 0 unless the retrain keeps them; with a far end
of kind ADAPTER it is down and far_bad is set; with no lane it is down with a record of type 0x21. TRAINING_TIMEOUT before
130 ms does nothing, and after it takes the sub-port down. RETRAIN, granted, trains the configured lanes again with the
sequence state of an UP sub-port kept; PORT_RESET trains them from the start, with sequence numbers at 0 and port_down at
1 where it was not down; PORT_DOWN takes it down and counts it. No other sub-port changes. UNREACHABLE discards, and
counts, exactly the transactions that have waited 3 ms without a sub-port. [R429, R437, R438, R442, R443, R456] -/
def Obligations.SubPortsTrainAndGoDown : Prop :=
  (∀ (port sub i : Nat) (t : Training) (s : State), Runs s → i = 4 * port + sub → linkOn s i = true → (getSub s i).waiting = [] →
    (getSub s i).replay = [] →
    ((getSub s i).state ≠ .training → exec (.linkTraining port sub t) s = .next s ∧ exec (.trainingTimeout port sub) s = .next s) ∧
    ((getSub s i).state = .training →
      (t.lanes &&& (getSub s i).allowed ≠ 0 → t.farKind = 1 ∨ t.farKind = 2 →
        t.farLanes = laneCount (subLanes (s.lnk.ports.getD port {}).split.toNat sub) →
        ∃ u, exec (.linkTraining port sub t) s = .next u ∧ (getSub u i).state = .up ∧
          (getSub u i).lanes = t.lanes &&& (getSub s i).allowed ∧ (getSub u i).farKind = BitVec.ofNat 2 t.farKind ∧
          (getSub u i).farNode = t.farNode ∧ (getSub u i).farBuf = t.buffers ∧ (getSub u i).farBad = false ∧
          (getSub u i).sendSeq = (if (getSub s i).keepSeq then (getSub s i).sendSeq else 0) ∧
          (getSub u i).expect = (if (getSub s i).keepSeq then (getSub s i).expect else 0) ∧ ∀ j ≠ i, getSub u j = getSub s j) ∧
      (t.lanes &&& (getSub s i).allowed ≠ 0 → t.farKind = 3 →
        ∃ u, exec (.linkTraining port sub t) s = .next u ∧ (getSub u i).state = .down ∧ (getSub u i).farBad = true ∧
          ∀ j ≠ i, getSub u j = getSub s j) ∧
      (t.lanes &&& (getSub s i).allowed = 0 → (getSub s i).keepSeq = false →
        exec (.linkTraining port sub t) s = .next (event (ticketNext s) 0x21 (linkLoc (i / 4) (i % 4) 0xFF) 0 2 0 0 []
          (ticked (setSub i { getSub s i with state := .down, lanes := 0, farBad := false } s)))) ∧
      (past s (getSub s i).began 130000000 = false → exec (.trainingTimeout port sub) s = .next s) ∧
      (past s (getSub s i).began 130000000 = true →
        ∃ u, exec (.trainingTimeout port sub) s = .next u ∧ (getSub u i).state = .down ∧ ∀ j ≠ i, getSub u j = getSub s j))) ∧
  (∀ (c : Cmd) (port : BitVec 4) (sub : BitVec 2) (i : Nat) (s : State), Granted c s → port.toNat < 12 → s.lnk.subs.length = 48 →
    s.wb.seq.toNat + 1 < 0xFFF000000000 → i = 4 * port.toNat + sub.toNat → (getSub s i).waiting = [] → (getSub s i).replay = [] →
    (cfgLanes s i ≠ 0 →
      ((getSub s i).state = .up ∨ (getSub s i).state = .down →
        ∃ u, exec (.retrain c port sub) s = .next u ∧ (getSub u i).state = .training ∧ (getSub u i).allowed = cfgLanes s i ∧
          (getSub u i).dropped = 0 ∧ ((getSub s i).state = .up → (getSub u i).keepSeq = true) ∧
          (getSub u i).sendSeq = (getSub s i).sendSeq ∧ (getSub u i).expect = (getSub s i).expect ∧
          ∀ j ≠ i, getSub u j = getSub s j) ∧
      ∃ u, exec (.portReset c port sub) s = .next u ∧ (getSub u i).state = .training ∧ (getSub u i).allowed = cfgLanes s i ∧
        (getSub u i).keepSeq = false ∧ (getSub u i).sendSeq = 0 ∧ (getSub u i).expect = 0 ∧ (getSub u i).crcFail = 0 ∧
        (getSub u i).portDown = (if (getSub s i).state = .down then 0 else 1) ∧ ∀ j ≠ i, getSub u j = getSub s j) ∧
    ∃ u, exec (.portDown c port sub) s = .next u ∧ (getSub u i).state = .down ∧
      (getSub u i).portDown = (if (getSub s i).state = .down then (getSub s i).portDown else satInc (getSub s i).portDown) ∧
      ∀ j ≠ i, getSub u j = getSub s j) ∧
  ∀ s : State, Runs s → exec .unreachable s = .next { s with
    out := s.out.filter fun x => !(past s x.1 3000000 && (route s x.2.dst).isNone)
    lnk.unreachable := satAdd s.lnk.unreachable (s.out.filter fun x => past s x.1 3000000 && (route s x.2.dst).isNone).length }

/-- DATA_FLIT, good and expected: the expected number and the channel's count rise by one, and the last flit of a whole
transaction that keeps its rules and is for this device delivers it; one that is not expected is discarded, the first of a
gap with a NAK of the expected number on the lanes and a further one with nothing. A flit that fails its check raises
crc_fail and advances nothing; the second failure of a gap drops the lanes flagged both times with a LANE_CHG, or retrains
with the sequence state kept. NAK of an unacknowledged flit, and REPLAY_TIMEOUT 4 microseconds after the last advance, put
every unacknowledged flit from the one named, or from the oldest, on the lanes again in order, keep them all, and a second
one retrains. LANE_CHG leaves the lanes of its mask, or takes the sub-port down where none is left. IDLE frees the flits
it acknowledges. ACK_TIMER sends an IDLE flit 200 ns after the last flit where something stands unacknowledged.
CREDIT_STALL at 10 ms sets credit_stall with a record of type 0x22, and CREDIT_STALL_RETRAIN at 100 ms retrains. Before
their bounds the timers do nothing. [R431, R433, R434, R435, R436, R437] -/
def Obligations.FlitsAreTakenInOrder : Prop :=
  (∀ (port sub i : Nat) (f : List Byte) (fl : Byte) (p : SubPort) (s : State), Runs s → i = 4 * port + sub → linkOn s i = true →
    getSub s i = p → p.state = .up → p.waiting = [] →
    (flitGood f = true →
      (u8 f 0 = 1 → u16 f 4 = p.expect.toNat →
        ∃ u, exec (.dataFlit port sub f fl) s = .next u ∧ (getSub u i).expect = p.expect + 1 ∧ (getSub u i).nakSent = false ∧
          (getSub u i).recvCount = p.recvCount.set (u8 f 1 % 4) (p.recvCount.getD (u8 f 1 % 4) 0 + 1) ∧ u.lnk.wire = s.lnk.wire ∧
          ((u8 f 1).testBit 3 = false → u.lnk.delivered = s.lnk.delivered) ∧
          ((u8 f 1).testBit 3 = true → (u8 f 1).testBit 2 = true → txnOk (u8 f 1 % 4) (slice f 0x10 (u8 f 2)) = true →
            s.lnk.node = some (BitVec.ofNat 16 (u16 (slice f 0x10 (u8 f 2)) 0)) →
            u.lnk.delivered = s.lnk.delivered ++ [slice f 0x10 (u8 f 2)])) ∧
      (u8 f 0 = 1 → u16 f 4 ≠ p.expect.toNat →
        ∃ u, exec (.dataFlit port sub f fl) s = .next u ∧ (getSub u i).expect = p.expect ∧ (getSub u i).nakSent = true ∧
          u.lnk.delivered = s.lnk.delivered ∧
          u.lnk.wire = s.lnk.wire ++ (if p.nakSent then [] else [(i, flitBytes p 2 0 0 p.expect [])])) ∧
      (u8 f 0 = 2 → u16 f 6 = (oldestSeq p).toNat → (BitVec.ofNat 16 (u16 f 4) - oldestSeq p).toNat < p.replay.length →
        p.lanes ≠ 0 →
        (p.naks = 0 → p.timeouts = 0 →
          ∃ u, exec (.nak port sub f fl) s = .next u ∧ (getSub u i).replay = p.replay ∧ (getSub u i).naks = 1 ∧
            u.lnk.wire = s.lnk.wire ++ (p.replay.drop (BitVec.ofNat 16 (u16 f 4) - oldestSeq p).toNat).mapIdx fun j x =>
              (i, flitBytes p 1 (x.vc + (if x.sop then 4 else 0) + if x.eop then 8 else 0) x.payload.length
                (BitVec.ofNat 16 (u16 f 4) + BitVec.ofNat 16 j) x.payload)) ∧
        (p.naks = 1 → ∃ u, exec (.nak port sub f fl) s = .next u ∧ (getSub u i).state = .training ∧ (getSub u i).keepSeq = true ∧
          (getSub u i).replay = p.replay ∧ u.lnk.wire = s.lnk.wire)) ∧
      (u8 f 0 = 3 → u16 f 6 = (oldestSeq p).toNat →
        (p.lanes &&& BitVec.ofNat 8 (u8 f 0x10) ≠ 0 → ∃ u, exec (.laneChg port sub f) s = .next u ∧ (getSub u i).state = .laneChg ∧
          (getSub u i).lanes = p.lanes &&& BitVec.ofNat 8 (u8 f 0x10) ∧ (getSub u i).replay = p.replay) ∧
        (p.lanes &&& BitVec.ofNat 8 (u8 f 0x10) = 0 → ∃ u, exec (.laneChg port sub f) s = .next u ∧ (getSub u i).state = .down ∧
          (getSub u i).portDown = satInc p.portDown)) ∧
      (∀ n, (BitVec.ofNat 16 (u16 f 6) - oldestSeq p).toNat = n → 0 < n → n ≤ p.replay.length →
        ∃ u, exec (.idle port sub f) s = .next u ∧ (getSub u i).replay = p.replay.drop n ∧ (getSub u i).naks = 0 ∧
          (getSub u i).timeouts = 0 ∧
          (getSub u i).replayOk = (if p.naks = 0 ∧ p.timeouts = 0 then p.replayOk else satInc p.replayOk))) ∧
    (flitGood f = false → ∀ cmd ∈ [Instr.dataFlit port sub f fl, .nak port sub f fl],
      (p.gapFailed = false → ∃ u, exec cmd s = .next u ∧ (getSub u i).expect = p.expect ∧ (getSub u i).crcFail = satInc p.crcFail ∧
        (getSub u i).gapFailed = true ∧ (getSub u i).flagged = fl ∧
        u.lnk.wire = s.lnk.wire ++ (if p.nakSent then [] else [(i, flitBytes p 2 0 0 p.expect [])])) ∧
      (p.gapFailed = true → p.lanes ≠ 0 →
        (p.flagged &&& fl &&& p.lanes = 0 → ∃ u, exec cmd s = .next u ∧ (getSub u i).state = .training ∧
          (getSub u i).keepSeq = true ∧ (getSub u i).expect = p.expect ∧ (getSub u i).replay = p.replay) ∧
        (p.flagged &&& fl &&& p.lanes ≠ 0 → p.lanes &&& ~~~(p.flagged &&& fl &&& p.lanes) ≠ 0 →
          ∃ u, exec cmd s = .next u ∧ (getSub u i).state = .laneChg ∧
            (getSub u i).lanes = p.lanes &&& ~~~(p.flagged &&& fl &&& p.lanes) ∧ (getSub u i).expect = p.expect)))) ∧
  (∀ (port sub i : Nat) (p : SubPort) (s : State), Runs s → i = 4 * port + sub → linkOn s i = true → getSub s i = p → p.state = .up →
    (p.replay = [] ∨ past s p.ackSince 4000 = false → exec (.replayTimeout port sub) s = .next s) ∧
    (p.replay ≠ [] → past s p.ackSince 4000 = true → p.lanes ≠ 0 → p.naks = 0 →
      (p.timeouts = 0 → ∃ u, exec (.replayTimeout port sub) s = .next u ∧ (getSub u i).replay = p.replay ∧
        u.lnk.wire = s.lnk.wire ++ p.replay.mapIdx fun j x =>
          (i, flitBytes p 1 (x.vc + (if x.sop then 4 else 0) + if x.eop then 8 else 0) x.payload.length
            (oldestSeq p + BitVec.ofNat 16 j) x.payload)) ∧
      (p.timeouts = 1 → ∃ u, exec (.replayTimeout port sub) s = .next u ∧ (getSub u i).state = .training ∧
        (getSub u i).keepSeq = true ∧ (getSub u i).replay = p.replay)) ∧
    (p.ackedTo = p.expect ∨ past s p.ackSent 200 = false → exec (.ackTimer port sub) s = .next s) ∧
    (p.ackedTo ≠ p.expect → past s p.ackSent 200 = true →
      exec (.ackTimer port sub) s = .next (setSub i { p with ackSent := s.now, ackedTo := p.expect }
        { s with lnk.wire := s.lnk.wire ++ [(i, flitBytes p 0 0 0 0 [])] }))) ∧
  ∀ (port sub vc i : Nat) (p : SubPort) (s : State), Runs s → i = 4 * port + sub → linkOn s i = true → getSub s i = p → p.state = .up →
    (p.creditStall = false → stalledFor p vc 10000000 s = true →
      exec (.creditStall port sub vc) s = .next (event (ticketNext s) 0x22 (linkLoc port sub 0xFF) vc 1 0 0 []
        (ticked (setSub i { p with creditStall := true } s)))) ∧
    (stalledFor p vc 10000000 s = false → exec (.creditStall port sub vc) s = .next s) ∧
    (stalledFor p vc 100000000 s = true → p.lanes ≠ 0 →
      exec (.creditStallRetrain port sub vc) s = .next (setSub i { p with
        state := .training, began := s.now, keepSeq := true, allowed := p.lanes, after := false, farBad := false } s)) ∧
    (stalledFor p vc 100000000 s = false → exec (.creditStallRetrain port sub vc) s = .next s)

/-- CLAIM to the device with these straps: it takes node address (d, s) and calls its domain; any other device does nothing.
CALL of another device: a device that claims that domain gives up its address with claim_clash and a record of type 0x56;
one of that domain without an address answers HERE; any other only takes a ticket. HERE is collected once for each dev_uid
up to 1,024, beyond that enum_overflow rises, and one from a new address makes the member UP. ENUM_COLLECT_TIMEOUT at 10
ms sends one ASSIGN for each number given; before, nothing. An answer whose slot no other shares keeps its slot, and no
number is given twice or is the device's own. ASSIGN to this device sets its address and answers HERE; to another of its
domain, makes it known. ASSIGN_RETRY at 1 ms sends once more, and then gives up. LOST_CALL calls where a member is LOST.
ROSTER is answered by whether every listed shard is held; ROSTER_OK brings an UP member into the job, and ROSTER_NO
excludes it and ends its job. [R441, R464, R465, R466, R467, R471] -/
def Obligations.DevicesAreEnumerated : Prop :=
  (∀ (c : Cmd) (d : BitVec 6) (n : BitVec 10) (s : State), Granted c s →
    (claimHere d.toNat n.toNat s = true → exec (.claim c d n) s = .next (sendCall d.toNat
      { taken c rEnumCmd (claimData d n) s with
        lnk.node := some (nodeOf d.toNat n.toNat), dom.enum := some { domain := d.toNat, since := s.now } })) ∧
    (claimHere d.toNat n.toNat s = false → exec (.claim c d n) s = .next s)) ∧
  (∀ (src : Node) (d : BitVec 6) (uid : W64) (s : State), Runs s →
    (s.dom.strapBad = true ∨ uid = s.dom.uid → exec (.call src d uid) s = .next (ticked s)) ∧
    (s.dom.strapBad = false → uid ≠ s.dom.uid →
      (claiming s d.toNat = true → exec (.call src d uid) s = .next (event (ticketNext s) 0x56 devLoc 0 1 0 uid []
        { ticked s with lnk.node := none, dom.claimClash := true, dom.enum := none })) ∧
      (claiming s d.toNat = false → strapDomain s = d.toNat → s.lnk.node = none →
        exec (.call src d uid) s = .next (send src 0 0 (.enum 1 d.toNat (strapSlot s) 0 s.dom.uid []) (ticked s))) ∧
      (claiming s d.toNat = false → strapDomain s ≠ d.toNat ∨ s.lnk.node ≠ none → exec (.call src d uid) s = .next (ticked s)))) ∧
  (∀ (src : Node) (d : BitVec 6) (slot : BitVec 10) (uid : W64) (e : Enum) (s : State), Runs s → s.dom.enum = some e →
    (src = localNode → d.toNat = e.domain → e.assigned = false → (∀ w ∈ e.waiting, w.1 ≠ uid) → (∀ a ∈ e.answers, a.1 ≠ uid) →
      (e.answers.length < 1024 → exec (.here src d slot uid) s =
        .next { ticked s with dom.enum := some { e with answers := e.answers ++ [(uid, slot.toNat)] } }) ∧
      (1024 ≤ e.answers.length → exec (.here src d slot uid) s =
        .next { ticked s with dom.enumOverflow := satInc s.dom.enumOverflow })) ∧
    (∀ b w, (uid, src, b, w) ∈ e.waiting → ∀ m, findMember s src = some m → m.state = .absent →
      ∃ u, exec (.here src d slot uid) s = .next u ∧ (∀ f, u.dom.enum = some f → ∀ w ∈ f.waiting, w.1 ≠ uid) ∧
        findMember u src = some { m with state := .up, heard := s.now })) ∧
  (∀ (e : Enum) (s : State), Runs s → s.dom.enum = some e → e.assigned = false →
    (past s e.since 10000000 = false → exec .enumCollectTimeout s = .next s) ∧
    (past s e.since 10000000 = true → ∀ xs given, xs = assignNumbers (nodeMember (myNode s)) e.answers →
      given = xs.filterMap (fun x => x.2.map fun n => (x.1, nodeOf e.domain n)) →
      ∃ u, exec .enumCollectTimeout s = .next u ∧
        u.dom.enum = some { e with assigned := true, answers := [], waiting := given.map fun g => (g.1, g.2, false, s.now) } ∧
        u.out = s.out ++ given.map (fun g =>
          (s.now, ⟨broadcastNode, myNode s, 0, 0, .enum 2 (nodeDomain g.2) 0 g.2 g.1 []⟩)) ∧
        (∀ g ∈ given, (findMember u g.2).isSome = true))) ∧
  (∀ (own : Nat) (answers : List (W64 × Nat)), (answers.map (·.1)).Nodup →
    (((assignNumbers own answers).filterMap (·.2)).Nodup ∧ own ∉ (assignNumbers own answers).filterMap (·.2)) ∧
    ∀ a ∈ answers, a.2 ≠ own → (∀ b ∈ answers, b.2 = a.2 → b = a) → (a.1, some a.2) ∈ assignNumbers own answers) ∧
  (∀ (src : Node) (uid : W64) (node : Node) (s : State), Runs s →
    (s.dom.strapBad = true ∨ nodeDomain node ≠ strapDomain s → exec (.assign src uid node) s = .next (ticked s)) ∧
    (s.dom.strapBad = false → nodeDomain node = strapDomain s →
      (uid = s.dom.uid → ∃ u, exec (.assign src uid node) s = .next u ∧ u.lnk.node = some node ∧
        u.out = s.out ++ [(s.now, ⟨src, node, 0, 0, .enum 1 (strapDomain s) (strapSlot s) node uid []⟩)] ∧
        u.dom.mgrNode = some (s.dom.mgrNode.getD src)) ∧
      (uid ≠ s.dom.uid → ∃ u, exec (.assign src uid node) s = .next u ∧ u.lnk.node = s.lnk.node ∧ u.out = s.out ∧
        (findMember u node).isSome = true))) ∧
  (∀ (uid : W64) (n : Node) (twice : Bool) (since : Nat) (e : Enum) (s : State), Runs s → s.dom.enum = some e →
    e.waiting = [(uid, n, twice, since)] →
    (past s since 1000000 = false → exec (.assignRetry uid) s = .next s) ∧
    (past s since 1000000 = true →
      (twice = true → exec (.assignRetry uid) s = .next { s with dom.enum := some { e with waiting := [] } }) ∧
      (twice = false → exec (.assignRetry uid) s =
        .next (sendAssign uid n { s with dom.enum := some { e with waiting := [(uid, n, true, s.now)] } })))) ∧
  (∀ s : State, Runs s →
    (isManager s = true → (∃ m ∈ ownMembers s, m.state = .lost) → ∃ u, exec .lostCall s = .next u ∧
      u.out = s.out ++ [(s.now, ⟨broadcastNode, myNode s, 0, 0, .enum 0 (nodeDomain (myNode s)) 0 0 s.dom.uid []⟩)]) ∧
    ((∀ m ∈ ownMembers s, m.state ≠ .lost) → exec .lostCall s = .next s)) ∧
  ∀ (src : Node) (entries : List (Nat × Nat)) (s : State), Runs s →
    ((∃ e ∈ entries, ∀ c, findColl s e.1 = some c → c.spec.shard ≠ e.2) →
      exec (.roster src entries) s = .next (send src 0 0 (.enum 5 (nodeDomain (myNode s)) 0 (myNode s) s.dom.uid []) (ticked s))) ∧
    ((∀ e ∈ entries, ∃ c, findColl s e.1 = some c ∧ c.spec.shard = e.2) → ∃ u, exec (.roster src entries) s = .next u ∧
      u.out = s.out ++ [(s.now, ⟨src, myNode s, 0, 0, .enum 4 (nodeDomain (myNode s)) 0 (myNode s) s.dom.uid []⟩)]) ∧
    ∀ m, findMember s src = some m → isManager s = true →
      (m.state ≠ .removed → exec (.rosterNo src) s =
        .next (send src 0 0 (.mwrite rJobCmd 3) (setMember { m with state := .excluded, inJob := false } (ticked s)))) ∧
      (s.job.phase = 1 → m.state = .up → exec (.rosterOk src) s = .next (setMember { m with inJob := true } (ticked s))) ∧
      (m.state = .removed → exec (.rosterOk src) s = .next (ticked s) ∧ exec (.rosterNo src) s = .next (ticked s))

/-- BEAT_TIMER on a manager or mirror sends one BEAT to each peer, elsewhere nothing. BEAT and PROBE are answered REPLY and
note when the sender was heard and what it reports, except on a standalone device. PEER_SUSPECT at 3 ms of silence makes
an UP member SUSPECT and probes it, and before does nothing; PEER_LOST at 6 ms makes a SUSPECT one LOST, member_lost
rises, with a record of type 0x51 (the statement gives the whole effect where the device is neither manager nor mirror),
and before does nothing. REPLY of a SUSPECT member makes it UP and hb_probe_ok rises; of an UP one notes that it was
heard. On the mirror, the loss of its manager, where no member it still hears does hear it, raises the manager epoch by
one, makes this device the manager and counts a takeover. HEARTBEAT_TAKEOVER of a higher epoch in the domain is adopted,
marks a manager superseded, and of a lower or equal one only takes a ticket. MEMBER_REMOVE removes the member, and drops
and counts every mutation owed to it. [R477, R478, R479, R480, R482, R483, R474, R490] -/
def Obligations.MembersAreHeardAndLost : Prop :=
  (∀ s : State, Runs s →
    (role s = 0 ∨ role s = 1 → ∃ u, exec .beatTimer s = .next u ∧ u = { s with out := u.out } ∧
      u.out = s.out ++ (beatPeers s).map fun n => (s.now, ⟨n, myNode s, 0, 0, .heartbeat 0 (myBeat s)⟩)) ∧
    (role s ≠ 0 → role s ≠ 1 → exec .beatTimer s = .next s)) ∧
  (∀ (src : Node) (h : Heartbeat) (s : State), Runs s →
    (role s = 5 → exec (.beat src h) s = .next (ticked s) ∧ exec (.probe src h) s = .next (ticked s)) ∧
    (role s ≠ 5 →
      (∃ u b m, exec (.beat src h) s = .next u ∧ u.out = s.out ++ [(s.now, ⟨src, myNode s, 0, 0, .heartbeat 1 b⟩)] ∧
        findMember u src = some m ∧ m.heard = s.now ∧ m.beat = some h ∧ m.role = h.role) ∧
      ∀ m, findMember s src = some m →
        ∃ u b, exec (.probe src h) s = .next u ∧ u.out = s.out ++ [(s.now, ⟨src, myNode s, 0, 0, .heartbeat 1 b⟩)] ∧
          findMember u src = some { m with heard := s.now, beat := some h, role := h.role, restoring := h.restoring })) ∧
  (∀ (n : Node) (m : Member) (s : State), Runs s → findMember s n = some m →
    (m.state = .up → past s m.heard 3000000 = true → exec (.peerSuspect n) s =
      .next (send n 0 0 (.heartbeat 2 (myBeat s)) (setMember { m with state := .suspect, probed := true } s))) ∧
    (past s m.heard 3000000 = false → exec (.peerSuspect n) s = .next s) ∧
    (m.state = .suspect → past s m.heard 6000000 = true →
      (∃ u v, exec (.peerLost n) s = .next u ∧ findMember u n = some v ∧ v.state = .lost) ∧
      (role s ≠ 0 → role s ≠ 1 → exec (.peerLost n) s = .next (event (ticketNext s) 0x51 (peerLoc n) 0 2 9 0 []
        (setMember { m with state := .lost, inJob := false, probed := false }
          { ticked s with dom.memberLost := satInc s.dom.memberLost })))) ∧
    (m.state ≠ .suspect ∨ past s m.heard 6000000 = false → exec (.peerLost n) s = .next s) ∧
    (m.state = .suspect → role s = 1 → s.dom.mgrNode = some n → past s m.heard 6000000 = true → s.dom.mgrEpoch ≠ 0xFFFFFFFF →
      (∀ x ∈ ownMembers s, x.node ≠ n → x.state = .up ∨ x.state = .suspect → ∀ b, x.beat = some b → 3000 ≤ b.sinceMgrUs) →
      ∃ u, exec (.peerLost n) s = .next u ∧ u.dom.mgrEpoch = s.dom.mgrEpoch + 1 ∧ u.dom.mgrNode = some (myNode s) ∧
        u.dom.takeovers = satInc s.dom.takeovers) ∧
    (∀ h : Heartbeat, h.role ≠ 1 → role s ≠ 1 → m.role = h.role →
      (m.state = .suspect → ∃ u v, exec (.reply n h) s = .next u ∧ findMember u n = some v ∧ v.state = .up ∧ v.heard = s.now ∧
        u.dom.hbProbeOk = satInc s.dom.hbProbeOk) ∧
      (m.state = .up → ∃ u v, exec (.reply n h) s = .next u ∧ findMember u n = some v ∧ v.state = .up ∧ v.heard = s.now ∧
        v.beat = some h))) ∧
  (∀ (src : Node) (h : Heartbeat) (s : State), Runs s → role s ≠ 5 → nodeDomain src = nodeDomain (myNode s) → h.mgrEpoch < 2 ^ 32 →
    (h.mgrEpoch ≤ s.dom.mgrEpoch.toNat → exec (.heartbeatTakeover src h) s = .next (ticked s)) ∧
    (s.dom.mgrEpoch.toNat < h.mgrEpoch →
      (isManager s = true → exec (.heartbeatTakeover src h) s = .next { ticked s with dom.superseded := true }) ∧
      (isManager s = false → ∃ u, exec (.heartbeatTakeover src h) s = .next u ∧ u.dom.mgrEpoch.toNat = h.mgrEpoch ∧
        u.dom.mgrNode = some src ∧ u.dom.sinceMgr = s.now))) ∧
  ∀ (c : Cmd) (n : BitVec 10) (s : State), Granted c s →
    (isManager s = false ∨ memberNo s n.toNat = none → exec (.memberRemove c n) s = .next (taken c rMemberCmd (removeData n) s)) ∧
    (∀ m, isManager s = true → memberNo s n.toNat = some m → m.state ≠ .removed →
      ∃ u v, exec (.memberRemove c n) s = .next u ∧ findMember u m.node = some v ∧ v.state = .removed ∧
        (∀ x ∈ u.dom.owed, x.2.2 ≠ m.node) ∧
        u.dom.owedDropped = satAdd s.dom.owedDropped (s.dom.owed.filter (·.2.2 == m.node)).length)

/-- An event with room in the queue puts its record, with its type, ticket, code and the hours, at the end; with the queue
full it displaces the newest record of lower severity, or is dropped, and drop_count rises. RECORD_WRITE, with no
compaction due: a record of severity FAULT or CRITICAL goes to the preserved region while it has room, any other to the
ring where room can be made, and it leaves the queue; one for which no room can be made is dropped and counted; one that
reads back wrong stays in the queue and, the second time, flash_fault is set. RING_COMPACTION leaves the sector written
earliest erased, and does nothing where none is due. FLASH_TIMEOUT sets flash_fault. LOG_CLEAR, granted, sets code 2
during a clear, code 1 for a bad token or signature, and else takes the records stamped before it out of the queue and
draws a new nonce; CLEAR_ERASE_DONE within 300 s leaves each region of the scope with the record of the clear at its
start, and LOG_CLEAR_TIMEOUT past it ends the clear with code 3. What a copy that reads back wrong leaves is the model's
own (log 42). [R501, R506, R508, R509, R510, R512, R514, R516, R517] -/
def Obligations.RecordsAreQueuedAndWritten : Prop :=
  (∀ (t : Ticket) (type code attempts action : Nat) (l : Loc) (aux : W64) (extra : List Byte) (s : State),
    ∃ r : Rec, r.type = type ∧ r.ticket = t ∧ r.code = code ∧ r.attempts = attempts ∧ r.action = action ∧ r.aux = aux ∧
      r.sev = recSeverity type ∧ r.hours = min s.log.hours 0xFFFFFFFF ∧ r.kind = l.kind ∧ r.unit = l.unit ∧ r.sub = l.sub ∧
      (s.log.queue.length < 1024 → (event t type l code attempts action aux extra s).log.queue = s.log.queue ++ [r]) ∧
      (1024 ≤ s.log.queue.length → (event t type l code attempts action aux extra s).log.dropCount = satInc s.log.dropCount ∧
        ((∀ q ∈ s.log.queue, r.sev ≤ q.sev) → (event t type l code attempts action aux extra s).log.queue = s.log.queue) ∧
        ∀ p q x, s.log.queue = p ++ x :: q → x.sev < r.sev → (∀ y ∈ q, r.sev ≤ y.sev) →
          (event t type l code attempts action aux extra s).log.queue = p ++ q ++ [r])) ∧
  (∀ (r : Rec) (rest : List Rec) (ok : Bool) (s : State), recorderRuns s = true → compactionDue s = false → s.log.queue = r :: rest →
    (r.sev < 2 ∨ s.log.presFull = true →
      (ringRoom r.sev (r.bytes 0xA5).length s.log.flash = none → exec (.recordWrite ok) s =
        .next { s with log.queue := rest, log.dropCount := satInc s.log.dropCount, log.retry := false }) ∧
      ∀ f a, ringRoom r.sev (r.bytes 0xA5).length s.log.flash = some f → a = ringPlace s.log.ringPoint (r.bytes 0xA5).length →
        exec (.recordWrite true) s = .next { s with
          log.flash := cellsPut erased a (r.bytes 0xA5) f, log.queue := rest
          log.ringPoint := a + (r.bytes 0xA5).length, log.retry := false }) ∧
    (2 ≤ r.sev → s.log.presFull = false → ∀ a, a = placeAt s.log.presPoint (r.bytes 0xA5).length →
      (a + (r.bytes 0xA5).length ≤ ringBase → exec (.recordWrite true) s = .next { s with
        log.flash := cellsPut erased a (r.bytes 0xA5) s.log.flash, log.queue := rest
        log.presPoint := a + (r.bytes 0xA5).length, log.retry := false }) ∧
      (a + (r.bytes 0xA5).length ≤ ringBase → ∃ u, exec (.recordWrite false) s = .next u ∧ u.log.queue = s.log.queue ∧
        (s.log.retry = false → u.log.retry = true ∧ u.log.flashFault = s.log.flashFault) ∧
        (s.log.retry = true → u.log.flashFault = true)) ∧
      (ringBase < a + (r.bytes 0xA5).length → ∃ u, exec (.recordWrite ok) s = .next u ∧ u.log.presFull = true))) ∧
  (∀ s : State, recorderRuns s = true →
    (s.log.queue = [] → ∀ ok, exec (.recordWrite ok) s = .next s) ∧
    (compactionDue s = false → exec .ringCompaction s = .next s) ∧
    (compactionDue s = true → ∀ b, earliestSector s = some b → ∃ u, exec .ringCompaction s = .next u ∧
      u = { s with log.flash := u.log.flash, log.ringPoint := u.log.ringPoint } ∧
      ∀ a, b ≤ a → a < b + sectorBytes → cellGet erased u.log.flash a = erased)) ∧
  (∀ s : State, Runs s → exec .flashTimeout s = .next { s with log.flashFault := true }) ∧
  (∀ (c : Cmd) (s : State), Granted c s → s.wb.seq.toNat + 1 < 0xFFF000000000 →
    (s.log.clear ≠ none → exec (.logClear c) s = .next { taken c rLogClear 1 s with log.clearCode := 2 }) ∧
    (s.log.clear = none →
      (tokenOk s = false → exec (.logClear c) s = .next { taken c rLogClear 1 s with log.clearCode := 1 }) ∧
      (tokenOk s = true → tokenSigned s = false → exec (.logClear c) s =
        .next { taken c rLogClear 1 s with log.clearCode := 1, sec.sigFailClear := satInc s.sec.sigFailClear }) ∧
      (tokenOk s = true → tokenSigned s = true → ∃ u k, exec (.logClear c) s = .next u ∧ u.log.clear = some k ∧
        k.scope = u8 (tokenBytes s) 4 ∧ k.since = s.now ∧ u.log.nonce = Config.random s.free ∧
        u.log.queue = s.log.queue.filter (fun r => !(ticketLt r.ticket k.ticket && inScope s k.scope r)) ∧
        k.discarded + u.log.queue.length = s.log.queue.length))) ∧
  ∀ (k : LogClearing) (s : State), Runs s → s.log.clear = some k →
    (past s k.since 300000000000 = false → exec .logClearTimeout s = .next s ∧
      ∃ u, exec .clearEraseDone s = .next u ∧ u.log.clear = none ∧ u.log.clearCode = 0 ∧ u.log.queue = s.log.queue ∧
        (k.scope.testBit 0 = true → u.log.dropCount = 0 ∧ u.log.ringPoint = ringBase + ((clearedRec s k).bytes 0xA5).length) ∧
        (k.scope.testBit 0 = false → u.log.dropCount = s.log.dropCount ∧ u.log.ringPoint = s.log.ringPoint) ∧
        (k.scope.testBit 1 = true → u.log.presFull = false) ∧
        (k.scope = 0 → u.log.flash = s.log.flash)) ∧
    (past s k.since 300000000000 = true → exec .clearEraseDone s = .next s ∧
      exec .logClearTimeout s = .next { s with log.clear := none, log.clearCode := 3, log.flashFault := true })

/-- A window is in range when it lies within 1% of its class's frequency, for CORE from 1,287 to 1,313. MONITOR_WINDOW in
range forgets an earlier bad one; the first out of range raises clk_transient with a record of type 0x70; the second in a
row moves the domain to FALLBACK, or halts it where FALLBACK has failed, and names it as the last failed; a domain no
longer monitored changes nothing. RING_CHECK out of range sets ring_bad. CLK_OUT_CFG_WRITE, granted, keeps the defined
bits: a source that is no domain sets src_bad, one above 200 MHz sets out_fast, and any other is driven while enabled.
THERMAL_SAMPLE keeps the hottest reading and throttles from 103 degrees until 101; from 115 degrees the device asserts
THERMTRIP_N and begins its flush. AVS_ADJUST sets a setpoint within 1,780 to 1,950 mV (how far it moves is the model's
own, log 41); the second AVS_TIMEOUT in a row sets avs_fault, after which no setpoint is written. [R528, R529, R531, R538,
R539, R540, R555] -/
def Obligations.ClocksAndTemperatureAreWatched : Prop :=
  (∀ n : Nat, windowOk 1 n = true ↔ 1287 ≤ n ∧ n ≤ 1313) ∧
  (∀ (d n : Nat) (s : State), Runs s →
    (clockExists d = false ∨ d = ringDomain ∨ s.clk.ringBad = true ∨ d ∈ s.clk.fallback ∨ d ∈ s.clk.halted →
      exec (.monitorWindow d n) s = .next s) ∧
    (clockExists d = true → d ≠ ringDomain → s.clk.ringBad = false → d ∉ s.clk.fallback → d ∉ s.clk.halted → d ≠ fallbackDomain →
      (windowOk (d / 16) n = true → exec (.monitorWindow d n) s =
        .next { s with clk.badWindow := s.clk.badWindow.filter (· != d) }) ∧
      (windowOk (d / 16) n = false → d ∉ s.clk.badWindow → exec (.monitorWindow d n) s =
        .next (event (ticketNext s) 0x70 (clockLoc d) 0 1 0 0 []
          (ticked { s with clk.badWindow := s.clk.badWindow ++ [d], clk.transient := satInc s.clk.transient }))) ∧
      (windowOk (d / 16) n = false → d ∈ s.clk.badWindow → ∃ u, exec (.monitorWindow d n) s = .next u ∧
        u.clk.lastFailed = BitVec.ofNat 12 d ∧ d ∉ u.clk.badWindow ∧
        (s.clk.fallbackFailed = false → d ∈ u.clk.fallback ∧ u.clk.halted = s.clk.halted) ∧
        (s.clk.fallbackFailed = true → d ∈ u.clk.halted ∧ u.clk.fallback = s.clk.fallback) ∧
        (d / 16 = 4 → u.mem.modules = s.mem.modules.set (d % 16) none) ∧ (d / 16 = 3 → d % 16 ∈ u.mem.stacksFailed)))) ∧
  (∀ (n : Nat) (s : State), Runs s →
    (windowOk 9 n = true → exec (.ringCheck n) s = .next s) ∧
    (windowOk 9 n = false → 0 ∉ s.clk.fallback → 0 ∉ s.clk.halted → exec (.ringCheck n) s = .next { s with clk.ringBad := true })) ∧
  (∀ (c : Cmd) (data : W64) (src div : Nat) (s : State), Granted c s → src = data.toNat % 4096 → div = data.toNat / 65536 % 65536 →
    src ∉ s.clk.fallback →
    (clockExists src = false → exec (.clkOutCfgWrite c data) s = .next { taken c rClkOut data s with
      clk.outCfg := data &&& 0xFFFF1FFF, clk.srcBad := true, lands.clkout := none }) ∧
    (clockExists src = true → 6400 * (div + 1) < clockFreq (src / 16) → exec (.clkOutCfgWrite c data) s =
      .next { taken c rClkOut data s with clk.outCfg := data &&& 0xFFFF1FFF, clk.outFast := true, lands.clkout := none }) ∧
    (clockExists src = true → clockFreq (src / 16) ≤ 6400 * (div + 1) → exec (.clkOutCfgWrite c data) s =
      .next { taken c rClkOut data s with clk.outCfg := data &&& 0xFFFF1FFF, clk.outFast := false, clk.srcBad := false
                                          lands.clkout := if data.getLsbD 12 then some (src, div) else none })) ∧
  (∀ (xs : List Nat) (hot : Nat) (s : State), Runs s → hot = xs.foldl max 0 →
    (hot < 230 → exec (.thermalSample xs) s = .next { s with
      pwr.tmax := satNat 10 hot, pwr.throttle := decide (206 ≤ hot) || (s.pwr.throttle && decide (202 ≤ hot)) }) ∧
    (230 ≤ hot → ∃ u, exec (.thermalSample xs) s = .next u ∧ u.life = .flushing ∧ u.lands.thermtrip = true ∧ u.out = [])) ∧
  ∀ (mv : Nat) (s : State), Runs s →
    (s.pwr.avsFault = true → exec (.avsAdjust mv) s = .next s) ∧
    (s.pwr.avsFault = false → ∃ u, exec (.avsAdjust mv) s = .next u ∧ 1780 ≤ u.pwr.setpoint ∧ u.pwr.setpoint ≤ 1950 ∧
      (mv < 1800 → s.pwr.setpoint ≤ 1950 → 1780 ≤ s.pwr.setpoint → s.pwr.setpoint ≤ u.pwr.setpoint) ∧ u.pwr.avsRetry = false) ∧
    (s.pwr.avsRetry = false → exec .avsTimeout s = .next { s with pwr.avsRetry := true }) ∧
    (s.pwr.avsRetry = true → exec .avsTimeout s = .next { s with pwr.avsRetry := false, pwr.avsFault := true })

/-- PWR_CMD, granted: a value above 4 is refused with code 2; one during a transition, or to PS2 to PS4 while the device
works, with code 1; the present state takes code 0; any other starts the move. POWER_TRANSITION_DONE moves one state
toward the target and ends the move there; entering PS3 programs the buffers, leaving it clears the Bench stores, and
entering PS4 loses the HBM contents while DDR5 is kept; with no move it does nothing. PWR_CAP_WRITE takes 0 and 800 to
2,200 W, and sets cap_bad for any other value, leaving the cap. CAP_LOOP_STEP keeps the issue fraction between 1 and 64,
moves it by at most 8, lowers it while throttled, and sets cap_unmet exactly where the fraction is 1 and the power above
the cap (the size of an unthrottled step is left open, log 40). METER_SAMPLE keeps the last 100 samples. POWER_FAIL of 2
microseconds begins the flush and sends nothing more; shorter ones do nothing. FLUSH_DONE halts the device. [R414, R532,
R533, R534, R536, R537, R556] -/
def Obligations.PowerFollowsItsCommands : Prop :=
  (∀ (c : Cmd) (p : BitVec 3) (s : State), Granted c s →
    (4 < p.toNat → exec (.pwrCmd c p) s = .next { taken c rPwrCmd (powerData p) s with pwr.code := 2 }) ∧
    (p.toNat ≤ 4 →
      (s.pwr.move ≠ none → exec (.pwrCmd c p) s = .next { taken c rPwrCmd (powerData p) s with pwr.code := 1 }) ∧
      (s.pwr.move = none →
        (p.toNat = s.pwr.state → exec (.pwrCmd c p) s = .next { taken c rPwrCmd (powerData p) s with pwr.code := 0 }) ∧
        (p.toNat ≠ s.pwr.state →
          (2 ≤ p.toNat → s.job.phase ≠ 0 ∨ s.cfg.load ≠ none ∨ s.cfg.swap ≠ none ∨ s.haul.running ≠ none →
            exec (.pwrCmd c p) s = .next { taken c rPwrCmd (powerData p) s with pwr.code := 1 }) ∧
          (p.toNat < 2 ∨ powerBusy s = false → exec (.pwrCmd c p) s = .next { taken c rPwrCmd (powerData p) s with
            pwr.code := 0, pwr.move := some (p.toNat, s.now) }))))) ∧
  (∀ s : State, Runs s →
    (s.pwr.move = none → exec .powerTransitionDone s = .next s) ∧
    ∀ target t0 next, s.pwr.move = some (target, t0) → target ≠ s.pwr.state → s.pwr.state < 4 → s.job.steps = [] →
      next = (if s.pwr.state < target then s.pwr.state + 1 else s.pwr.state - 1) →
      ∃ u, exec .powerTransitionDone s = .next u ∧ u.pwr.state = next ∧
        u.pwr.move = (if next = target then none else some (target, s.now)) ∧ u.wb = s.wb ∧ u.job = s.job ∧ u.lnk = s.lnk ∧
        (s.pwr.state = 2 → next = 3 → ∀ k ∈ u.stk.ctrls, k.buf = []) ∧
        (s.pwr.state = 3 → next = 2 → u.flt.accs = [] ∧ u.flt.store = []) ∧
        (next = 4 → (∀ x ∈ u.mem.cells, 2 ^ 41 ≤ x.1) ∧ ∀ x ∈ s.mem.cells, 2 ^ 41 ≤ x.1 → x ∈ u.mem.cells) ∧
        (next ≠ 4 → u.mem = s.mem)) ∧
  (∀ (c : Cmd) (data : W64) (s : State), Granted c s → ∀ w, w = data.toNat % 4096 →
    (w = 0 ∨ 800 ≤ w ∧ w ≤ 2200 → exec (.pwrCapWrite c data) s =
      .next { taken c rPwrCap data s with pwr.cap := BitVec.ofNat 12 w, pwr.capBad := false }) ∧
    (w ≠ 0 → w < 800 ∨ 2200 < w → exec (.pwrCapWrite c data) s = .next { taken c rPwrCap data s with pwr.capBad := true })) ∧
  (∀ s : State, Runs s → 1 ≤ s.pwr.issueFrac → s.pwr.issueFrac ≤ 64 →
    ∃ u, exec .capLoopStep s = .next u ∧ 1 ≤ u.pwr.issueFrac ∧ u.pwr.issueFrac ≤ 64 ∧
      u.pwr.issueFrac ≤ s.pwr.issueFrac + 8 ∧ s.pwr.issueFrac ≤ u.pwr.issueFrac + 8 ∧
      (s.pwr.throttle = true → u.pwr.issueFrac = max 1 (s.pwr.issueFrac - 8)) ∧
      (u.pwr.capUnmet = true ↔ u.pwr.issueFrac = 1 ∧ 10 * capInForce s < powerDw s) ∧ u.pwr.cap = s.pwr.cap) ∧
  (∀ (mv ma : Nat) (s : State), Runs s → exec (.meterSample mv ma) s = .next { s with
    pwr.samples := ((mv, ma) :: s.pwr.samples).take 100, pwr.inputMv := satNat 16 mv }) ∧
  (∀ (held : Nat) (s : State), Runs s →
    (held < 2000 → exec (.powerFail held) s = .next s) ∧
    (2000 ≤ held → exec (.powerFail held) s = .next { event (ticketNext s) 0x73 devLoc 0 1 0 0 [] (ticked s) with
      life := .flushing, out := [], pwr.move := none })) ∧
  ∀ (done : List Bool) (s : State),
    (s.life ≠ .flushing → exec (.flushDone done) s = .next s) ∧
    (s.life = .flushing → ∃ u, exec (.flushDone done) s = .next u ∧ u.life = .halted ∧
      (s.stk.ready = true → ∃ f, u.stk.flush = some f ∧ f.records = s.log.queue ∧ f.journal = journalTail s) ∧
      (s.stk.ready = false → u.stk.flush = none) ∧ u.log = s.log ∧ u.wb = s.wb)

/-- FIRMWARE_LOAD, granted: refused with code 6 while a job is open and with code 5 while another load runs; an image of a
length out of range takes code 1; one that passes every check begins to be programmed, any other takes its check's code
and changes no flash. FIRMWARE_PROGRAM_DONE that does not read back takes code 7 and leaves no image; one that does leaves
the image in the flash from offset 0, with every byte past the image area as it was, and resets the device. HOURS_TICK
counts one unit and writes the count to flash every 64. ENTDAA gives the address; an index write to a listed index sets
it, any other is not taken; a read of telemetry sends that many bytes from the index; a transfer left incomplete for 10 ms
is abandoned (what an incomplete transfer is: log 46). TAP_INSTRUCTION acts as given, but EXTEST and SAMPLE act as BYPASS
outside power-on reset. [R548, R552, R589, R590, R592] -/
def Obligations.FirmwareHoursAndTheBoardBus : Prop :=
  (∀ (c : Cmd) (n : W32) (s : State), Granted c s →
    (s.job.phase ≠ 0 → exec (.firmwareLoad c n) s = .next { taken c rFwCmd (hi32 n ||| 1) s with rst.fwCode := 6 }) ∧
    (s.job.phase = 0 →
      (s.cfg.load ≠ none ∨ s.rst.fwLoad ≠ none →
        exec (.firmwareLoad c n) s = .next { taken c rFwCmd (hi32 n ||| 1) s with rst.fwCode := 5 }) ∧
      (s.cfg.load = none → s.rst.fwLoad = none →
        (s.rst.stagingAbsent = true ∨ n.toNat < 65536 ∨ 33554432 < n.toNat →
          exec (.firmwareLoad c n) s = .next { taken c rFwCmd (hi32 n ||| 1) s with rst.fwCode := 1 }) ∧
        ∀ img, s.rst.stagingAbsent = false → 65536 ≤ n.toNat → n.toNat ≤ 33554432 → stagingRead s n.toNat = .ok img →
          u32 img 8 = n.toNat →
          (fwCheck s.sec.slots s.sec.rollbackMin (fun k => img.take k) = 0 → exec (.firmwareLoad c n) s =
            .next { taken c rFwCmd (hi32 n ||| 1) s with rst.fwLoad := some (s.now, img), rst.fwCode := 0 }) ∧
          (∀ code, fwCheck s.sec.slots s.sec.rollbackMin (fun k => img.take k) = code → code ≠ 0 →
            ∃ u, exec (.firmwareLoad c n) s = .next u ∧ u.rst.fwCode = BitVec.ofNat 8 code ∧ u.rst.fwLoad = none ∧
              u.log.flash = s.log.flash)))) ∧
  (∀ (since : Nat) (img : List Byte) (s : State), Runs s → s.rst.fwLoad = some (since, img) → s.haul.moves = [] →
    (∃ u, exec (.firmwareProgramDone false) s = .next u ∧ u.rst.fwCode = 7 ∧ u.rst.fwLoad = none ∧
      ∀ a < 0x2000000, cellGet erased u.log.flash a = erased) ∧
    (Memory.wf s → img.length ≤ 0x2000000 → s.wb.seq.toNat + 1 < 0xFFF000000000 →
      ∃ u, exec (.firmwareProgramDone true) s = .next u ∧ u.rst.fwLoad = none ∧ u.rst.lastReset = 2 ∧ u.job = {} ∧
        (∀ i < img.length, cellGet erased u.log.flash i = img.getD i 0) ∧
        ∀ a, 0x2000000 ≤ a → a < ringBase → cellGet erased u.log.flash a = cellGet erased s.log.flash a)) ∧
  (∀ (ok : Bool) (s : State), Runs s → s.rst.fwLoad = none → exec (.firmwareProgramDone ok) s = .next s) ∧
  (∀ s : State, (s.life = .ready → exec .hoursTick s = .next { s with
      log.hours := s.log.hours + 1
      log.hoursFlash := if s.log.hoursFlash + 64 ≤ s.log.hours + 1 then s.log.hours + 1 else s.log.hoursFlash }) ∧
    (s.life ≠ .ready → exec .hoursTick s = .next s)) ∧
  (∀ (a : BitVec 7) (s : State), exec (.entdaa a) s = .next { s with lands.i3cAddr := some a, lands.i3cBusy := none }) ∧
  (∀ (b : Byte) (n : Nat) (s : State),
    (s.lands.i3cAddr = none → exec (.i3cPrivateWrite [b]) s = .next s ∧ exec (.i3cPrivateRead n) s = .next s) ∧
    (s.lands.i3cAddr ≠ none →
      (b.toNat ∈ telemetryIndexes → exec (.i3cPrivateWrite [b]) s = .next { s with lands.i3cIndex := b.toNat, lands.i3cBusy := none }) ∧
      (b.toNat ∉ telemetryIndexes → exec (.i3cPrivateWrite [b]) s = .next { s with lands.i3cBusy := none }) ∧
      exec (.i3cPrivateWrite []) s = .next { s with lands.i3cBusy := some s.now } ∧
      (0 < n → exec (.i3cPrivateRead n) s =
        .next { s with lands.i3cSent := ((telemetry s).drop s.lands.i3cIndex).take n, lands.i3cBusy := none }))) ∧
  (∀ s : State, (telemetry s).length = 24 ∧ (telemetry s).take 8 = toLe 8 s.dom.uid.toNat ∧
    slice (telemetry s) 0x16 2 = toLe 2 (match s.lnk.node with | some n => n.toNat | none => 0xFFFF)) ∧
  (∀ s : State, (s.lands.i3cBusy = none → exec .i3cTimeout s = .next s) ∧
    ∀ t, s.lands.i3cBusy = some t →
      (past s t 10000000 = false → exec .i3cTimeout s = .next s) ∧
      (past s t 10000000 = true → exec .i3cTimeout s = .next { s with lands.i3cBusy := none })) ∧
  ∀ (op : TapOp) (s : State),
    (s.life = .held ∨ op = .bypass ∨ op = .idcode → exec (.tapInstruction op) s = .next { s with lands.tap := op }) ∧
    (s.life ≠ .held → op = .extest ∨ op = .sample → exec (.tapInstruction op) s = .next { s with lands.tap := .bypass })

/-- PLAN_LOAD with a staged header that passes the format check begins a load at the time of the write. A load in progress,
which has not reached step 9, is abandoned by LOAD_TIMEOUT once 250 ms have passed since the write: no load is left, the
shadow set is empty, the code is CFG_LOAD_TIMEOUT with the step reached in the detail. Within the 250 ms LOAD_TIMEOUT
changes nothing, nor does it where no load is in progress. [R70] -/
def Obligations.LateLoadsAreAbandoned : Prop :=
  (∀ (c : Cmd) (n : W32) (head : List Byte) (s : State), Granted c s → s.cfg.load = none → s.rst.fwLoad = none →
    s.cfg.prepared = none → s.cfg.shadow = none → stagingRead s (min n.toNat 256) = .ok head →
    lowest (checkFormat head n.toNat) = none →
    ∃ t : State, exec (.planLoad c n) s = .next t ∧ ∃ l : Load, t.cfg.load = some l ∧ l.began = s.now) ∧
  (∀ (l : Load) (s : State), serving s = true → s.cfg.load = some l → 250000000 ≤ s.now - l.began →
    exec .loadTimeout s = .next { s with
      cfg := { s.cfg with load := none, shadow := none, loadCode := 0x0E, loadDetail := BitVec.ofNat 16 l.step, rejectOffset := 0 } }) ∧
  (∀ (l : Load) (s : State), serving s = true → s.cfg.load = some l → s.now - l.began < 250000000 →
    exec .loadTimeout s = .next s) ∧
  ∀ s : State, serving s = true → s.cfg.load = none → exec .loadTimeout s = .next s

/-- Where the device runs and grants the access, an MREAD of LNK_NODE_ADDR answers a value whose bits 15:0 are the node
address that enumeration assigned, with bit 16 set and bits 63:17 zero; where none is assigned it answers zero. A
REGISTER_WRITE of it is answered and stamped and changes nothing else. At reset no address is assigned and the value is
zero. [R460] -/
def Obligations.NodeAddressRegister : Prop :=
  (∀ (c : Cmd) (n : Node) (s : State), Granted c s → s.lnk.node = some n →
    ∃ v : W64, v.extractLsb' 0 16 = n ∧ v.getLsbD 16 = true ∧ v.extractLsb' 17 47 = 0 ∧
      exec (.mread c 0xB00A0) s = .next (answerMgmt c (.mresp 0xB00A0 v 0) s)) ∧
  (∀ (c : Cmd) (s : State), Granted c s → s.lnk.node = none →
    exec (.mread c 0xB00A0) s = .next (answerMgmt c (.mresp 0xB00A0 0 0) s)) ∧
  (∀ (c : Cmd) (d : W64) (s : State), Granted c s → exec (.registerWrite c 0xB00A0 d) s = .next (taken c 0xB00A0 d s)) ∧
  State.reset.lnk.node = none
end

