-- ==== Sys2Proof/Laws/Bytes.lean ====
section
/-! SUPPORT. Bytes of numbers, fields of byte lists, and flits that carry their check. -/

namespace Sys2Proof.Machine

@[simp] theorem toLe_length (n v : Nat) : (toLe n v).length = n := by
  induction n generalizing v with
  | zero => rfl
  | succ n ih => simp [toLe, ih]

/-- The bytes of a number spell it again, up to their width. -/
theorem leNat_toLe (n v : Nat) : leNat (toLe n v) = v % 256 ^ n := by
  induction n generalizing v with
  | zero => simp [toLe, leNat, Nat.mod_one]
  | succ n ih =>
    rw [toLe, leNat, ih, Nat.pow_succ', Nat.mod_mul]
    simp

/-- A field within the first part of a list is that part's. -/
theorem fieldAt_left {b x : List Byte} {off len : Nat} (h : off + len ≤ b.length) : fieldAt (b ++ x) off len = fieldAt b off len := by
  unfold fieldAt slice
  rw [List.drop_append_of_le_length (by omega), List.take_append_of_le_length (by simp; omega)]

/-- A flit whose last 8 bytes are the check over a body that keeps R430's layout is good (R431). -/
theorem flitGood_checked {b : List Byte} (h : b.length = 248) (hk : u8 b 0 ≤ 3) (hc : u8 b 1 < 16) (hr : u8 b 3 = 0)
    (hp : u8 b 0 = 1 ∧ 1 ≤ u8 b 2 ∧ u8 b 2 ≤ 232 ∨ u8 b 0 ≠ 1 ∧ u8 b 2 = 0) : flitGood (b ++ toLe 8 (crc64 b).toNat) = true := by
  have e : ∀ i < 248, u8 (b ++ toLe 8 (crc64 b).toNat) i = u8 b i := fun i hi => fieldAt_left (by omega)
  have t : (b ++ toLe 8 (crc64 b).toNat).take 0xF8 = b := by rw [← h]; simp
  have c : u64 (b ++ toLe 8 (crc64 b).toNat) 0xF8 = (crc64 b).toNat := by
    unfold u64 fieldAt slice
    rw [← h, List.drop_left, List.take_of_length_le (by simp), leNat_toLe]
    exact Nat.mod_eq_of_lt (crc64 b).isLt
  unfold flitGood
  simp only [t, c, e 0 (by omega), e 1 (by omega), e 2 (by omega), e 3 (by omega), List.length_append, h, toLe_length, hr]
  rcases hp with ⟨h0, h1, h2⟩ | ⟨h0, h1⟩
  · simp [h0, h1, h2, hc]
  · simp [h0, h1, hc, hk]

end Sys2Proof.Machine
end

