-- ==== Sys2Proof/Laws/Ops.lean ====
section
/-! SUPPORT. What the shared operations do: sending, records, stamping, management accesses. -/

namespace Sys2Proof.Machine

/-! ### Guards -/

theorem whenServing_pos {s : State} (h : serving s = true) (f : State → State) : whenServing s f = f s := by
  simp [whenServing, h]

theorem whenServing_neg {s : State} (h : serving s = false) (f : State → State) : whenServing s f = s := by
  simp [whenServing, h]

/-! ### Stamping -/

/-- Below the limits of R135 a stamp only takes the next ticket. -/
theorem stamp_below {s : State} (h : s.wb.seq.toNat < 0xFFF000000000) :
    stamp s = ({ s with wb.seq := s.wb.seq + 1 }, ticketNext s) := by
  have e : (ticketNext s).toNat % 2 ^ 48 = s.wb.seq.toNat := by
    simp only [ticketNext, BitVec.toNat_append]
    have := s.wb.seq.isLt
    rw [Nat.or_mod_two_pow, Nat.shiftLeft_eq, Nat.mul_mod_left, Nat.zero_or, Nat.mod_eq_of_lt this]
  have h1 : (decide (0xFFF000000000 ≤ (ticketNext s).toNat % 2 ^ 48) && !s.wb.seqWarn) = false := by
    rw [e, decide_eq_false (by omega), Bool.false_and]
  have h2 : (decide (0xFFFFFFFF0000 ≤ (ticketNext s).toNat % 2 ^ 48) && !s.wb.seqStop) = false := by
    rw [e, decide_eq_false (by omega), Bool.false_and]
  simp only [stamp, h1, h2, Bool.false_eq_true, if_false]

theorem stamped_below {s : State} (h : s.wb.seq.toNat < 0xFFF000000000) (f : State → Ticket → State) :
    stamped s f = f { s with wb.seq := s.wb.seq + 1 } (ticketNext s) := by
  simp [stamped, stamp_below h]

theorem stampedIf_below {s : State} (hs : serving s = true) (h : s.wb.seq.toNat < 0xFFF000000000) (f : State → Ticket → State) :
    stampedIf s f = f { s with wb.seq := s.wb.seq + 1 } (ticketNext s) := by
  simp [stampedIf, hs, stamped_below h]

/-! ### Management accesses -/

theorem serving_live {s : State} (h : serving s = true) {offset : W64} (ho : regBits offset 16 8 < 0x15) : pageMode s offset = .live := by
  simp only [serving, Bool.and_eq_true, beq_iff_eq, bne_iff_ne, ne_eq] at h
  have h1 : ¬ (0x15 ≤ regBits offset 16 8) := by omega
  simp [pageMode, h.1.1, h.1.2, h1]

/-- What a granted write does: it is answered and stamped, and then takes effect. -/
theorem mgmtWrite_granted {c : Cmd} {s : State} (g : Granted c s) {offset : W64} (ho : regBits offset 16 8 < 0x15)
    (ha : aligned offset = true) (data : W64) (effect : Ticket → State → State) :
    mgmtWrite c offset data effect s = effect (ticketNext s) (taken c offset data s) := by
  obtain ⟨hs, hm, hr, hq⟩ := g
  have e : manage c offset data (fun s => (s, data)) s = answerMgmt c (.mresp offset data 0) s := by
    simp [manage, serving_live hs ho, hr, hm, ha]
  have hs' : serving (answerMgmt c (.mresp offset data 0) s) = true := hs
  have hq' : (answerMgmt c (.mresp offset data 0) s).wb.seq.toNat < 0xFFF000000000 := hq
  simp only [mgmtWrite, serving_live hs ho, hr, hm, ha, e, hs', stamped_below hq', Option.isSome_none, Bool.not_true, Bool.or_self,
    Bool.false_eq_true, if_false, if_true]
  rfl

end Sys2Proof.Machine
end

