-- ==== Sys2Proof/Laws/Frames.lean ====
section
/-! SUPPORT. What the shared operations change, and that they change nothing else. -/

namespace Sys2Proof.Machine

/-! ### Memory writes -/

theorem pokeByte_frame (addr : Nat) (v : Byte) (s : State) : pokeByte addr v s = { s with mem.cells := (pokeByte addr v s).mem.cells } := by
  unfold pokeByte; split <;> rfl

theorem pokeBytes_frame (addr : Nat) (bs : List Byte) (s : State) : pokeBytes addr bs s = { s with mem.cells := (pokeBytes addr bs s).mem.cells } := by
  induction bs generalizing addr s with
  | nil => rfl
  | cons b bs ih => rw [pokeBytes, ih, pokeByte_frame]

theorem objPut_frame (id off : Nat) (bs : List Byte) (s : State) : objPut id off bs s = { s with mem.cells := (objPut id off bs s).mem.cells } := by
  unfold objPut; split
  · exact pokeBytes_frame _ _ _
  · rfl

theorem writeSlot_frame (c : Coll) (n : Nat) (st : SlotState) (s : State) :
    writeSlot c n st s = { s with mem.cells := (writeSlot c n st s).mem.cells } := objPut_frame _ _ _ _

theorem writeVector_frame (c : Coll) (slot : Nat) (id : W64) (pos : Nat) (vec : List Byte) (s : State) :
    writeVector c slot id pos vec s = { s with mem.cells := (writeVector c slot id pos vec s).mem.cells } := by
  unfold writeVector
  generalize h : objPut c.spec.vectors (c.vectorAt slot) vec s = a
  have ea : a = { s with mem.cells := a.mem.cells } := by rw [← h]; exact objPut_frame _ _ _ _
  clear h
  dsimp only
  generalize h : (if c.par.cls = 1 then objPut c.spec.codes (c.codeAt slot) _ a else a) = b
  have eb : b = { a with mem.cells := b.mem.cells } := by
    rw [← h]; split
    · exact objPut_frame _ _ _ _
    · rfl
  clear h
  split
  · rw [eb, ea]
  · rw [objPut_frame, eb, ea]

/-- A run of operations that each change the cells alone changes the cells alone. -/
theorem foldl_cells {α : Type} (f : State → α → State) (h : ∀ s a, f s a = { s with mem.cells := (f s a).mem.cells }) (l : List α) (s : State) :
    l.foldl f s = { s with mem.cells := (l.foldl f s).mem.cells } := by
  induction l generalizing s with
  | nil => rfl
  | cons a l ih => rw [List.foldl_cons, ih, h]

/-! ### Requests -/

/-- A request of this device that is not a DECODE being stepped ends: it is gone, and its completion stands at the end of the hold-back
queue (R150). -/
theorem finish_own {r : Req} {s : State} (o : Outcome) (hm : (findReq s r.ticket).isNone = false) (hb : r.boss = none) (hd : r.dec = none) :
    ∃ (k : Comp) (x : State), finish r o s = x ∧ x.job = { s.job with reqs := s.job.reqs.filter (·.ticket != r.ticket) } ∧
      x.wb = { s.wb with holdback := s.wb.holdback ++ [k] } ∧ x.srch = s.srch ∧ x.gth = s.gth ∧ x.stk = s.stk ∧ x.cfg = s.cfg ∧
      x.lnk = s.lnk ∧ x.out = s.out ∧ x.now = s.now ∧ x.dlm = s.dlm ∧ x.flt = s.flt ∧ x.dom = s.dom ∧ x.log = s.log ∧ x.haul = s.haul ∧ x.mem.cells = s.mem.cells ∧
      k.ticket = r.ticket ∧ k.tag = r.desc.tag ∧ k.status = o.status ∧ k.detail = o.detail ∧ k.result0 = o.result0 ∧
      k.result = o.result ∧ k.pos = none := by
  unfold finish
  simp only [hm, Bool.false_eq_true, if_false, closeDecode, hd, hb]
  split <;> (refine ⟨_, _, rfl, rfl, rfl, ?_⟩; simp [freeCaches, dropReq])

end Sys2Proof.Machine
end

