-- ==== Sys2Proof/Laws/Memory.lean ====
section
/-! SUPPORT. Cells: reading after writing, and the canonical form that every memory operation keeps. -/

namespace Sys2Proof.Machine

/-- Every address of the cells lies above `a`. -/
def cellsAbove (a : Nat) (cs : List Host.Cell) : Prop := ∀ c ∈ cs, a < c.1

@[simp] theorem cellsWf_nil (d : Byte) : cellsWf d [] = true := rfl

theorem cellsWf_cons {d : Byte} {c : Host.Cell} {cs : List Host.Cell} :
    cellsWf d (c :: cs) = true ↔ c.2 ≠ d ∧ cellsAbove c.1 cs ∧ cellsWf d cs = true := by
  induction cs generalizing c with
  | nil => simp [cellsWf, cellsAbove]
  | cons e es ih =>
    simp only [cellsWf, Bool.and_eq_true, bne_iff_ne, ne_eq, decide_eq_true_eq, cellsAbove, List.mem_cons, forall_eq_or_imp]
    constructor
    · rintro ⟨⟨h1, h2⟩, h3⟩
      exact ⟨h1, ⟨h2, fun x hx => Nat.lt_trans h2 ((ih.mp h3).2.1 x hx)⟩, h3⟩
    · rintro ⟨h1, ⟨h2, -⟩, h3⟩
      exact ⟨⟨h1, h2⟩, h3⟩

theorem cellsAbove_put {d : Byte} {a b : Nat} {v : Byte} {cs : List Host.Cell} (h : cellsAbove b cs) (hb : b < a) :
    cellsAbove b (cellPut d a v cs) := by
  induction cs with
  | nil =>
    intro x hx
    simp only [cellPut] at hx
    split at hx
    · cases hx
    · simp only [List.mem_singleton] at hx; subst hx; exact hb
  | cons c cs ih =>
    have hc : b < c.1 := h c (by simp)
    have ht : cellsAbove b cs := fun x hx => h x (by simp [hx])
    intro x hx
    simp only [cellPut] at hx
    split at hx
    · rcases List.mem_cons.mp hx with rfl | hx
      · exact hc
      · exact ih ht x hx
    · split at hx <;> split at hx
      · exact ht x hx
      · rcases List.mem_cons.mp hx with rfl | hx
        · exact hb
        · exact ht x hx
      · exact h x hx
      · rcases List.mem_cons.mp hx with rfl | hx
        · exact hb
        · exact h x hx

/-- A write of one cell keeps the canonical form. -/
@[simp] theorem cellPut_wf {d : Byte} (a : Nat) (v : Byte) {cs : List Host.Cell} (h : cellsWf d cs = true) :
    cellsWf d (cellPut d a v cs) = true := by
  induction cs with
  | nil =>
    simp only [cellPut]
    split
    · exact h
    · simpa [cellsWf] using ‹¬v = d›
  | cons c cs ih =>
    obtain ⟨h1, h2, h3⟩ := cellsWf_cons.mp h
    simp only [cellPut]
    split
    · exact cellsWf_cons.mpr ⟨h1, cellsAbove_put h2 ‹_›, ih h3⟩
    · split <;> split
      · exact h3
      · refine cellsWf_cons.mpr ⟨‹_›, ?_, h3⟩
        have : c.1 = a := ‹_›
        exact this ▸ h2
      · exact h
      · refine cellsWf_cons.mpr ⟨‹_›, ?_, h⟩
        intro x hx
        have : a < c.1 := by omega
        rcases List.mem_cons.mp hx with rfl | hx
        · exact this
        · exact Nat.lt_trans this (h2 x hx)

/-- A write of a run of bytes keeps the canonical form. -/
@[simp] theorem cellsPut_wf {d : Byte} (a : Nat) (bs : List Byte) {cs : List Host.Cell} (h : cellsWf d cs = true) :
    cellsWf d (cellsPut d a bs cs) = true := by
  induction bs generalizing a cs with
  | nil => exact h
  | cons b bs ih => exact ih (a + 1) (cellPut_wf a b h)

@[simp] theorem filter_wf {d : Byte} (p : Host.Cell → Bool) {cs : List Host.Cell} (h : cellsWf d cs = true) : cellsWf d (cs.filter p) = true := by
  induction cs with
  | nil => exact h
  | cons c cs ih =>
    obtain ⟨h1, h2, h3⟩ := cellsWf_cons.mp h
    simp only [List.filter_cons]
    split
    · exact cellsWf_cons.mpr ⟨h1, fun x hx => h2 x (List.mem_filter.mp hx).1, ih h3⟩
    · exact ih h3

/-- An erase keeps the canonical form. -/
@[simp] theorem cellsClear_wf {d : Byte} (a n : Nat) {cs : List Host.Cell} (h : cellsWf d cs = true) : cellsWf d (cellsClear a n cs) = true :=
  filter_wf _ h

/-- A written cell reads as what was written, and every other cell as before. -/
theorem cellGet_put {d : Byte} (a b : Nat) (v : Byte) {cs : List Host.Cell} (h : cellsWf d cs = true) :
    cellGet d (cellPut d a v cs) b = if a = b then v else cellGet d cs b := by
  induction cs with
  | nil =>
    simp only [cellPut]
    split
    · simp_all [cellGet]
    · simp [cellGet]
  | cons c cs ih =>
    obtain ⟨-, h2, h3⟩ := cellsWf_cons.mp h
    have none_at (n : Nat) (hn : n ≤ c.1) : cellGet d cs n = d := by
      have : ∀ (ds : List Host.Cell), cellsAbove n ds → cellGet d ds n = d := by
        intro ds
        induction ds with
        | nil => intro _; rfl
        | cons e es ihe =>
          intro he
          have : n < e.1 := he e (by simp)
          simp only [cellGet, show ¬ e.1 = n by omega, if_false]
          exact ihe fun x hx => he x (by simp [hx])
      exact this cs fun x hx => Nat.lt_of_le_of_lt hn (h2 x hx)
    simp only [cellPut]
    split
    · simp only [cellGet, ih h3]
      split <;> split <;> first | rfl | omega
    · split
      · have hc : c.1 = a := ‹_›
        split
        · have hv : v = d := ‹_›
          by_cases hab : a = b
          · subst hab hv; simp [none_at a (by omega)]
          · simp [cellGet, hab, show ¬ c.1 = b by omega]
        · by_cases hab : a = b
          · simp [cellGet, hab]
          · simp [cellGet, hab, show ¬ c.1 = b by omega]
      · split
        · have hv : v = d := ‹_›
          by_cases hab : a = b
          · subst hab hv
            simp [cellGet, show ¬ c.1 = a by omega, none_at a (by omega)]
          · simp [hab]
        · by_cases hab : a = b
          · simp [cellGet, hab]
          · simp [cellGet, hab]

end Sys2Proof.Machine
end

