-- ==== Sys2Proof/Laws/Keeps.lean ====
section
/-! SUPPORT. What every operation keeps: the queue, and the canonical form of the memories. The lemmas of the Keeps files say it
once for each operation, in the order of the files of the machine. -/

namespace Sys2Proof.Machine

/-- The queue is `q`, and the memories are in canonical form. -/
def Keeps (q : List Instr) (s : State) : Prop := s.pending = q ∧ Memory.wf s

/-- The canonical form of one memory, beside the queue of the state that it comes from. -/
def Kept (_ : List Instr) (d : Byte) (cs : List Host.Cell) : Prop := cellsWf d cs = true

variable {q : List Instr}

@[simp] theorem keeps_mk (life now free pending out cfg sec wb job dlm flt log clk pwr rst dom lnk mgmt mem haul stk srch gth scr txt rrk dec lands) :
    Keeps q (State.mk life now free pending out cfg sec wb job dlm flt log clk pwr rst dom lnk mgmt mem haul stk srch gth scr txt rrk dec lands) ↔
      (pending = q ∧ Kept q unwritten mem.cells ∧ Kept q erased log.flash ∧ Kept q unwritten flt.accs ∧ Kept q unwritten flt.store) := Iff.rfl

@[simp] theorem keeps_queue {s : State} (h : Keeps q s) : (s.pending = q) ↔ True := iff_true_intro h.1
@[simp] theorem keeps_cells {s : State} (h : Keeps q s) : Kept q unwritten s.mem.cells := h.2.1
@[simp] theorem keeps_flash {s : State} (h : Keeps q s) : Kept q erased s.log.flash := h.2.2.1
@[simp] theorem keeps_accs {s : State} (h : Keeps q s) : Kept q unwritten s.flt.accs := h.2.2.2.1
@[simp] theorem keeps_store {s : State} (h : Keeps q s) : Kept q unwritten s.flt.store := h.2.2.2.2

/-! ### Through the forms a meaning is built of -/

@[simp] theorem keeps_ite {c : Prop} [Decidable c] {a b : State} (ha : Keeps q a) (hb : Keeps q b) : Keeps q (if c then a else b) := by
  split <;> assumption

@[simp] theorem keeps_foldl {α : Type} {f : State → α → State} (hf : ∀ s x, Keeps q s → Keeps q (f s x)) {s : State} (h : Keeps q s)
    (xs : List α) : Keeps q (xs.foldl f s) := by
  induction xs generalizing s with
  | nil => exact h
  | cons x xs ih => exact ih (hf s x h)

@[simp] theorem keeps_foldl_fst {α β : Type} {f : State × β → α → State × β} (hf : ∀ x y, Keeps q x.1 → Keeps q (f x y).1)
    {x : State × β} (h : Keeps q x.1) (ys : List α) : Keeps q (ys.foldl f x).1 := by
  induction ys generalizing x with
  | nil => exact h
  | cons y ys ih => exact ih (hf x y h)

@[simp] theorem keeps_foldl_snd {α β : Type} {f : β × State → α → β × State} (hf : ∀ x y, Keeps q x.2 → Keeps q (f x y).2)
    {x : β × State} (h : Keeps q x.2) (ys : List α) : Keeps q (ys.foldl f x).2 := by
  induction ys generalizing x with
  | nil => exact h
  | cons y ys ih => exact ih (hf x y h)

@[simp] theorem keeps_elim {α : Type} {o : Option α} {a : State} {f : α → State} (ha : Keeps q a) (hf : ∀ x, Keeps q (f x)) :
    Keeps q (o.elim a f) := by
  cases o
  · exact ha
  · exact hf _

/-! ### Cells -/

@[simp] theorem kept_nil (d : Byte) : Kept q d [] := rfl
@[simp] theorem kept_put {d : Byte} (a : Nat) (v : Byte) {cs : List Host.Cell} (h : Kept q d cs) : Kept q d (cellPut d a v cs) := cellPut_wf a v h
@[simp] theorem kept_puts {d : Byte} (a : Nat) (bs : List Byte) {cs : List Host.Cell} (h : Kept q d cs) : Kept q d (cellsPut d a bs cs) :=
  cellsPut_wf a bs h
@[simp] theorem kept_filter {d : Byte} (p : Host.Cell → Bool) {cs : List Host.Cell} (h : Kept q d cs) : Kept q d (cs.filter p) := filter_wf p h
@[simp] theorem kept_clear {d : Byte} (a n : Nat) {cs : List Host.Cell} (h : Kept q d cs) : Kept q d (cellsClear a n cs) := cellsClear_wf a n h

@[simp] theorem kept_ite {d : Byte} {c : Prop} [Decidable c] {a b : List Host.Cell} (ha : Kept q d a) (hb : Kept q d b) :
    Kept q d (if c then a else b) := by split <;> assumption

@[simp] theorem kept_foldl {α : Type} {d : Byte} {f : List Host.Cell → α → List Host.Cell} (hf : ∀ s x, Kept q d s → Kept q d (f s x))
    {s : List Host.Cell} (h : Kept q d s) (xs : List α) : Kept q d (xs.foldl f s) := by
  induction xs generalizing s with
  | nil => exact h
  | cons x xs ih => exact ih (hf s x h)

end Sys2Proof.Machine
end

