-- ==== Sys2Proof/Laws/KeepsOps.lean ====
section
/-! SUPPORT. Memory, flags, shared operations, management, plans and searches: what each operation keeps. -/

namespace Sys2Proof.Machine

variable {q : List Instr}

/-! ### Memory -/

@[simp] theorem putWord_keeps {s : State} (tier unit off : Nat) (w : W40) (hk : Keeps q s) :
    Keeps q (putWord tier unit off w s) := by
  unfold putWord
  try dsimp only
  (repeat' split) <;> simp (maxDischargeDepth := 40) +contextual [*]

@[simp] theorem pokeByte_keeps {s : State} (addr : Nat) (v : Byte) (hk : Keeps q s) : Keeps q (pokeByte addr v s) := by
  unfold pokeByte
  split <;> simp [hk]

@[simp] theorem pokeBytes_keeps {s : State} (addr : Nat) (bs : List Byte) (h : Keeps q s) : Keeps q (pokeBytes addr bs s) := by
  induction bs generalizing addr s with
  | nil => exact h
  | cons b bs ih => exact ih (addr + 1) (pokeByte_keeps addr b h)

@[simp] theorem homePages_keeps {s : State} (tier first : Nat) (units : List Nat) (n i : Nat) (h : Keeps q s) :
    Keeps q (homePages tier first units n i s) := by
  induction n generalizing i s with
  | zero => exact h
  | succ n ih => exact ih (i + 1) h

@[simp] theorem placeObject_keeps {s : State} (serial : Nat) (x : Placement) (hk : Keeps q s) :
    Keeps q (placeObject serial x s) := by
  unfold placeObject
  (repeat' split) <;> simp [hk]

@[simp] theorem placeAll_keeps {s : State} (serial : Nat) (p : Plan) (hk : Keeps q s) : Keeps q (placeAll serial p s) := by
  unfold placeAll
  try dsimp only
  (repeat' split) <;> simp (maxDischargeDepth := 40) +contextual [*]

@[simp] theorem freeObjects_keeps {s : State} (serial : Nat) (hk : Keeps q s) : Keeps q (freeObjects serial s) := by
  unfold freeObjects
  simp [hk]

@[simp] theorem objPut_keeps {s : State} (id off : Nat) (bs : List Byte) (hk : Keeps q s) : Keeps q (objPut id off bs s) := by
  unfold objPut
  split <;> simp [hk]

/-! ### Flags -/

@[simp] theorem countMerge_keeps {s : State} (t : Ticket) (m : MergeCounts) (hk : Keeps q s) : Keeps q (countMerge t m s) := by
  unfold countMerge
  split <;> simp [hk]

@[simp] theorem countWalk_keeps {s : State} (c : WalkCounts) (hk : Keeps q s) : Keeps q (countWalk c s) := by
  unfold countWalk
  simp [hk]

@[simp] theorem countArith_keeps {s : State} (c : ArithCounts) (hk : Keeps q s) : Keeps q (countArith c s) := by
  unfold countArith
  simp [hk]

@[simp] theorem countText_keeps {s : State} (r : TokResult) (hk : Keeps q s) : Keeps q (countText r s) := by
  unfold countText
  simp [hk]

@[simp] theorem cancelMissed_keeps {s : State} (hk : Keeps q s) : Keeps q (cancelMissed s) := by
  unfold cancelMissed
  simp [hk]

/-! ### Ops -/

@[simp] theorem whenServing_keeps {s : State} (f : State → State) (hf : ∀ s, Keeps q s → Keeps q (f s)) (h : Keeps q s) : Keeps q (whenServing s f) := by
  unfold whenServing; split
  · exact hf s h
  · exact h

@[simp] theorem send_keeps {s : State} (dst : Node) (txn : W16) (t : Ticket) (m : Msg) (hk : Keeps q s) :
    Keeps q (send dst txn t m s) := by
  unfold send
  simp [hk]

@[simp] theorem sendEach_keeps {s : State} (dsts : List Node) (t : Ticket) (m : Msg) (hk : Keeps q s) :
    Keeps q (sendEach dsts t m s) := by
  unfold sendEach
  try dsimp only
  (repeat' split) <;> simp (maxDischargeDepth := 40) +contextual [*]

@[simp] theorem ringWrite_keeps {s : State} (base : W64) (r : Ring) (entry : List Byte) (hk : Keeps q s) :
    Keeps q (ringWrite base r entry s) := by
  unfold ringWrite
  simp [hk]

@[simp] theorem postAlert_keeps {s : State} (r : Rec) (hk : Keeps q s) : Keeps q (postAlert r s) := by
  unfold postAlert
  (repeat' split) <;> simp [hk]

@[simp] theorem queueRec_keeps {s : State} (r : Rec) (hk : Keeps q s) : Keeps q (queueRec r s) := by
  unfold queueRec
  dsimp only
  (repeat' split) <;> simp [hk]

@[simp] theorem event_keeps {s : State} (t : Ticket) (type : Nat) (l : Loc) (code attempts action : Nat) (aux : W64) (extra : List Byte) (hk : Keeps q s) :
    Keeps q (event t type l code attempts action aux extra s) := by
  unfold event
  simp [hk]

@[simp] theorem setReq_keeps {s : State} (r : Req) (hk : Keeps q s) : Keeps q (setReq r s) := by
  unfold setReq
  simp [hk]

@[simp] theorem dropReq_keeps {s : State} (t : Ticket) (hk : Keeps q s) : Keeps q (dropReq t s) := by
  unfold dropReq
  simp [hk]

@[simp] theorem setColl_keeps {s : State} (c : Coll) (hk : Keeps q s) : Keeps q (setColl c s) := by
  unfold setColl
  simp [hk]

@[simp] theorem setTable_keeps {s : State} (t : Table) (hk : Keeps q s) : Keeps q (setTable t s) := by
  unfold setTable
  simp [hk]

@[simp] theorem journal_keeps {s : State} (kind : Nat) (t : Ticket) (tag : W64) (body : List Byte) (hk : Keeps q s) :
    Keeps q (journal kind t tag body s).1 := by
  unfold journal
  dsimp only
  (repeat' split) <;> simp [hk]

@[simp] theorem deliverStream_keeps {s : State} (r : Req) (recs : List (List Byte)) (hk : Keeps q s) :
    Keeps q (deliverStream r recs s) := by
  unfold deliverStream
  dsimp only
  (repeat' split) <;> simp +contextual [*]

@[simp] theorem pumpStream_keeps {s : State} (n : Nat) (h : Keeps q s) : Keeps q (pumpStream n s) := by
  induction n generalizing s with
  | zero => exact h
  | succ n ih =>
    unfold pumpStream; try dsimp only
    (repeat' split) <;> first | exact h | (apply ih; simp (maxDischargeDepth := 40) +contextual [h])

@[simp] theorem pumpStreams_keeps {s : State} (hk : Keeps q s) : Keeps q (pumpStreams s) := by
  unfold pumpStreams
  simp [hk]

@[simp] theorem freeCaches_keeps {s : State} (p : Cache → Bool) (hk : Keeps q s) : Keeps q (freeCaches p s) := by
  unfold freeCaches
  simp [hk]

@[simp] theorem closeDecode_keeps {s : State} (r : Req) (o : Outcome) (hk : Keeps q s) : Keeps q (closeDecode r o s).1 := by
  unfold closeDecode
  dsimp only
  (repeat' split) <;> simp [hk]

@[simp] theorem finish_keeps {s : State} (r : Req) (o : Outcome) (hk : Keeps q s) : Keeps q (finish r o s) := by
  unfold finish
  try dsimp only
  (repeat' split) <;> simp (maxDischargeDepth := 40) +contextual [*]

@[simp] theorem cancelAway_keeps {s : State} (r : Req) (expired : Bool) (hk : Keeps q s) : Keeps q (cancelAway r expired s) := by
  unfold cancelAway
  simp [hk]

@[simp] theorem endReq_keeps {s : State} (status detail : Nat) (r : Req) (hk : Keeps q s) :
    Keeps q (endReq status detail r s) := by
  unfold endReq
  (repeat' split) <;> simp [hk]

@[simp] theorem endAll_keeps {s : State} (status detail : Nat) (hk : Keeps q s) : Keeps q (endAll status detail s) := by
  unfold endAll
  try dsimp only
  (repeat' split) <;> simp (maxDischargeDepth := 40) +contextual [*]

@[simp] theorem discardSets_keeps {s : State} (hk : Keeps q s) : Keeps q (discardSets s) := by
  unfold discardSets
  try dsimp only
  (repeat' split) <;> simp (maxDischargeDepth := 40) +contextual [*]

@[simp] theorem stopFolds_keeps {s : State} (hk : Keeps q s) : Keeps q (stopFolds s) := by
  unfold stopFolds
  simp [hk]

@[simp] theorem teardown_keeps {s : State} (cause : Nat) (t : Ticket) (hk : Keeps q s) : Keeps q (teardown cause t s) := by
  unfold teardown
  try dsimp only
  (repeat' split) <;> simp (maxDischargeDepth := 40) +contextual [*]

@[simp] theorem stamp_keeps {s : State} (hk : Keeps q s) : Keeps q (stamp s).1 := by
  unfold stamp
  try dsimp only
  (repeat' split) <;> simp (maxDischargeDepth := 40) +contextual [*]

@[simp] theorem stamped_keeps {s : State} (f : State → Ticket → State) (hf : ∀ s t, Keeps q s → Keeps q (f s t)) (h : Keeps q s) :
    Keeps q (stamped s f) := hf _ _ (stamp_keeps h)

@[simp] theorem stampedIf_keeps {s : State} (f : State → Ticket → State) (hf : ∀ s t, Keeps q s → Keeps q (f s t)) (h : Keeps q s) :
    Keeps q (stampedIf s f) := by
  unfold stampedIf; split
  · exact stamped_keeps f hf h
  · exact hf s _ h

@[simp] theorem jobFault_keeps {s : State} (cause : Nat) (hk : Keeps q s) : Keeps q (jobFault cause s) := by
  unfold jobFault
  try dsimp only
  (repeat' split) <;> simp (maxDischargeDepth := 40) +contextual [*]

/-! ### Management -/

@[simp] theorem answerMgmt_keeps {s : State} (c : Cmd) (m : Msg) (hk : Keeps q s) : Keeps q (answerMgmt c m s) := by
  unfold answerMgmt
  simp [hk]

@[simp] theorem manage_keeps {s : State} (c : Cmd) (offset data : W64) (act : State → State × W64) (ha : ∀ s, Keeps q s → Keeps q (act s).1)
    (h : Keeps q s) : Keeps q (manage c offset data act s) := by
  unfold manage; try dsimp only
  (repeat' split) <;> first | with_reducible exact h | simp (maxDischargeDepth := 40) +contextual [h, ha]

@[simp] theorem mgmtWrite_keeps {s : State} (c : Cmd) (offset data : W64) (f : Ticket → State → State)
    (hf : ∀ t s, Keeps q s → Keeps q (f t s)) (h : Keeps q s) : Keeps q (mgmtWrite c offset data f s) := by
  unfold mgmtWrite; try dsimp only
  (repeat' split) <;> first | with_reducible exact h | simp (maxDischargeDepth := 40) +contextual [h, hf]

@[simp] theorem bankSet_keeps {s : State} (reg : Nat) (src : Node) (v : W64) (hk : Keeps q s) :
    Keeps q (bankSet reg src v s) := by
  unfold bankSet
  simp [hk]

@[simp] theorem bankTouch_keeps {s : State} (reg : Nat) (src : Node) (hk : Keeps q s) : Keeps q (bankTouch reg src s) := by
  unfold bankTouch
  simp [hk]

/-! ### Plans -/

@[simp] theorem dropShadow_keeps {s : State} (hk : Keeps q s) : Keeps q (dropShadow s) := by
  unfold dropShadow
  split <;> simp [hk]

@[simp] theorem loadFail_keeps {s : State} (code detail off : Nat) (hk : Keeps q s) : Keeps q (loadFail code detail off s) := by
  unfold loadFail
  simp [hk]

@[simp] theorem makeColls_keeps {s : State} (p : Plan) (hk : Keeps q s) : Keeps q (makeColls p s) := by
  unfold makeColls
  refine keeps_foldl (fun s x h => ?_) hk _
  dsimp only
  (repeat' split) <;> simp [*]

@[simp] theorem makeTables_keeps {s : State} (p : Plan) (hk : Keeps q s) : Keeps q (makeTables p s) := by
  unfold makeTables
  refine keeps_foldl (fun s x h => ?_) hk _
  dsimp only
  (repeat' split) <;> simp [*]

@[simp] theorem loadDone_keeps {s : State} (l : Load) (hk : Keeps q s) : Keeps q (loadDone l s) := by
  unfold loadDone
  try dsimp only
  (repeat' split) <;> simp (maxDischargeDepth := 40) +contextual [*]

@[simp] theorem loadStep_keeps {s : State} (hk : Keeps q s) : Keeps q (loadStep s) := by
  unfold loadStep
  dsimp only
  (repeat' split) <;> simp [hk]

@[simp] theorem planLoad_keeps {s : State} (imageLen : Nat) (hk : Keeps q s) : Keeps q (planLoad imageLen s) := by
  unfold planLoad
  try dsimp only
  (repeat' split) <;> simp (maxDischargeDepth := 40) +contextual [*]

@[simp] theorem loadFenced_keeps {s : State} (hk : Keeps q s) : Keeps q (loadFenced s) := by
  unfold loadFenced
  split <;> simp [hk]

/-! ### SearchOps -/

@[simp] theorem writeSlot_keeps {s : State} (c : Coll) (n : Nat) (st : SlotState) (hk : Keeps q s) :
    Keeps q (writeSlot c n st s) := by
  unfold writeSlot
  simp [hk]

@[simp] theorem writeNode_keeps {s : State} (c : Coll) (n : Nat) (es : List W64) (hk : Keeps q s) :
    Keeps q (writeNode c n es s) := by
  unfold writeNode
  simp [hk]

@[simp] theorem takeBlock_keeps {s : State} (ctrl lblock : Nat) (use : BlockUse) (hk : Keeps q s) :
    Keeps q (takeBlock ctrl lblock use s) := by
  unfold takeBlock
  dsimp only
  split <;> simp [hk]

@[simp] theorem bufferWrite_keeps {s : State} (ctrl : Nat) (kind : BufKind) (lblock page bytes : Nat) (hk : Keeps q s) :
    Keeps q (bufferWrite ctrl kind lblock page bytes s) := by
  unfold bufferWrite
  simp [hk]

@[simp] theorem appendRecord_keeps {s : State} (coll slot gen tenant : Nat) (bytes : List Byte) (hk : Keeps q s) :
    Keeps q (appendRecord coll slot gen tenant bytes s) := by
  unfold appendRecord
  try dsimp only
  (repeat' split) <;> simp (maxDischargeDepth := 40) +contextual [*]

end Sys2Proof.Machine
end

