-- ==== Sys2Proof/Laws/KeepsJobs.lean ====
section
/-! SUPPORT. Gathers, requests, jobs, decoding, stages and the Assay: what each operation keeps. -/

namespace Sys2Proof.Machine

variable {q : List Instr}

/-! ### Gathers -/

@[simp] theorem addCount_keeps {s : State} (t : TableSpec) (r i n : Nat) (hk : Keeps q s) : Keeps q (addCount t r i n s) := by
  unfold addCount
  dsimp only
  split <;> simp [hk]

@[simp] theorem addCounts_keeps {s : State} (t : TableSpec) (v : Nat) (idx : List Nat) (hk : Keeps q s) :
    Keeps q (addCounts t v idx s) := by
  unfold addCounts
  try dsimp only
  (repeat' split) <;> simp (maxDischargeDepth := 40) +contextual [*]

/-! ### Flow -/

@[simp] theorem addReq_keeps {s : State} (r : Req) (hk : Keeps q s) : Keeps q (addReq r s) := by
  unfold addReq
  simp [hk]

@[simp] theorem enqueue_keeps {s : State} (r : Req) (hk : Keeps q s) : Keeps q (enqueue r s) := by
  unfold enqueue
  split <;> simp [hk]

@[simp] theorem sendWork_keeps {s : State} (r : Req) (reissue owed : Bool) (x : Nat × Node) (hk : Keeps q s) :
    Keeps q (sendWork r reissue owed x s) := by
  unfold sendWork
  simp [hk]

@[simp] theorem mergeCounted_keeps {s : State} (r : Req) (m : MergeCounts) (hk : Keeps q s) : Keeps q (mergeCounted r m s) := by
  unfold mergeCounted
  try dsimp only
  (repeat' split) <;> simp (maxDischargeDepth := 40) +contextual [*]

theorem openCache_keeps {s : State} (t : Ticket) (promptLen last fmt layers : Nat) {x : State × W64} (h : Keeps q s)
    (e : openCache t promptLen last fmt layers s = some x) : Keeps q x.1 := by
  unfold openCache at e; dsimp only at e; split at e
  · cases e
  · cases e; simp [h]

@[simp] theorem setMove_keeps {s : State} (v : PfMove) (hk : Keeps q s) : Keeps q (setMove v s) := by
  unfold setMove
  simp [hk]

@[simp] theorem countFetch_keeps {s : State} (xs : List (W64 × PackPassage)) (hk : Keeps q s) : Keeps q (countFetch xs s) := by
  unfold countFetch
  simp [hk]

@[simp] theorem sendPrompt_keeps {s : State} (r : Req) (hk : Keeps q s) : Keeps q (sendPrompt r s) := by
  unfold sendPrompt
  dsimp only
  (repeat' split) <;> simp [hk]

@[simp] theorem fanoutRerank_keeps {s : State} (r : Req) (hk : Keeps q s) : Keeps q (fanoutRerank r s).1 := by
  unfold fanoutRerank
  try dsimp only
  (repeat' split) <;> simp (maxDischargeDepth := 40) +contextual [*]

@[simp] theorem fanoutSearch_keeps {s : State} (r : Req) (hk : Keeps q s) : Keeps q (fanoutSearch r s).1 := by
  unfold fanoutSearch
  try dsimp only
  (repeat' split) <;> simp (maxDischargeDepth := 40) +contextual [*]

@[simp] theorem skipRerank_keeps {s : State} (r : Req) (hk : Keeps q s) : Keeps q (skipRerank r s).1 := by
  unfold skipRerank
  (repeat' split) <;> simp [hk]

@[simp] theorem openLocal_keeps {s : State} (r : Req) (h : Keeps q s) : Keeps q (openLocal r s).1 := by
  unfold openLocal; try dsimp only
  split
  · rename_i e; have := openCache_keeps _ _ _ _ _ h e; simp at this; simp [this]
  · simp [h]

@[simp] theorem mergeRerank_keeps {s : State} (r : Req) (hk : Keeps q s) : Keeps q (mergeRerank r s) := by
  unfold mergeRerank
  dsimp only
  (repeat' split) <;> simp [hk]

@[simp] theorem mergeSearch_keeps {s : State} (r : Req) (hk : Keeps q s) : Keeps q (mergeSearch r s) := by
  unfold mergeSearch
  try dsimp only
  (repeat' split) <;> simp (maxDischargeDepth := 40) +contextual [*]

@[simp] theorem whenAnswered_keeps {s : State} (r : Req) (hk : Keeps q s) : Keeps q (whenAnswered r s) := by
  unfold whenAnswered
  (repeat' split) <;> simp [hk]

@[simp] theorem searchAway_keeps {s : State} (r : Req) (hk : Keeps q s) : Keeps q (searchAway r s) := by
  unfold searchAway
  try dsimp only
  (repeat' split) <;> simp (maxDischargeDepth := 40) +contextual [*]

@[simp] theorem rerankAway_keeps {s : State} (r : Req) (hk : Keeps q s) : Keeps q (rerankAway r s) := by
  unfold rerankAway
  try dsimp only
  (repeat' split) <;> simp (maxDischargeDepth := 40) +contextual [*]

@[simp] theorem afterEncode_keeps {s : State} (go : Req → State → State) (hg : ∀ r s, Keeps q s → Keeps q (go r s)) (r : Req) (h : Keeps q s) :
    Keeps q (afterEncode go r s) := by
  unfold afterEncode; try dsimp only
  (repeat' split) <;> first | with_reducible exact h | simp (maxDischargeDepth := 40) +contextual [h, hg]

@[simp] theorem afterSearch_keeps {s : State} (go : Req → State → State) (hg : ∀ r s, Keeps q s → Keeps q (go r s)) (r : Req) (h : Keeps q s) :
    Keeps q (afterSearch go r s) := by
  unfold afterSearch; try dsimp only
  (repeat' split) <;> first | with_reducible exact h | simp (maxDischargeDepth := 40) +contextual [h, hg]

@[simp] theorem afterRerank_keeps {s : State} (r : Req) (hk : Keeps q s) : Keeps q (afterRerank r s) := by
  unfold afterRerank
  try dsimp only
  (repeat' split) <;> simp (maxDischargeDepth := 40) +contextual [*]

@[simp] theorem partSearched_keeps {s : State} (r : Req) (hk : Keeps q s) : Keeps q (partSearched r s) := by
  unfold partSearched
  simp [hk]

@[simp] theorem partReranked_keeps {s : State} (r : Req) (hk : Keeps q s) : Keeps q (partReranked r s) := by
  unfold partReranked
  simp [hk]

@[simp] theorem afterPhase_keeps {s : State} (go : Req → State → State) (hg : ∀ r s, Keeps q s → Keeps q (go r s)) (r : Req) (h : Keeps q s) :
    Keeps q (afterPhase go r s) := by
  unfold afterPhase; try dsimp only
  (repeat' split) <;> first | with_reducible exact h | first | with_reducible exact afterEncode_keeps go hg r h | with_reducible exact afterSearch_keeps go hg r h | simp (maxDischargeDepth := 40) [h]

@[simp] theorem advance_keeps {s : State} (n : Nat) (r : Req) (h : Keeps q s) : Keeps q (advance n r s) := by
  induction n generalizing r s with
  | zero => exact setReq_keeps r h
  | succ n ih =>
    unfold advance; split
    · exact afterPhase_keeps _ (fun r _ h => ih r h) r h
    · exact enqueue_keeps r h

@[simp] theorem localPrompt_keeps {s : State} (r : Req) (hk : Keeps q s) : Keeps q (localPrompt r s) := by
  unfold localPrompt
  try dsimp only
  (repeat' split) <;> simp (maxDischargeDepth := 40) +contextual [*]

@[simp] theorem expire_keeps {s : State} (r : Req) (hk : Keeps q s) : Keeps q (expire r s) := by
  unfold expire
  try dsimp only
  (repeat' split) <;> simp (maxDischargeDepth := 40) +contextual [*]

/-! ### Begin -/

@[simp] theorem sendMutation_keeps {s : State} (r : Req) (hk : Keeps q s) : Keeps q (sendMutation r s) := by
  unfold sendMutation
  try dsimp only
  (repeat' split) <;> simp (maxDischargeDepth := 40) +contextual [*]

@[simp] theorem claimDecode_keeps {s : State} (r : Req) (hk : Keeps q s) : Keeps q (claimDecode r s) := by
  unfold claimDecode
  try dsimp only
  (repeat' split) <;> simp (maxDischargeDepth := 40) +contextual [*]

@[simp] theorem forwardDecode_keeps {s : State} (r : Req) (hk : Keeps q s) : Keeps q (forwardDecode r s) := by
  unfold forwardDecode
  dsimp only
  split <;> simp [hk]

@[simp] theorem setPub_keeps {s : State} (b : Publication) (hk : Keeps q s) : Keeps q (setPub b s) := by
  unfold setPub
  simp [hk]

@[simp] theorem journaled_keeps {s : State} (t : Ticket) (pos : W64) (hk : Keeps q s) : Keeps q (journaled t pos s) := by
  unfold journaled
  simp [hk]

@[simp] theorem publishFail_keeps {s : State} (r : Req) (member : Nat) (hk : Keeps q s) : Keeps q (publishFail r member s) := by
  unfold publishFail
  try dsimp only
  (repeat' split) <;> simp (maxDischargeDepth := 40) +contextual [*]

@[simp] theorem retirePubs_keeps {s : State} (hk : Keeps q s) : Keeps q (retirePubs s) := by
  unfold retirePubs
  dsimp only
  (repeat' split) <;> simp +contextual [*]

@[simp] theorem publishSend_keeps {s : State} (b : Publication) (hk : Keeps q s) : Keeps q (publishSend b s) := by
  unfold publishSend
  try dsimp only
  (repeat' split) <;> simp (maxDischargeDepth := 40) +contextual [*]

@[simp] theorem publishPoint_keeps {s : State} (r : Req) (b : Publication) (hk : Keeps q s) : Keeps q (publishPoint r b s) := by
  unfold publishPoint
  try dsimp only
  repeat' first | (with_reducible assumption) | (with_reducible refine stamped_keeps _ (fun _ _ _ => ?_) ?_) | (with_reducible refine stampedIf_keeps _ (fun _ _ _ => ?_) ?_) | (with_reducible refine whenServing_keeps _ (fun _ _ => ?_) ?_) | (with_reducible refine keeps_foldl (fun _ _ _ => ?_) ?_ _) | (with_reducible refine keeps_foldl_fst (fun _ _ _ => ?_) ?_ _) | (with_reducible refine keeps_foldl_snd (fun _ _ _ => ?_) ?_ _) | (simp (maxDischargeDepth := 40) +contextual [*]; done) | split | (dsimp only)

@[simp] theorem publishCollect_keeps {s : State} (b : Publication) (hk : Keeps q s) : Keeps q (publishCollect b s) := by
  unfold publishCollect
  dsimp only
  (repeat' split) <;> simp [hk]

@[simp] theorem publishStart_keeps {s : State} (r : Req) (hk : Keeps q s) : Keeps q (publishStart r s) := by
  unfold publishStart
  try dsimp only
  (repeat' split) <;> simp (maxDischargeDepth := 40) +contextual [*]

@[simp] theorem begin'_keeps {s : State} (r : Req) (hk : Keeps q s) : Keeps q (begin' r s) := by
  unfold begin'
  dsimp only
  (repeat' split) <;> simp [hk]

@[simp] theorem beginWork_keeps {s : State} (r : Req) (hk : Keeps q s) : Keeps q (beginWork r s) := by
  unfold beginWork
  try dsimp only
  (repeat' split) <;> simp (maxDischargeDepth := 40) +contextual [*]

@[simp] theorem acceptDone_keeps {s : State} (r : Req) (hk : Keeps q s) : Keeps q (acceptDone r s) := by
  unfold acceptDone
  try dsimp only
  (repeat' split) <;> simp (maxDischargeDepth := 40) +contextual [*]

@[simp] theorem wakeEpoch_keeps {s : State} (hk : Keeps q s) : Keeps q (wakeEpoch s) := by
  unfold wakeEpoch
  try dsimp only
  (repeat' split) <;> simp (maxDischargeDepth := 40) +contextual [*]

/-! ### Swaps -/

@[simp] theorem swapRefuse_keeps {s : State} (code detail : Nat) (hk : Keeps q s) : Keeps q (swapRefuse code detail s) := by
  unfold swapRefuse
  simp [hk]

@[simp] theorem nextPointOf_keeps {s : State} (ps : List (Nat × List Migration)) (h : Keeps q s) : Keeps q (nextPointOf ps s) := by
  induction ps generalizing s with
  | nil => unfold nextPointOf; simp [h]
  | cons p ps ih =>
    unfold nextPointOf; dsimp only; split
    · apply ih; simp [h]
    · simp [h]

@[simp] theorem nextPoint_keeps {s : State} (hk : Keeps q s) : Keeps q (nextPoint s) := by
  unfold nextPoint
  simp [hk]

@[simp] theorem swapBoundary_keeps {s : State} (first count : Nat) (point : Option Ticket) (hk : Keeps q s) :
    Keeps q (swapBoundary first count point s) := by
  unfold swapBoundary
  try dsimp only
  repeat' first | (with_reducible assumption) | (with_reducible refine stamped_keeps _ (fun _ _ _ => ?_) ?_) | (with_reducible refine stampedIf_keeps _ (fun _ _ _ => ?_) ?_) | (with_reducible refine whenServing_keeps _ (fun _ _ => ?_) ?_) | (with_reducible refine keeps_foldl (fun _ _ _ => ?_) ?_ _) | (with_reducible refine keeps_foldl_fst (fun _ _ _ => ?_) ?_ _) | (with_reducible refine keeps_foldl_snd (fun _ _ _ => ?_) ?_ _) | (simp (maxDischargeDepth := 40) +contextual [*]; done) | split | (dsimp only)

@[simp] theorem swapStart_keeps {s : State} (t : Ticket) (first count : Nat) (point : Option Ticket) (hk : Keeps q s) :
    Keeps q (swapStart t first count point s) := by
  unfold swapStart
  dsimp only
  (repeat' split) <;> simp [hk]

@[simp] theorem swapCommand_keeps {s : State} (t : Ticket) (first count : Nat) (hk : Keeps q s) :
    Keeps q (swapCommand t first count s) := by
  unfold swapCommand
  (repeat' split) <;> simp [hk]

@[simp] theorem revertEpoch_keeps {s : State} (hk : Keeps q s) : Keeps q (revertEpoch s) := by
  unfold revertEpoch
  simp [hk]

@[simp] theorem domAbort_keeps {s : State} (d : DomSwap) (fails : List (Node × Nat × Nat)) (hk : Keeps q s) :
    Keeps q (domAbort d fails s) := by
  unfold domAbort
  try dsimp only
  (repeat' split) <;> simp (maxDischargeDepth := 40) +contextual [*]

@[simp] theorem domCommitSend_keeps {s : State} (d : DomSwap) (point : Ticket) (hk : Keeps q s) :
    Keeps q (domCommitSend d point s) := by
  unfold domCommitSend
  try dsimp only
  (repeat' split) <;> simp (maxDischargeDepth := 40) +contextual [*]

@[simp] theorem domCommit_keeps {s : State} (d : DomSwap) (hk : Keeps q s) : Keeps q (domCommit d s) := by
  unfold domCommit
  try dsimp only
  (repeat' split) <;> simp (maxDischargeDepth := 40) +contextual [*]

@[simp] theorem domCollect_keeps {s : State} (d : DomSwap) (hk : Keeps q s) : Keeps q (domCollect d s) := by
  unfold domCollect
  dsimp only
  split <;> simp [hk]

@[simp] theorem domainSwapCommand_keeps {s : State} (t : Ticket) (first count : Nat) (hk : Keeps q s) :
    Keeps q (domainSwapCommand t first count s) := by
  unfold domainSwapCommand
  try dsimp only
  (repeat' split) <;> simp (maxDischargeDepth := 40) +contextual [*]

@[simp] theorem commitPrepared_keeps {s : State} (epoch : Nat) (point : Ticket) (hk : Keeps q s) :
    Keeps q (commitPrepared epoch point s) := by
  unfold commitPrepared
  (repeat' split) <;> simp [hk]

/-! ### Jobs -/

@[simp] theorem openMember_keeps {s : State} (jobId : W32) (m : Member) (hk : Keeps q s) : Keeps q (openMember jobId m s) := by
  unfold openMember
  simp [hk]

@[simp] theorem jobOpen_keeps {s : State} (jobId : W32) (hk : Keeps q s) : Keeps q (jobOpen jobId s) := by
  unfold jobOpen
  dsimp only
  (repeat' split) <;> simp +contextual [*]

@[simp] theorem forwardEnd_keeps {s : State} (op : W64) (hk : Keeps q s) : Keeps q (forwardEnd op s) := by
  unfold forwardEnd
  try dsimp only
  (repeat' split) <;> simp (maxDischargeDepth := 40) +contextual [*]

@[simp] theorem endDrain_keeps {s : State} (hk : Keeps q s) : Keeps q (endDrain s) := by
  unfold endDrain
  split <;> simp [hk]

@[simp] theorem endAbort_keeps {s : State} (hk : Keeps q s) : Keeps q (endAbort s) := by
  unfold endAbort
  try dsimp only
  (repeat' split) <;> simp (maxDischargeDepth := 40) +contextual [*]

@[simp] theorem forceFault_keeps {s : State} (t : Ticket) (hk : Keeps q s) : Keeps q (forceFault t s) := by
  unfold forceFault
  split <;> simp [hk]

@[simp] theorem dropPub_keeps {s : State} (t : Ticket) (hk : Keeps q s) : Keeps q (dropPub t s) := by
  unfold dropPub
  simp [hk]

@[simp] theorem stopFoldOf_keeps {s : State} (t : Ticket) (hk : Keeps q s) : Keeps q (stopFoldOf t s) := by
  unfold stopFoldOf
  simp [hk]

@[simp] theorem cancelReq_keeps {s : State} (r : Req) (hk : Keeps q s) : Keeps q (cancelReq r s) := by
  unfold cancelReq
  try dsimp only
  (repeat' split) <;> simp (maxDischargeDepth := 40) +contextual [*]

@[simp] theorem cancelWhere_keeps {s : State} (p : Req → Bool) (hk : Keeps q s) : Keeps q (cancelWhere p s) := by
  unfold cancelWhere
  split <;> simp [hk]

@[simp] theorem cancelTicket_keeps {s : State} (v : W64) (hk : Keeps q s) : Keeps q (cancelTicket v s) := by
  unfold cancelTicket
  simp [hk]

@[simp] theorem cancelTag_keeps {s : State} (v : W64) (hk : Keeps q s) : Keeps q (cancelTag v s) := by
  unfold cancelTag
  simp [hk]

@[simp] theorem cancelWork_keeps {s : State} (r : Req) (expired : Bool) (hk : Keeps q s) : Keeps q (cancelWork r expired s) := by
  unfold cancelWork
  try dsimp only
  (repeat' split) <;> simp (maxDischargeDepth := 40) +contextual [*]

@[simp] theorem hardPassed_keeps {s : State} (r : Req) (hk : Keeps q s) : Keeps q (hardPassed r s) := by
  unfold hardPassed
  try dsimp only
  (repeat' split) <;> simp (maxDischargeDepth := 40) +contextual [*]

/-! ### Decoding -/

@[simp] theorem sendBlock_keeps {s : State} (dst : Node) (h : KvHead) (data : List Byte) (hk : Keeps q s) :
    Keeps q (sendBlock dst h data s) := by
  unfold sendBlock
  try dsimp only
  (repeat' split) <;> simp (maxDischargeDepth := 40) +contextual [*]

@[simp] theorem completePrompt_keeps {s : State} (r : Req) (handle : W64) (node : Node) (hk : Keeps q s) :
    Keeps q (completePrompt r handle node s) := by
  unfold completePrompt
  simp [hk]

@[simp] theorem moveDone_keeps {s : State} (v : PfMove) (hk : Keeps q s) : Keeps q (moveDone v s) := by
  unfold moveDone
  try dsimp only
  (repeat' split) <;> simp (maxDischargeDepth := 40) +contextual [*]

@[simp] theorem keepBlocks_keeps {s : State} (bs : List (KvHead × List Byte × ConvCount)) (v : PfMove) (handle : W64) (r : Req) (hk : Keeps q s) :
    Keeps q (keepBlocks bs v handle r s) := by
  unfold keepBlocks
  simp [hk]

@[simp] theorem sendBlocks_keeps {s : State} (m : Model) (bs : List (KvHead × List Byte × ConvCount)) (v : PfMove) (r : Req) (hk : Keeps q s) :
    Keeps q (sendBlocks m bs v r s) := by
  unfold sendBlocks
  try dsimp only
  (repeat' split) <;> simp (maxDischargeDepth := 40) +contextual [*]

@[simp] theorem prefillEnd_keeps {s : State} (m : Model) (input : List Nat) (r : Req) (hk : Keeps q s) :
    Keeps q (prefillEnd m input r s) := by
  unfold prefillEnd
  dsimp only
  (repeat' split) <;> simp [hk]

@[simp] theorem endQuiet_keeps {s : State} (r : Req) (d : Decoding) (reason : Nat) (hk : Keeps q s) :
    Keeps q (endQuiet r d reason s) := by
  unfold endQuiet
  simp [hk]

@[simp] theorem growCache_keeps {s : State} (m : Model) (c : Cache) (d : Decoding) (hk : Keeps q s) :
    Keeps q (growCache m c d s) := by
  unfold growCache
  simp [hk]

@[simp] theorem countTally_keeps {s : State} (full spilled : Bool) (hk : Keeps q s) : Keeps q (countTally full spilled s) := by
  unfold countTally
  simp [hk]

@[simp] theorem afterToken_keeps {s : State} (d : Decoding) (x : Decoding × List Byte) (tok : Nat) (page : Except Nat (List (Nat × Nat))) (r : Req) (hk : Keeps q s) :
    Keeps q (afterToken d x tok page r s) := by
  unfold afterToken
  try dsimp only
  (repeat' split) <;> simp (maxDischargeDepth := 40) +contextual [*]

@[simp] theorem takeToken_keeps {s : State} (p : Plan) (g : GenSpec) (r : Req) (d : Decoding) (c : Cache) (tok : Nat) (hk : Keeps q s) :
    Keeps q (takeToken p g r d c tok s) := by
  unfold takeToken
  simp [hk]

@[simp] theorem emitToken_keeps {s : State} (p : Plan) (m : Model) (g : GenSpec) (rows : List Nat) (r : Req) (hk : Keeps q s) :
    Keeps q (emitToken p m g rows r s) := by
  unfold emitToken
  try dsimp only
  (repeat' split) <;> simp (maxDischargeDepth := 40) +contextual [*]

/-! ### Stages -/

@[simp] theorem takeWaiting_keeps (stage : Nat) (r : Req) (x : State × Forming) (hk : Keeps q x.1) :
    Keeps q (takeWaiting stage r x).1 := by
  unfold takeWaiting
  dsimp only
  (repeat' split) <;> simp [hk]

@[simp] theorem formBatch_keeps {s : State} (stage : Nat) (hk : Keeps q s) : Keeps q (formBatch stage s).1 := by
  unfold formBatch
  try dsimp only
  (repeat' split) <;> simp (maxDischargeDepth := 40) +contextual [*]

@[simp] theorem searchWork_keeps {s : State} (r : Req) (p : Plan) (t : Ticket) (kinds : List Nat) (hk : Keeps q s) :
    Keeps q (searchWork s r p t kinds).1 := by
  unfold searchWork
  try dsimp only
  (repeat' split) <;> simp (maxDischargeDepth := 40) +contextual [*]

@[simp] theorem refineWork_keeps {s : State} (r : Req) (p : Plan) (t : Ticket) (hk : Keeps q s) :
    Keeps q (refineWork s r p t).1 := by
  unfold refineWork
  split <;> simp [hk]

@[simp] theorem rerankWork_keeps {s : State} (r : Req) (p : Plan) (t : Ticket) (model : Nat) (hk : Keeps q s) :
    Keeps q (rerankWork s r p t model).1 := by
  unfold rerankWork
  dsimp only
  (repeat' split) <;> simp [hk]

@[simp] theorem groupWork_keeps {s : State} (r : Req) (p : Plan) (t : Ticket) (g : List Nat) (hk : Keeps q s) :
    Keeps q (groupWork s r p t g).1 := by
  unfold groupWork
  dsimp only
  (repeat' split) <;> simp [hk]

@[simp] theorem localGather_keeps {s : State} (t : Table) (idx : List Nat) (hk : Keeps q s) :
    Keeps q (localGather t idx s).1 := by
  unfold localGather
  simp [hk]

@[simp] theorem sendGather_keeps {s : State} (g : Gather) (r : Req) (hk : Keeps q s) : Keeps q (sendGather g r s) := by
  unfold sendGather
  try dsimp only
  (repeat' split) <;> simp (maxDischargeDepth := 40) +contextual [*]

@[simp] theorem remoteGather_keeps {s : State} (t : Table) (r : Req) (step : Ticket) (idx : List Nat) (hk : Keeps q s) :
    Keeps q (remoteGather t r step idx s) := by
  unfold remoteGather
  dsimp only
  split <;> simp [hk]

@[simp] theorem batchWorks_keeps {s : State} (p : Plan) (t : Ticket) (g : List Nat) (rs : List Req) (hk : Keeps q s) :
    Keeps q (batchWorks p t g rs s).1 := by
  unfold batchWorks
  dsimp only
  (repeat' split) <;> simp +contextual [*]

@[simp] theorem checkIndices_keeps {s : State} (table : Option Table) (ws : List (Req × Work)) (hk : Keeps q s) :
    Keeps q (checkIndices table ws s).1 := by
  unfold checkIndices
  try dsimp only
  repeat' first | (with_reducible assumption) | (with_reducible refine stamped_keeps _ (fun _ _ _ => ?_) ?_) | (with_reducible refine stampedIf_keeps _ (fun _ _ _ => ?_) ?_) | (with_reducible refine whenServing_keeps _ (fun _ _ => ?_) ?_) | (with_reducible refine keeps_foldl (fun _ _ _ => ?_) ?_ _) | (with_reducible refine keeps_foldl_fst (fun _ _ _ => ?_) ?_ _) | (with_reducible refine keeps_foldl_snd (fun _ _ _ => ?_) ?_ _) | (simp (maxDischargeDepth := 40) +contextual [*]; done) | split | (dsimp only)

@[simp] theorem beginStep_keeps {s : State} (epoch : Nat) (g : List Nat) (rs : List Req) (p : Plan) (t : Ticket) (hk : Keeps q s) :
    Keeps q (beginStep epoch g rs p t s) := by
  unfold beginStep
  try dsimp only
  (repeat' split) <;> simp (maxDischargeDepth := 40) +contextual [*]

@[simp] theorem stageDeliver_keeps (p : Plan) (k : Step) (o : StepOut) (stage : Nat) (x : Req × State) (hk : Keeps q x.2) :
    Keeps q (stageDeliver p k o stage x).2 := by
  unfold stageDeliver
  (repeat' split) <;> simp [hk]

@[simp] theorem onward_keeps {s : State} (p : Plan) (k : Step) (o : StepOut) (r : Req) (hk : Keeps q s) : Keeps q (deliver.onward p k o r s) := by
  unfold deliver.onward; dsimp only
  refine advance_keeps _ _ (keeps_foldl_snd (fun _ _ _ => ?_) hk _)
  exact stageDeliver_keeps p k o _ _ (by assumption)

@[simp] theorem deliver_keeps {s : State} (p : Plan) (k : Step) (o : StepOut) (hk : Keeps q s) : Keeps q (deliver p k o s) := by
  unfold deliver; try dsimp only
  (repeat' split) <;> first | (with_reducible assumption) | (simp (maxDischargeDepth := 40) [*]; done)

@[simp] theorem stepCounts_keeps {s : State} (k : Step) (hk : Keeps q s) : Keeps q (stepCounts k s) := by
  unfold stepCounts
  try dsimp only
  repeat' first | (with_reducible assumption) | (with_reducible refine stamped_keeps _ (fun _ _ _ => ?_) ?_) | (with_reducible refine stampedIf_keeps _ (fun _ _ _ => ?_) ?_) | (with_reducible refine whenServing_keeps _ (fun _ _ => ?_) ?_) | (with_reducible refine keeps_foldl (fun _ _ _ => ?_) ?_ _) | (with_reducible refine keeps_foldl_fst (fun _ _ _ => ?_) ?_ _) | (with_reducible refine keeps_foldl_snd (fun _ _ _ => ?_) ?_ _) | (simp (maxDischargeDepth := 40) +contextual [*]; done) | split | (dsimp only)

/-! ### Assay -/

@[simp] theorem setBench_keeps {s : State} (b : Nat) (x : Bench) (hk : Keeps q s) : Keeps q (setBench b x s) := by
  unfold setBench
  simp [hk]

@[simp] theorem fenceBench_keeps {s : State} (bench : Nat) (attempts : Nat) (hk : Keeps q s) :
    Keeps q (fenceBench bench attempts s) := by
  unfold fenceBench
  try dsimp only
  (repeat' split) <;> simp (maxDischargeDepth := 40) +contextual [*]

@[simp] theorem commitTile_keeps {s : State} (bench phys : Nat) (t : Tile) (hk : Keeps q s) :
    Keeps q (commitTile bench phys t s) := by
  unfold commitTile
  try dsimp only
  (repeat' split) <;> simp (maxDischargeDepth := 40) +contextual [*]

@[simp] theorem retireSlab_keeps {s : State} (bench slab phys : Nat) (t : Tile) (hk : Keeps q s) :
    Keeps q (retireSlab bench slab phys t s) := by
  unfold retireSlab
  try dsimp only
  (repeat' split) <;> simp (maxDischargeDepth := 40) +contextual [*]

@[simp] theorem tileDone_keeps {s : State} (bench slab : Nat) (t : Tile) (hk : Keeps q s) :
    Keeps q (tileDone bench slab t s) := by
  unfold tileDone
  try dsimp only
  (repeat' split) <;> simp (maxDischargeDepth := 40) +contextual [*]

end Sys2Proof.Machine
end

