-- ==== Sys2Proof/Laws/KeepsIntake.lean ====
section
/-! SUPPORT. Intake, sub-requests, prompts, tables, collections and folds: what each operation keeps. -/

namespace Sys2Proof.Machine

variable {q : List Instr}

/-! ### Intake -/

@[simp] theorem accept_keeps {s : State} (src : Node) (txn : W16) (t : Ticket) (d : Desc) (payload : List Byte) (reject : Option Nat) (hk : Keeps q s) :
    Keeps q (accept src txn t d payload reject s) := by
  unfold accept
  try dsimp only
  (repeat' split) <;> simp (maxDischargeDepth := 40) +contextual [*]

@[simp] theorem row5_keeps {s : State} (src : Node) (txn : W16) (d : Desc) (payload : List Byte) (t : Ticket) (hk : Keeps q s) :
    Keeps q (intake.row5 src txn d payload t s) := by
  unfold intake.row5; try dsimp only
  (repeat' split) <;> first | (with_reducible assumption) | (simp (maxDischargeDepth := 40) [*]; done)

@[simp] theorem intake_keeps {s : State} (src : Node) (txn : W16) (d : Desc) (payload : List Byte) (t : Ticket) (hk : Keeps q s) :
    Keeps q (intake src txn d payload t s) := by
  unfold intake; try dsimp only
  (repeat' split) <;> first | (with_reducible assumption) | (simp (maxDischargeDepth := 40) [*]; done)

@[simp] theorem stampSubmission_keeps {s : State} (src : Node) (txn : W16) (d : Desc) (payload : List Byte) (hk : Keeps q s) :
    Keeps q (stampSubmission src txn d payload s) := by
  unfold stampSubmission
  try dsimp only
  (repeat' split) <;> simp (maxDischargeDepth := 40) +contextual [*]

@[simp] theorem badTxn_keeps {s : State} (hk : Keeps q s) : Keeps q (badTxn s) := by
  unfold badTxn
  simp [hk]

@[simp] theorem dropSub_keeps {s : State} (src : Node) (txn : W16) (hk : Keeps q s) : Keeps q (dropSub src txn s) := by
  unfold dropSub
  simp [hk]

@[simp] theorem reclaim_keeps {s : State} (hk : Keeps q s) : Keeps q (reclaim s) := by
  unfold reclaim
  simp [hk]

@[simp] theorem mirrorTrack_keeps {s : State} (e : JEntry) (hk : Keeps q s) : Keeps q (mirrorTrack e s) := by
  unfold mirrorTrack
  split <;> simp [hk]

@[simp] theorem entryDone_keeps {s : State} (pos : W64) (hk : Keeps q s) : Keeps q (entryDone pos s) := by
  unfold entryDone
  try dsimp only
  (repeat' split) <;> simp (maxDischargeDepth := 40) +contextual [*]

@[simp] theorem mirrorHolds_keeps {s : State} (pos : W64) (hk : Keeps q s) : Keeps q (mirrorHolds pos s) := by
  unfold mirrorHolds
  simp [hk]

@[simp] theorem goSolo_keeps {s : State} (hk : Keeps q s) : Keeps q (goSolo s) := by
  unfold goSolo
  try dsimp only
  (repeat' split) <;> simp (maxDischargeDepth := 40) +contextual [*]

@[simp] theorem mirrorJoin_keeps {s : State} (n : Node) (hk : Keeps q s) : Keeps q (mirrorJoin n s) := by
  unfold mirrorJoin
  try dsimp only
  (repeat' split) <;> simp (maxDischargeDepth := 40) +contextual [*]

@[simp] theorem postRecord_keeps {s : State} (c : Comp) (hk : Keeps q s) : Keeps q (postRecord c s) := by
  unfold postRecord
  simp [hk]

@[simp] theorem cqControl_keeps {s : State} (v : W64) (hk : Keeps q s) : Keeps q (cqControl v s) := by
  unfold cqControl
  split <;> simp [hk]

@[simp] theorem srControl_keeps {s : State} (v : W64) (hk : Keeps q s) : Keeps q (srControl v s) := by
  unfold srControl
  split <;> simp [hk]

@[simp] theorem alertControl_keeps {s : State} (v : W64) (hk : Keeps q s) : Keeps q (alertControl v s) := by
  unfold alertControl
  split <;> simp [hk]

@[simp] theorem releaseMissed_keeps {s : State} (hk : Keeps q s) : Keeps q (releaseMissed s) := by
  unfold releaseMissed
  simp [hk]

@[simp] theorem releaseTicket_keeps {s : State} (v : W64) (hk : Keeps q s) : Keeps q (releaseTicket v s) := by
  unfold releaseTicket
  try dsimp only
  (repeat' split) <;> simp (maxDischargeDepth := 40) +contextual [*]

@[simp] theorem streamReset_keeps {s : State} (v : W64) (hk : Keeps q s) : Keeps q (streamReset v s) := by
  unfold streamReset
  dsimp only
  (repeat' split) <;> simp [hk]

@[simp] theorem reissueEntry_keeps {s : State} (e : JEntry) (hk : Keeps q s) : Keeps q (reissueEntry e s) := by
  unfold reissueEntry
  try dsimp only
  (repeat' split) <;> simp (maxDischargeDepth := 40) +contextual [*]

@[simp] theorem resumeHeld_keeps {s : State} (hk : Keeps q s) : Keeps q (resumeHeld s) := by
  unfold resumeHeld
  simp [hk]

@[simp] theorem resumeWork_keeps {s : State} (hk : Keeps q s) : Keeps q (resumeWork s) := by
  unfold resumeWork
  try dsimp only
  (repeat' split) <;> simp (maxDischargeDepth := 40) +contextual [*]

@[simp] theorem resumeJournal_keeps {s : State} (hk : Keeps q s) : Keeps q (resumeJournal s) := by
  unfold resumeJournal
  simp [hk]

@[simp] theorem openJob_keeps {s : State} (jobId : W32) (hk : Keeps q s) : Keeps q (openJob jobId s) := by
  unfold openJob
  dsimp only
  split <;> simp [hk]

@[simp] theorem jobCommand_keeps {s : State} (v : W64) (t : Ticket) (hk : Keeps q s) : Keeps q (jobCommand v t s) := by
  unfold jobCommand
  dsimp only
  (repeat' split) <;> simp [hk]

/-! ### Fanout -/

@[simp] theorem reissueRead_keeps {s : State} (rerank : Bool) (lost : Node) (r : Req) (hk : Keeps q s) :
    Keeps q (reissueRead rerank lost r s) := by
  unfold reissueRead
  try dsimp only
  (repeat' split) <;> simp (maxDischargeDepth := 40) +contextual [*]

@[simp] theorem awayDone_keeps {s : State} (r : Req) (hk : Keeps q s) : Keeps q (awayDone r s) := by
  unfold awayDone
  simp [hk]

@[simp] theorem mutationLost_keeps {s : State} (lost : Node) (r : Req) (hk : Keeps q s) : Keeps q (mutationLost lost r s) := by
  unfold mutationLost
  split <;> simp [hk]

@[simp] theorem promptLost_keeps {s : State} (r : Req) (other : Node) (hk : Keeps q s) : Keeps q (promptLost r other s) := by
  unfold promptLost
  try dsimp only
  (repeat' split) <;> simp (maxDischargeDepth := 40) +contextual [*]

@[simp] theorem reqLost_keeps {s : State} (lost : Node) (t : Ticket) (hk : Keeps q s) : Keeps q (reqLost lost t s) := by
  unfold reqLost
  (repeat' split) <;> simp [hk]

@[simp] theorem absorbLoss_keeps {s : State} (lost : Node) (hk : Keeps q s) : Keeps q (absorbLoss lost s) := by
  unfold absorbLoss
  try dsimp only
  (repeat' split) <;> simp (maxDischargeDepth := 40) +contextual [*]

@[simp] theorem setMember_keeps {s : State} (m : Member) (hk : Keeps q s) : Keeps q (setMember m s) := by
  unfold setMember
  simp [hk]

@[simp] theorem memberFault_keeps {s : State} (n : Node) (hk : Keeps q s) : Keeps q (memberFault n s) := by
  unfold memberFault
  try dsimp only
  (repeat' split) <;> simp (maxDischargeDepth := 40) +contextual [*]

@[simp] theorem dupAnswer_keeps {s : State} (hk : Keeps q s) : Keeps q (dupAnswer s) := by
  unfold dupAnswer
  simp [hk]

@[simp] theorem clearOwed_keeps {s : State} (t : Ticket) (shard : Nat) (n : Node) (hk : Keeps q s) :
    Keeps q (clearOwed t shard n s) := by
  unfold clearOwed
  simp [hk]

@[simp] theorem takeAnswer_keeps {s : State} (src : Node) (a : Answer) (r : Req) (hk : Keeps q s) :
    Keeps q (takeAnswer src a r s) := by
  unfold takeAnswer
  try dsimp only
  (repeat' split) <;> simp (maxDischargeDepth := 40) +contextual [*]

@[simp] theorem refuseWork_keeps {s : State} (src : Node) (h : FwdHead) (status : Nat) (hk : Keeps q s) :
    Keeps q (refuseWork src h status s) := by
  unfold refuseWork
  simp [hk]

@[simp] theorem adoptManager_keeps {s : State} (src : Node) (e : Nat) (hk : Keeps q s) : Keeps q (adoptManager src e s) := by
  unfold adoptManager
  simp [hk]

@[simp] theorem takeWork_keeps {s : State} (src : Node) (h : FwdHead) (t : Ticket) (r : Req) (hk : Keeps q s) :
    Keeps q (takeWork src h t r s) := by
  unfold takeWork
  try dsimp only
  (repeat' split) <;> simp (maxDischargeDepth := 40) +contextual [*]

/-! ### Prompts -/

@[simp] theorem afterText_keeps {s : State} (r : Req) (hk : Keeps q s) : Keeps q (afterText r s) := by
  unfold afterText
  (repeat' split) <;> simp [hk]

@[simp] theorem packNow_keeps {s : State} (r : Req) (t : Ticket) (hk : Keeps q s) : Keeps q (packNow r t s) := by
  unfold packNow
  try dsimp only
  (repeat' split) <;> simp (maxDischargeDepth := 40) +contextual [*]

@[simp] theorem setCache_keeps {s : State} (c : Cache) (hk : Keeps q s) : Keeps q (setCache c s) := by
  unfold setCache
  simp [hk]

/-! ### Tables -/

@[simp] theorem onTable_keeps {s : State} (table : Nat) (f : Table → Table) (hk : Keeps q s) : Keeps q (onTable table f s) := by
  unfold onTable
  split <;> simp [hk]

@[simp] theorem gthCommand_keeps {s : State} (c : Cmd) (v : W64) (hk : Keeps q s) : Keeps q (gthCommand c v s) := by
  unfold gthCommand
  dsimp only
  (repeat' split) <;> simp [hk]

@[simp] theorem copyWord_keeps {s : State} (src dst : Nat) (hk : Keeps q s) : Keeps q (copyWord src dst s) := by
  unfold copyWord
  split
  · exact putWord_keeps _ _ _ _ hk
  · exact hk

@[simp] theorem copyInside_keeps {s : State} (id src dst n : Nat) (hk : Keeps q s) : Keeps q (copyInside id src dst n s) := by
  unfold copyInside
  split
  · exact keeps_foldl (fun _ _ h => copyWord_keeps _ _ h) hk _
  · exact hk

@[simp] theorem buildDone_keeps {s : State} (t : Table) (clone : Bool) (hk : Keeps q s) : Keeps q (buildDone t clone s) := by
  unfold buildDone
  try dsimp only
  (repeat' split) <;> simp (maxDischargeDepth := 40) +contextual [*]

@[simp] theorem memberSwitch_keeps {s : State} (t : Table) (hk : Keeps q s) : Keeps q (memberSwitch t s) := by
  unfold memberSwitch
  dsimp only
  (repeat' split) <;> simp +contextual [*]

@[simp] theorem localPublish_keeps {s : State} (t : Table) (r : Req) (hk : Keeps q s) : Keeps q (localPublish t r s) := by
  unfold localPublish
  try dsimp only
  (repeat' split) <;> simp (maxDischargeDepth := 40) +contextual [*]

@[simp] theorem serveGather_keeps {s : State} (src : Node) (ticket : Ticket) (t : Table) (version : Nat) (index : List Nat) (hk : Keeps q s) :
    Keeps q (serveGather src ticket t version index s) := by
  unfold serveGather
  try dsimp only
  (repeat' split) <;> simp (maxDischargeDepth := 40) +contextual [*]

@[simp] theorem maskIndices_keeps {s : State} (k : Step) (bad : List Nat) (hk : Keeps q s) : Keeps q (maskIndices k bad s) := by
  unfold maskIndices
  try dsimp only
  repeat' first | (with_reducible assumption) | (with_reducible refine stamped_keeps _ (fun _ _ _ => ?_) ?_) | (with_reducible refine stampedIf_keeps _ (fun _ _ _ => ?_) ?_) | (with_reducible refine whenServing_keeps _ (fun _ _ => ?_) ?_) | (with_reducible refine keeps_foldl (fun _ _ _ => ?_) ?_ _) | (with_reducible refine keeps_foldl_fst (fun _ _ _ => ?_) ?_ _) | (with_reducible refine keeps_foldl_snd (fun _ _ _ => ?_) ?_ _) | (simp (maxDischargeDepth := 40) +contextual [*]; done) | split | (dsimp only)

@[simp] theorem setGather_keeps {s : State} (g : Gather) (hk : Keeps q s) : Keeps q (setGather g s) := by
  unfold setGather
  simp [hk]

@[simp] theorem passDone_keeps {s : State} (t : Table) (g : Gather) (k : Step) (hk : Keeps q s) : Keeps q (passDone t g k s) := by
  unfold passDone
  try dsimp only
  (repeat' split) <;> simp (maxDischargeDepth := 40) +contextual [*]

/-! ### Collections -/

@[simp] theorem logChange_keeps {s : State} (e : CollLog) (hk : Keeps q s) : Keeps q (logChange e s) := by
  unfold logChange
  simp [hk]

@[simp] theorem writeVector_keeps {s : State} (c : Coll) (slot : Nat) (id : W64) (pos : Nat) (vec : List Byte) (hk : Keeps q s) :
    Keeps q (writeVector c slot id pos vec s) := by
  unfold writeVector
  try dsimp only
  (repeat' split) <;> simp (maxDischargeDepth := 40) +contextual [*]

@[simp] theorem applyInsert_keeps {s : State} (c : Coll) (r : Req) (slot : Nat) (hk : Keeps q s) :
    Keeps q (applyInsert c r slot s) := by
  unfold applyInsert
  try dsimp only
  (repeat' split) <;> simp (maxDischargeDepth := 40) +contextual [*]

@[simp] theorem countRefusal_keeps {s : State} (c : Coll) (o : Outcome) (hk : Keeps q s) : Keeps q (countRefusal c o s) := by
  unfold countRefusal
  split <;> simp [hk]

@[simp] theorem applyDelete_keeps {s : State} (c : Coll) (r : Req) (id : W64) (st : SlotState) (hk : Keeps q s) :
    Keeps q (applyDelete c r id st s) := by
  unfold applyDelete
  try dsimp only
  (repeat' split) <;> simp (maxDischargeDepth := 40) +contextual [*]

@[simp] theorem deleteNow_keeps {s : State} (c : Coll) (r : Req) (hk : Keeps q s) : Keeps q (deleteNow c r s) := by
  unfold deleteNow
  dsimp only
  (repeat' split) <;> simp [hk]

@[simp] theorem drainColl_keeps {s : State} (c : Coll) (hk : Keeps q s) : Keeps q (drainColl c s) := by
  unfold drainColl
  try dsimp only
  (repeat' split) <;> simp (maxDischargeDepth := 40) +contextual [*]

/-! ### Folds -/

@[simp] theorem foldJournal_keeps {s : State} (c : Coll) (e : FoldEnt) (hk : Keeps q s) : Keeps q (foldJournal c e s) := by
  unfold foldJournal
  simp [hk]

@[simp] theorem commitUnit_keeps {s : State} (c : Coll) (f : Fold) (hk : Keeps q s) : Keeps q (commitUnit c f s) := by
  unfold commitUnit
  simp [hk]

@[simp] theorem beginFold_keeps {s : State} (c : Coll) (f : Fold) (hk : Keeps q s) : Keeps q (beginFold c f s) := by
  unfold beginFold
  simp [hk]

@[simp] theorem fitFold_keeps {s : State} (c : Coll) (r : Req) (f : Fold) (last : Option Nat) (hk : Keeps q s) :
    Keeps q (fitFold c r f last s) := by
  unfold fitFold
  split <;> simp [hk]

@[simp] theorem newFold_keeps {s : State} (c : Coll) (r : Req) (hk : Keeps q s) : Keeps q (newFold c r s) := by
  unfold newFold
  dsimp only
  (repeat' split) <;> simp +contextual [*]

@[simp] theorem startFold_keeps {s : State} (c : Coll) (r : Req) (hk : Keeps q s) : Keeps q (startFold c r s) := by
  unfold startFold
  (repeat' split) <;> simp [hk]

@[simp] theorem commitPublication_keeps {s : State} (c : Coll) (f : Fold) (hk : Keeps q s) :
    Keeps q (commitPublication c f s) := by
  unfold commitPublication
  simp [hk]

@[simp] theorem publishFold_keeps {s : State} (c : Coll) (f : Fold) (hk : Keeps q s) : Keeps q (publishFold c f s) := by
  unfold publishFold
  try dsimp only
  repeat' first | (with_reducible assumption) | (with_reducible refine stamped_keeps _ (fun _ _ _ => ?_) ?_) | (with_reducible refine stampedIf_keeps _ (fun _ _ _ => ?_) ?_) | (with_reducible refine whenServing_keeps _ (fun _ _ => ?_) ?_) | (with_reducible refine keeps_foldl (fun _ _ _ => ?_) ?_ _) | (with_reducible refine keeps_foldl_fst (fun _ _ _ => ?_) ?_ _) | (with_reducible refine keeps_foldl_snd (fun _ _ _ => ?_) ?_ _) | (simp (maxDischargeDepth := 40) +contextual [*]; done) | split | (dsimp only)

@[simp] theorem releaseSlot_keeps {s : State} (c : Coll) (t : Ticket) (n : Nat) (hk : Keeps q s) :
    Keeps q (releaseSlot c t n s) := by
  unfold releaseSlot
  try dsimp only
  (repeat' split) <;> simp (maxDischargeDepth := 40) +contextual [*]

@[simp] theorem retireVersion_keeps {s : State} (c : Coll) (o : OldVersion) (hk : Keeps q s) : Keeps q (retireVersion c o s) := by
  unfold retireVersion
  try dsimp only
  (repeat' split) <;> simp (maxDischargeDepth := 40) +contextual [*]

@[simp] theorem compact_keeps {s : State} (c : Coll) (o : OldVersion) (hk : Keeps q s) : Keeps q (compact c o s) := by
  unfold compact
  try dsimp only
  (repeat' split) <;> simp (maxDischargeDepth := 40) +contextual [*]

@[simp] theorem commitCheckpoint_keeps {s : State} (c : Coll) (k : Checkpoint) (hk : Keeps q s) :
    Keeps q (commitCheckpoint c k s) := by
  unfold commitCheckpoint
  simp [hk]

@[simp] theorem loadObjects_keeps {s : State} (k : Checkpoint) (hk : Keeps q s) : Keeps q (loadObjects k s) := by
  unfold loadObjects
  refine keeps_foldl (fun _ _ h => ?_) hk _
  split <;> simp [h]

@[simp] theorem replayLog_keeps (x : Coll × State) (e : CollLog) (hk : Keeps q x.2) : Keeps q (replayLog x e).2 := by
  unfold replayLog
  split <;> simp [hk]

@[simp] theorem replayFold_keeps (x : Coll × State) (b : FoldEnt) (hk : Keeps q x.2) : Keeps q (replayFold x b).2 := by
  unfold replayFold
  dsimp only
  (repeat' split) <;> simp +contextual [*]

@[simp] theorem restoreColl_keeps {s : State} (c : Coll) (hk : Keeps q s) : Keeps q (restoreColl c s) := by
  unfold restoreColl
  try dsimp only
  (repeat' split) <;> simp (maxDischargeDepth := 40) +contextual [*]

end Sys2Proof.Machine
end

