-- ==== Sys2Proof/Laws/KeepsMemory.lean ====
section
/-! SUPPORT. The Haul, the Stockpile, clocks, power and the recorder: what each operation keeps. -/

namespace Sys2Proof.Machine

variable {q : List Instr}

/-! ### Haul -/

@[simp] theorem sparedRecord_keeps {s : State} (tier unit off : Nat) (hk : Keeps q s) :
    Keeps q (sparedRecord tier unit off s) := by
  unfold sparedRecord
  dsimp only
  (repeat' split) <;> simp +contextual [*]

@[simp] theorem exhaustedRecord_keeps {s : State} (tier unit off code : Nat) (hk : Keeps q s) :
    Keeps q (exhaustedRecord tier unit off code s) := by
  unfold exhaustedRecord
  try dsimp only
  (repeat' split) <;> simp (maxDischargeDepth := 40) +contextual [*]

@[simp] theorem spareBlock_keeps {s : State} (stack blk : Nat) (hk : Keeps q s) : Keeps q (spareBlock stack blk s) := by
  unfold spareBlock
  dsimp only
  (repeat' split) <;> simp +contextual [*]

@[simp] theorem spareRow_keeps {s : State} (tier unit off repair : Nat) (hk : Keeps q s) :
    Keeps q (spareRow tier unit off repair s) := by
  unfold spareRow
  dsimp only
  (repeat' split) <;> simp [hk]

@[simp] theorem resolveWord_keeps {s : State} (tier unit off : Nat) (u : Upset) (hk : Keeps q s) :
    Keeps q (resolveWord tier unit off u s).1 := by
  unfold resolveWord
  try dsimp only
  (repeat' split) <;> simp (maxDischargeDepth := 40) +contextual [*]

@[simp] theorem setHaulMove_keeps {s : State} (m : Move) (hk : Keeps q s) : Keeps q (setHaulMove m s) := by
  unfold setHaulMove
  simp [hk]

@[simp] theorem waitMove_keeps {s : State} (m : Move) (i : Instr) (hk : Keeps q s) : Keeps q (waitMove m i s) := by
  unfold waitMove
  simp [hk]

@[simp] theorem applyUpsets_keeps {s : State} (addr len : Nat) (us : List Upset) (hk : Keeps q s) :
    Keeps q (applyUpsets addr len us s).1 := by
  unfold applyUpsets
  try dsimp only
  repeat' first | (with_reducible assumption) | (with_reducible refine stamped_keeps _ (fun _ _ _ => ?_) ?_) | (with_reducible refine stampedIf_keeps _ (fun _ _ _ => ?_) ?_) | (with_reducible refine whenServing_keeps _ (fun _ _ => ?_) ?_) | (with_reducible refine keeps_foldl (fun _ _ _ => ?_) ?_ _) | (with_reducible refine keeps_foldl_fst (fun _ _ _ => ?_) ?_ _) | (with_reducible refine keeps_foldl_snd (fun _ _ _ => ?_) ?_ _) | (simp (maxDischargeDepth := 40) +contextual [*]; done) | split | (dsimp only)

@[simp] theorem dropMove_keeps {s : State} (m : Move) (hk : Keeps q s) : Keeps q (dropMove m s) := by
  unfold dropMove
  dsimp only
  (repeat' split) <;> simp +contextual [*]

@[simp] theorem readAccess_keeps {s : State} (src : Node) (txn : W16) (addr : W64) (len : W32) (us : List Upset) (hk : Keeps q s) :
    Keeps q (readAccess src txn addr len us s).1 := by
  unfold readAccess
  dsimp only
  (repeat' split) <;> simp [hk]

theorem noteWrite_keeps {s t : State} {a n : Nat} (h : noteWrite a n s = some t) (hk : Keeps q s) : Keeps q t := by
  simp only [noteWrite, Option.map_eq_some_iff] at h
  obtain ⟨os, -, rfl⟩ := h
  exact hk

@[simp] theorem writeAccess_keeps {s : State} (src : Node) (txn : W16) (addr : W64) (len : W32) (data : List Byte) (hk : Keeps q s) :
    Keeps q (writeAccess src txn addr len data s) := by
  unfold writeAccess
  dsimp only
  split
  · simp [hk]
  split
  · simp [hk]
  split
  · simp [hk]
  split
  · simp [hk]
  split
  · simp [hk]
  · split
    next t h =>
      have := noteWrite_keeps h (pokeBytes_keeps addr.toNat data hk)
      simp [this]
    next => simp [hk]

@[simp] theorem serveAccess_keeps {s : State} (i : Instr) (hk : Keeps q s) : Keeps q (serveAccess i s) := by
  unfold serveAccess
  split <;> simp [hk]

@[simp] theorem serveWaiting_keeps {s : State} (m : Move) (hk : Keeps q s) : Keeps q (serveWaiting m s) := by
  unfold serveWaiting
  try dsimp only
  (repeat' split) <;> simp (maxDischargeDepth := 40) +contextual [*]

@[simp] theorem pointNext_keeps {s : State} (hk : Keeps q s) : Keeps q (pointNext s) := by
  unfold pointNext
  simp [hk]

@[simp] theorem abandonMove_keeps {s : State} (m : Move) (hk : Keeps q s) : Keeps q (abandonMove m s) := by
  unfold abandonMove
  try dsimp only
  (repeat' split) <;> simp (maxDischargeDepth := 40) +contextual [*]

@[simp] theorem startMove_keeps {s : State} (engine : Nat) (x : Nat × Nat × Nat) (hk : Keeps q s) :
    Keeps q (startMove engine x s) := by
  unfold startMove
  try dsimp only
  repeat' first | (with_reducible assumption) | (with_reducible refine stamped_keeps _ (fun _ _ _ => ?_) ?_) | (with_reducible refine stampedIf_keeps _ (fun _ _ _ => ?_) ?_) | (with_reducible refine whenServing_keeps _ (fun _ _ => ?_) ?_) | (with_reducible refine keeps_foldl (fun _ _ _ => ?_) ?_ _) | (with_reducible refine keeps_foldl_fst (fun _ _ _ => ?_) ?_ _) | (with_reducible refine keeps_foldl_snd (fun _ _ _ => ?_) ?_ _) | (simp (maxDischargeDepth := 40) +contextual [*]; done) | split | (dsimp only)

@[simp] theorem copyFrame_keeps {s : State} (p : Page) (m : Move) (n : Nat) (hk : Keeps q s) : Keeps q (copyFrame p m n s) := by
  unfold copyFrame
  exact keeps_foldl (fun _ _ h => putWord_keeps _ _ _ _ h) hk _

theorem keeps_pages {s : State} (ps : List Page) (hk : Keeps q s) : Keeps q { s with mem.pages := ps } := (keeps_mk ..).2 hk

@[simp] theorem landPage_keeps {s : State} (p : Page) (m : Move) (hk : Keeps q s) : Keeps q (landPage p m s) :=
  keeps_pages _ (copyFrame_keeps p m _ hk)

@[simp] theorem landed_keeps {s : State} (m : Move) (hk : Keeps q s) : Keeps q (landed m s) := by
  unfold landed
  split
  · exact landPage_keeps _ _ hk
  · exact hk

@[simp] theorem switchPage_keeps {s : State} (m : Move) (hk : Keeps q s) : Keeps q (switchPage m s) := by
  unfold switchPage
  refine stamped_keeps _ (fun s t h => ?_) hk
  refine pointNext_keeps (serveWaiting_keeps m ?_)
  have h2 := landed_keeps m h
  generalize landed m s = u at h2 ⊢
  exact h2

/-! ### Stockpile -/

@[simp] theorem setBudgets_keeps {s : State} (p : NandPop) (hk : Keeps q s) : Keeps q (setBudgets p s) := by
  unfold setBudgets
  simp [hk]

@[simp] theorem setCtrl_keeps {s : State} (ctrl : Nat) (c : Ctrl) (hk : Keeps q s) : Keeps q (setCtrl ctrl c s) := by
  unfold setCtrl
  simp [hk]

@[simp] theorem retireBlock_keeps {s : State} (ctrl : Nat) (b : StkBlock) (hk : Keeps q s) : Keeps q (retireBlock ctrl b s) := by
  unfold retireBlock
  try dsimp only
  (repeat' split) <;> simp (maxDischargeDepth := 40) +contextual [*]

@[simp] theorem markFailure_keeps {s : State} (ctrl no : Nat) (hk : Keeps q s) : Keeps q (markFailure ctrl no s) := by
  unfold markFailure
  split <;> simp [hk]

@[simp] theorem pullTail_keeps {s : State} (ctrl : Nat) (hk : Keeps q s) : Keeps q (pullTail ctrl s) := by
  unfold pullTail
  split <;> simp [hk]

@[simp] theorem ensureBlock_keeps {s : State} (ctrl : Nat) (e : BufEnt) (hk : Keeps q s) : Keeps q (ensureBlock ctrl e s) := by
  unfold ensureBlock
  simp [hk]

@[simp] theorem startProgram_keeps {s : State} (ctrl : Nat) (e : BufEnt) (hk : Keeps q s) : Keeps q (startProgram ctrl e s) := by
  unfold startProgram
  dsimp only
  (repeat' split) <;> simp [hk]

@[simp] theorem programPassed_keeps {s : State} (ctrl : Nat) (e : BufEnt) (block : Nat) (hk : Keeps q s) :
    Keeps q (programPassed ctrl e block s) := by
  unfold programPassed
  simp [hk]

@[simp] theorem poisonRecords_keeps {s : State} (lblock page : Nat) (hk : Keeps q s) : Keeps q (poisonRecords lblock page s) := by
  unfold poisonRecords
  simp [hk]

@[simp] theorem refreshBlock_keeps {s : State} (ctrl : Nat) (b : StkBlock) (hk : Keeps q s) :
    Keeps q (refreshBlock ctrl b s) := by
  unfold refreshBlock
  dsimp only
  split <;> simp [hk]

@[simp] theorem readFailed_keeps {s : State} (ctrl page : Nat) (b : StkBlock) (hk : Keeps q s) :
    Keeps q (readFailed ctrl page b s) := by
  unfold readFailed
  try dsimp only
  (repeat' split) <;> simp (maxDischargeDepth := 40) +contextual [*]

@[simp] theorem switchMerge_keeps {s : State} (ctrl : Nat) (b d : StkBlock) (hk : Keeps q s) :
    Keeps q (switchMerge ctrl b d s) := by
  unfold switchMerge
  simp [hk]

@[simp] theorem fullMerge_keeps {s : State} (ctrl : Nat) (b d : StkBlock) (hk : Keeps q s) : Keeps q (fullMerge ctrl b d s) := by
  unfold fullMerge
  dsimp only
  split <;> simp [hk]

@[simp] theorem moveRecord_keeps {s : State} (tenant : Nat) (r : PassRec) (hk : Keeps q s) : Keeps q (moveRecord tenant r s) := by
  unfold moveRecord
  try dsimp only
  (repeat' split) <;> simp (maxDischargeDepth := 40) +contextual [*]

@[simp] theorem cleanBlock_keeps {s : State} (b : RecBlock) (hk : Keeps q s) : Keeps q (cleanBlock b s) := by
  unfold cleanBlock
  try dsimp only
  (repeat' split) <;> simp (maxDischargeDepth := 40) +contextual [*]

@[simp] theorem stkCommand_keeps {s : State} (v : W64) (hk : Keeps q s) : Keeps q (stkCommand v s) := by
  unfold stkCommand
  split <;> simp [hk]

/-! ### Clocks -/

@[simp] theorem subLost_keeps {s : State} (i : Nat) (hk : Keeps q s) : Keeps q (subLost i s) := by
  unfold subLost
  dsimp only
  (repeat' split) <;> simp +contextual [*]

@[simp] theorem portLost_keeps {s : State} (port : Nat) (hk : Keeps q s) : Keeps q (portLost port s) := by
  unfold portLost
  try dsimp only
  (repeat' split) <;> simp (maxDischargeDepth := 40) +contextual [*]

@[simp] theorem clockConsequence_keeps {s : State} (d : Nat) (hk : Keeps q s) : Keeps q (clockConsequence d s) := by
  unfold clockConsequence
  dsimp only
  (repeat' split) <;> simp +contextual [*]

@[simp] theorem clockFail_keeps {s : State} (d : Nat) (hk : Keeps q s) : Keeps q (clockFail d s) := by
  unfold clockFail
  try dsimp only
  (repeat' split) <;> simp (maxDischargeDepth := 40) +contextual [*]

@[simp] theorem clkOutWrite_keeps {s : State} (v : W64) (hk : Keeps q s) : Keeps q (clkOutWrite v s) := by
  unfold clkOutWrite
  dsimp only
  (repeat' split) <;> simp [hk]

/-! ### Power -/

@[simp] theorem resetLogic_keeps {s : State} (hk : Keeps q s) : Keeps q (resetLogic s) := by
  unfold resetLogic
  simp [hk]

@[simp] theorem dropSets_keeps {s : State} (hk : Keeps q s) : Keeps q (dropSets s) := by
  unfold dropSets
  dsimp only
  (repeat' split) <;> simp +contextual [*]

@[simp] theorem spoilImage_keeps {s : State} (hk : Keeps q s) : Keeps q (spoilImage s) := by
  unfold spoilImage
  split <;> simp [hk]

@[simp] theorem drainAll_keeps {s : State} (hk : Keeps q s) : Keeps q (drainAll s) := by
  unfold drainAll
  try dsimp only
  (repeat' split) <;> simp (maxDischargeDepth := 40) +contextual [*]

@[simp] theorem resetColls_keeps {s : State} (lost : Coll → Bool) (hk : Keeps q s) : Keeps q (resetColls lost s) := by
  unfold resetColls
  simp [hk]

@[simp] theorem resetResident_keeps {s : State} (lost : Coll → Bool) (hk : Keeps q s) : Keeps q (resetResident lost s) := by
  unfold resetResident
  simp [hk]

@[simp] theorem powerOnReset_keeps {s : State} (hk : Keeps q s) : Keeps q (powerOnReset s) := by
  unfold powerOnReset
  try dsimp only
  (repeat' split) <;> simp (maxDischargeDepth := 40) +contextual [*]

@[simp] theorem beginFlush_keeps {s : State} (type code : Nat) (hk : Keeps q s) : Keeps q (beginFlush type code s) := by
  unfold beginFlush
  try dsimp only
  (repeat' split) <;> simp (maxDischargeDepth := 40) +contextual [*]

@[simp] theorem powerCommand_keeps {s : State} (v : W64) (hk : Keeps q s) : Keeps q (powerCommand v s) := by
  unfold powerCommand
  dsimp only
  (repeat' split) <;> simp [hk]

@[simp] theorem drainBuffers_keeps {s : State} (hk : Keeps q s) : Keeps q (drainBuffers s) := by
  unfold drainBuffers
  simp [hk]

@[simp] theorem powerHop_keeps {s : State} (from' to' : Nat) (hk : Keeps q s) : Keeps q (powerHop from' to' s) := by
  unfold powerHop
  split <;> simp [hk]

@[simp] theorem capWrite_keeps {s : State} (v : W64) (hk : Keeps q s) : Keeps q (capWrite v s) := by
  unfold capWrite
  simp [hk]

/-! ### Recorder -/

@[simp] theorem removeRec_kept (a : Nat) {cs : List Host.Cell} (h : Kept q erased cs) : Kept q erased (removeRec a cs) := by
  simp [removeRec, h]

theorem removeOldest_kept (need : Nat) (rs : List Found) {cs : List Host.Cell} (h : Kept q erased cs) :
    Kept q erased (removeOldest need rs cs) := by
  induction rs generalizing need cs with
  | nil => exact h
  | cons r rs ih =>
    unfold removeOldest
    split
    · exact h
    · exact ih _ (removeRec_kept _ h)

theorem ringRoom_kept {sev len : Nat} {cs ds : List Host.Cell} (h : Kept q erased cs) (e : ringRoom sev len cs = some ds) :
    Kept q erased ds := by
  unfold ringRoom at e
  dsimp only at e
  split at e
  · cases e; exact h
  · split at e
    · cases e
    · cases e; exact removeOldest_kept _ _ h

@[simp] theorem dropCopies_kept (point : Nat) {cs : List Host.Cell} (h : Kept q erased cs) : Kept q erased (dropCopies cs point) := by
  unfold dropCopies
  exact kept_foldl (fun _ _ h => removeRec_kept _ h) h _

@[simp] theorem programHead_keeps {s : State} (r : Rec) (addr : Nat) (ok : Bool) (hk : Keeps q s) : Keeps q (programHead r addr ok s) := by
  unfold programHead
  dsimp only
  split
  · simp [hk]
  · split <;> simp [hk]

@[simp] theorem writeRing_keeps {s : State} (r : Rec) (ok : Bool) (hk : Keeps q s) : Keeps q (writeRing r ok s) := by
  unfold writeRing
  dsimp only
  split
  · simp [hk]
  · next h => 
    refine programHead_keeps _ _ _ ((keeps_mk ..).2 ⟨hk.1, hk.2.1, ringRoom_kept hk.2.2.1 h, hk.2.2.2⟩)

@[simp] theorem writeHead_keeps {s : State} (r : Rec) (ok : Bool) (hk : Keeps q s) : Keeps q (writeHead r ok s) := by
  unfold writeHead
  dsimp only
  (repeat' split) <;> simp [hk]

@[simp] theorem copyRec_keeps {s : State} (r : Found) (hk : Keeps q s) : Keeps q (copyRec s r) := by
  unfold copyRec
  try dsimp only
  (repeat' split) <;> simp (maxDischargeDepth := 40) +contextual [*]

@[simp] theorem mountLog_keeps {s : State} (hk : Keeps q s) : Keeps q (mountLog s) := by
  unfold mountLog
  simp [hk]

@[simp] theorem beginClear_keeps {s : State} (hk : Keeps q s) : Keeps q (beginClear s) := by
  unfold beginClear
  dsimp only
  (repeat' split) <;> simp +contextual [*]

@[simp] theorem logClear_keeps {s : State} (v : W64) (hk : Keeps q s) : Keeps q (logClear v s) := by
  unfold logClear
  (repeat' split) <;> simp [hk]

@[simp] theorem clearDone_keeps {s : State} (c : LogClearing) (hk : Keeps q s) : Keeps q (clearDone c s) := by
  unfold clearDone
  try dsimp only
  (repeat' split) <;> simp (maxDischargeDepth := 40) +contextual [*]

end Sys2Proof.Machine
end

