-- ==== Sys2Proof/Laws/KeepsDomain.lean ====
section
/-! SUPPORT. Links, ticks, resets, the domain and registers: what each operation keeps. -/

namespace Sys2Proof.Machine

variable {q : List Instr}

/-! ### Link -/

@[simp] theorem setSub_keeps {s : State} (i : Nat) (p : SubPort) (hk : Keeps q s) : Keeps q (setSub i p s) := by
  unfold setSub
  simp [hk]

@[simp] theorem startTraining_keeps {s : State} (keep : Bool) (lanes : Byte) (i : Nat) (hk : Keeps q s) :
    Keeps q (startTraining keep lanes i s) := by
  unfold startTraining
  simp [hk]

@[simp] theorem trainAll_keeps {s : State} (hk : Keeps q s) : Keeps q (trainAll s) := by
  unfold trainAll
  try dsimp only
  (repeat' split) <;> simp (maxDischargeDepth := 40) +contextual [*]

@[simp] theorem retrainSub_keeps {s : State} (i : Nat) (hk : Keeps q s) : Keeps q (retrainSub i s) := by
  unfold retrainSub
  simp [hk]

@[simp] theorem emit_keeps {s : State} (i : Nat) (kind ctl plen : Nat) (seq : W16) (payload : List Byte) (hk : Keeps q s) :
    Keeps q (emit i kind ctl plen seq payload s) := by
  unfold emit
  simp [hk]

@[simp] theorem emitData_keeps {s : State} (i : Nat) (seq : W16) (f : DataFlit) (hk : Keeps q s) :
    Keeps q (emitData i seq f s) := by
  unfold emitData
  simp [hk]

@[simp] theorem replayFrom_keeps {s : State} (i k : Nat) (hk : Keeps q s) : Keeps q (replayFrom i k s) := by
  unfold replayFrom
  dsimp only
  (repeat' split) <;> simp +contextual [*]

@[simp] theorem noteStalls_keeps {s : State} (i : Nat) (hk : Keeps q s) : Keeps q (noteStalls i s) := by
  unfold noteStalls
  simp [hk]

@[simp] theorem sendNew_keeps {s : State} (n i : Nat) (hk : Keeps q s) : Keeps q (sendNew n i s) := by
  induction n generalizing s with
  | zero => exact noteStalls_keeps _ hk
  | succ n ih =>
    unfold sendNew
    dsimp only
    split
    · split
      · exact ih (emitData_keeps _ _ _ (setSub_keeps _ _ hk))
      · exact noteStalls_keeps _ hk
    · exact noteStalls_keeps _ hk

@[simp] theorem sendWaiting_keeps {s : State} (i : Nat) (hk : Keeps q s) : Keeps q (sendWaiting i s) := by
  unfold sendWaiting
  simp [hk]

@[simp] theorem pumpLink_keeps {s : State} (hk : Keeps q s) : Keeps q (pumpLink s) := by
  unfold pumpLink
  try dsimp only
  repeat' first | (with_reducible assumption) | (with_reducible refine stamped_keeps _ (fun _ _ _ => ?_) ?_) | (with_reducible refine stampedIf_keeps _ (fun _ _ _ => ?_) ?_) | (with_reducible refine whenServing_keeps _ (fun _ _ => ?_) ?_) | (with_reducible refine keeps_foldl (fun _ _ _ => ?_) ?_ _) | (with_reducible refine keeps_foldl_fst (fun _ _ _ => ?_) ?_ _) | (with_reducible refine keeps_foldl_snd (fun _ _ _ => ?_) ?_ _) | (simp (maxDischargeDepth := 40) +contextual [*]; done) | split | (dsimp only)

@[simp] theorem trainingFailed_keeps {s : State} (record farBad : Bool) (i : Nat) (hk : Keeps q s) :
    Keeps q (trainingFailed record farBad i s) := by
  unfold trainingFailed
  dsimp only
  (repeat' split) <;> simp +contextual [*]

@[simp] theorem restripe_keeps {s : State} (mask : Byte) (attempts i : Nat) (hk : Keeps q s) :
    Keeps q (restripe mask attempts i s) := by
  unfold restripe
  try dsimp only
  (repeat' split) <;> simp (maxDischargeDepth := 40) +contextual [*]

@[simp] theorem lastingFault_keeps {s : State} (flagged : Byte) (i : Nat) (hk : Keeps q s) :
    Keeps q (lastingFault flagged i s) := by
  unfold lastingFault
  dsimp only
  (repeat' split) <;> simp [hk]

@[simp] theorem laneDone_keeps {s : State} (i : Nat) (hk : Keeps q s) : Keeps q (laneDone i s) := by
  unfold laneDone
  try dsimp only
  (repeat' split) <;> simp (maxDischargeDepth := 40) +contextual [*]

@[simp] theorem laneChanges_keeps {s : State} (hk : Keeps q s) : Keeps q (laneChanges s) := by
  unfold laneChanges
  try dsimp only
  (repeat' split) <;> simp (maxDischargeDepth := 40) +contextual [*]

@[simp] theorem badFlit_keeps {s : State} (flagged : Byte) (i : Nat) (hk : Keeps q s) : Keeps q (badFlit flagged i s) := by
  unfold badFlit
  try dsimp only
  (repeat' split) <;> simp (maxDischargeDepth := 40) +contextual [*]

@[simp] theorem takeAck_keeps {s : State} (i : Nat) (f : List Byte) (hk : Keeps q s) : Keeps q (takeAck i f s) := by
  unfold takeAck
  simp [hk]

@[simp] theorem deliverTxn_keeps {s : State} (v : Nat) (b : List Byte) (hk : Keeps q s) : Keeps q (deliverTxn v b s) := by
  unfold deliverTxn
  split <;> simp [hk]

@[simp] theorem acceptFlit_keeps {s : State} (i : Nat) (f : List Byte) (hk : Keeps q s) : Keeps q (acceptFlit i f s) := by
  unfold acceptFlit
  dsimp only
  split <;> simp [hk]

@[simp] theorem sendFailed_keeps {s : State} (nak : Bool) (k i : Nat) (hk : Keeps q s) : Keeps q (sendFailed nak k i s) := by
  unfold sendFailed
  dsimp only
  (repeat' split) <;> simp [hk]

@[simp] theorem retrainCmd_keeps {s : State} (i : Nat) (hk : Keeps q s) : Keeps q (retrainCmd i s) := by
  unfold retrainCmd
  dsimp only
  (repeat' split) <;> simp [hk]

@[simp] theorem resetCmd_keeps {s : State} (i : Nat) (hk : Keeps q s) : Keeps q (resetCmd i s) := by
  unfold resetCmd
  try dsimp only
  (repeat' split) <;> simp (maxDischargeDepth := 40) +contextual [*]

@[simp] theorem portCommand_keeps {s : State} (v : W64) (hk : Keeps q s) : Keeps q (portCommand v s) := by
  unfold portCommand
  split <;> simp [hk]

/-! ### Tick -/

@[simp] theorem linkTick_keeps {s : State} (hk : Keeps q s) : Keeps q (linkTick s) := by
  unfold linkTick
  simp [hk]

@[simp] theorem tick_keeps {s : State} (hk : Keeps q s) : Keeps q (tick s) := by
  unfold tick
  try dsimp only
  (repeat' split) <;> simp (maxDischargeDepth := 40) +contextual [*]

/-! ### Resets -/

@[simp] theorem firmwareStarts_keeps {s : State} (hk : Keeps q s) : Keeps q (firmwareStarts s) := by
  unfold firmwareStarts
  simp [hk]

@[simp] theorem enterRecovery_keeps {s : State} (code : Nat) (hk : Keeps q s) : Keeps q (enterRecovery code s) := by
  unfold enterRecovery
  simp [hk]

@[simp] theorem loseEntry_keeps {s : State} (e : BufEnt) (hk : Keeps q s) : Keeps q (loseEntry s e) := by
  unfold loseEntry
  split <;> simp [hk]

@[simp] theorem settleBuffers_keeps {s : State} (lost : Nat → Nat → Bool) (deltasLost : Nat → Bool) (hk : Keeps q s) :
    Keeps q (settleBuffers lost deltasLost s) := by
  unfold settleBuffers
  dsimp only
  generalize List.reverse _ = es
  have h := keeps_foldl (f := loseEntry) (fun _ x h => loseEntry_keeps x h) hk es
  generalize es.foldl loseEntry s = t at h ⊢
  exact (keeps_mk ..).2 h

@[simp] theorem replayFlush_keeps {s : State} (f : Flush) (hk : Keeps q s) : Keeps q (replayFlush f s) := by
  unfold replayFlush
  try dsimp only
  (repeat' split) <;> simp (maxDischargeDepth := 40) +contextual [*]

@[simp] theorem journalBack_keeps {s : State} (hk : Keeps q s) : Keeps q (journalBack s) := by
  unfold journalBack
  simp [hk]

@[simp] theorem mountStockpile_keeps {s : State} (b : Board) (hk : Keeps q s) : Keeps q (mountStockpile b s) := by
  unfold mountStockpile
  try dsimp only
  (repeat' split) <;> simp (maxDischargeDepth := 40) +contextual [*]

@[simp] theorem mergeFlash_kept (cells : List (Nat × Byte)) {cs : List Host.Cell} (h : Kept q erased cs) :
    Kept q erased (mergeFlash cells cs) := by
  unfold mergeFlash
  refine kept_foldl (fun _ _ h => ?_) h _
  split
  · exact kept_put _ _ h
  · exact h

@[simp] theorem readBoard_keeps {s : State} (b : Board) (hk : Keeps q s) : Keeps q (readBoard b s) := by
  simp [readBoard, hk]

@[simp] theorem trainMemory_keeps {s : State} (b : Board) (hk : Keeps q s) : Keeps q (trainMemory b s) := by
  unfold trainMemory
  try dsimp only
  (repeat' split) <;> simp (maxDischargeDepth := 40) +contextual [*]

@[simp] theorem resumePoint_keeps {s : State} (hk : Keeps q s) : Keeps q (resumePoint s) := by
  unfold resumePoint
  dsimp only
  (repeat' split) <;> simp [hk]

@[simp] theorem bootService_keeps {s : State} (b : Board) (hk : Keeps q s) : Keeps q (bootService b s) := by
  unfold bootService
  try dsimp only
  (repeat' split) <;> simp (maxDischargeDepth := 40) +contextual [*]

@[simp] theorem cutPrograms_keeps {s : State} (hk : Keeps q s) : Keeps q (cutPrograms s) := by
  unfold cutPrograms
  simp [hk]

@[simp] theorem warmLogic_keeps {s : State} (hk : Keeps q s) : Keeps q (warmLogic s) := by
  unfold warmLogic
  simp [hk]

@[simp] theorem warmReset_keeps {s : State} (cause : Nat) (lost : State → Coll → Bool) (hk : Keeps q s) :
    Keeps q (warmReset cause lost s) := by
  unfold warmReset
  try dsimp only
  (repeat' split) <;> simp (maxDischargeDepth := 40) +contextual [*]

@[simp] theorem requestWarm_keeps {s : State} (cause : Nat) (hk : Keeps q s) : Keeps q (requestWarm cause s) := by
  unfold requestWarm
  (repeat' split) <;> simp [hk]

@[simp] theorem exitDormant_keeps {s : State} (target : Nat) (hk : Keeps q s) : Keeps q (exitDormant target s) := by
  unfold exitDormant
  try dsimp only
  (repeat' split) <;> simp (maxDischargeDepth := 40) +contextual [*]

@[simp] theorem jobReset_keeps {s : State} (t : Ticket) (hk : Keeps q s) : Keeps q (jobReset t s) := by
  unfold jobReset
  try dsimp only
  (repeat' split) <;> simp (maxDischargeDepth := 40) +contextual [*]

@[simp] theorem resetCommand_keeps {s : State} (v : W64) (t : Ticket) (hk : Keeps q s) : Keeps q (resetCommand v t s) := by
  unfold resetCommand
  split <;> simp [hk]

@[simp] theorem fwCommand_keeps {s : State} (v : W64) (hk : Keeps q s) : Keeps q (fwCommand v s) := by
  unfold fwCommand
  dsimp only
  (repeat' split) <;> simp [hk]

/-! ### Domain -/

@[simp] theorem knowMember_keeps {s : State} (n : Node) (uid : W64) (st : MemberState) (hk : Keeps q s) :
    Keeps q (knowMember n uid st s) := by
  unfold knowMember
  simp [hk]

@[simp] theorem sendCall_keeps {s : State} (domain : Nat) (hk : Keeps q s) : Keeps q (sendCall domain s) := by
  unfold sendCall
  simp [hk]

@[simp] theorem enumCommand_keeps {s : State} (v : W64) (hk : Keeps q s) : Keeps q (enumCommand v s) := by
  unfold enumCommand
  dsimp only
  split <;> simp [hk]

@[simp] theorem sendAssign_keeps {s : State} (uid : W64) (n : Node) (hk : Keeps q s) : Keeps q (sendAssign uid n s) := by
  unfold sendAssign
  simp [hk]

@[simp] theorem trackManager_keeps {s : State} (src : Node) (hk : Keeps q s) : Keeps q (trackManager src s) := by
  unfold trackManager
  simp [hk]

@[simp] theorem trackSender_keeps {s : State} (src : Node) (hk : Keeps q s) : Keeps q (trackSender src s) := by
  unfold trackSender
  simp [hk]

@[simp] theorem takeAddress_keeps {s : State} (src : Node) (uid : W64) (node : Node) (hk : Keeps q s) :
    Keeps q (takeAddress src uid node s) := by
  unfold takeAddress
  simp [hk]

@[simp] theorem resumeRead_keeps {s : State} (r : Req) (hk : Keeps q s) : Keeps q (resumeRead r s) := by
  unfold resumeRead
  try dsimp only
  (repeat' split) <;> simp (maxDischargeDepth := 40) +contextual [*]

@[simp] theorem resumeReads_keeps {s : State} (hk : Keeps q s) : Keeps q (resumeReads s) := by
  unfold resumeReads
  try dsimp only
  (repeat' split) <;> simp (maxDischargeDepth := 40) +contextual [*]

@[simp] theorem sendOwed_keeps {s : State} (n : Node) (x : Ticket × Nat × Node) (hk : Keeps q s) : Keeps q (sendOwed n x s) := by
  unfold sendOwed
  try dsimp only
  (repeat' split) <;> simp (maxDischargeDepth := 40) +contextual [*]

@[simp] theorem memberUp_keeps {s : State} (n : Node) (hk : Keeps q s) : Keeps q (memberUp n s) := by
  unfold memberUp
  split <;> simp [hk]

@[simp] theorem hearPeer_keeps {s : State} (src : Node) (h : Heartbeat) (hk : Keeps q s) : Keeps q (hearPeer src h s) := by
  unfold hearPeer
  simp [hk]

@[simp] theorem pairFrom_keeps {s : State} (src : Node) (h : Heartbeat) (hk : Keeps q s) : Keeps q (pairFrom src h s) := by
  unfold pairFrom
  (repeat' split) <;> simp [hk]

@[simp] theorem dropSwap_keeps {s : State} (ms : List Node) (hk : Keeps q s) : Keeps q (resolveSwap.drop ms s) := by
  unfold resolveSwap.drop; try dsimp only
  (repeat' split) <;> first | (with_reducible assumption) | (simp (maxDischargeDepth := 40) [*]; done)

@[simp] theorem resolveSwap_keeps {s : State} (hk : Keeps q s) : Keeps q (resolveSwap s) := by
  unfold resolveSwap; try dsimp only
  (repeat' split) <;> first | (with_reducible assumption) | (simp (maxDischargeDepth := 40) [*]; done)

@[simp] theorem takeOver_keeps {s : State} (hk : Keeps q s) : Keeps q (takeOver s) := by
  unfold takeOver
  try dsimp only
  (repeat' split) <;> simp (maxDischargeDepth := 40) +contextual [*]

@[simp] theorem tryTakeover_keeps {s : State} (hk : Keeps q s) : Keeps q (tryTakeover s) := by
  unfold tryTakeover
  split <;> simp [hk]

@[simp] theorem memberReturns_keeps {s : State} (m : Member) (h : Heartbeat) (hk : Keeps q s) :
    Keeps q (memberReturns m h s) := by
  unfold memberReturns
  (repeat' split) <;> simp [hk]

@[simp] theorem mirrorFrom_keeps {s : State} (src : Node) (h : Heartbeat) (hk : Keeps q s) : Keeps q (mirrorFrom src h s) := by
  unfold mirrorFrom
  simp [hk]

@[simp] theorem mirrorGone_keeps {s : State} (n : Node) (hk : Keeps q s) : Keeps q (mirrorGone n s) := by
  unfold mirrorGone
  dsimp only
  (repeat' split) <;> simp [hk]

@[simp] theorem joinEpoch_keeps {s : State} (src : Node) (hk : Keeps q s) : Keeps q (joinEpoch src s) := by
  unfold joinEpoch
  split <;> simp [hk]

@[simp] theorem dropHeld_keeps {s : State} (r : Req) (hk : Keeps q s) : Keeps q (dropHeld r s) := by
  unfold dropHeld
  (repeat' split) <;> simp [hk]

@[simp] theorem removeMember_keeps {s : State} (m : Member) (hk : Keeps q s) : Keeps q (removeMember m s) := by
  unfold removeMember
  try dsimp only
  (repeat' split) <;> simp (maxDischargeDepth := 40) +contextual [*]

@[simp] theorem memberCommand_keeps {s : State} (v : W64) (hk : Keeps q s) : Keeps q (memberCommand v s) := by
  unfold memberCommand
  (repeat' split) <;> simp [hk]

/-! ### Registers -/

@[simp] theorem clearSubCounts_keeps {s : State} (v : W64) (hk : Keeps q s) : Keeps q (clearSubCounts v s) := by
  unfold clearSubCounts
  split <;> simp [hk]

@[simp] theorem rcClear_keeps {s : State} (src : Node) (offset : W64) (hk : Keeps q s) : Keeps q (rcClear src offset s) := by
  unfold rcClear
  repeat' (with_reducible refine keeps_ite ?_ ?_)
  all_goals first | exact clearSubCounts_keeps _ hk | with_reducible exact hk | exact (keeps_mk ..).2 hk

@[simp] theorem touchView_keeps {s : State} (src : Node) (offset : W64) (hk : Keeps q s) : Keeps q (touchView src offset s) := by
  unfold touchView
  split <;> simp [hk]

@[simp] theorem readReg_keeps {s : State} (c : Cmd) (offset : W64) (hk : Keeps q s) : Keeps q (readReg c offset s).1 := by
  unfold readReg
  simp [hk]

@[simp] theorem swapWrite_keeps {s : State} (v : W64) (t : Ticket) (hk : Keeps q s) : Keeps q (swapWrite v t s) := by
  unfold swapWrite
  split <;> simp [hk]

@[simp] theorem portCfgWrite_keeps {s : State} (n : Nat) (v : W64) (hk : Keeps q s) : Keeps q (portCfgWrite n v s) := by
  unfold portCfgWrite
  simp [hk]

@[simp] theorem logWrite_keeps {s : State} (offset v : W64) (hk : Keeps q s) : Keeps q (logWrite offset v s) := by
  unfold logWrite
  split <;> simp [hk]

@[simp] theorem regWrite_keeps {s : State} (c : Cmd) (offset v : W64) (t : Ticket) (hk : Keeps q s) : Keeps q (regWrite c offset v t s) := by
  unfold regWrite
  split
  · split <;> simp [hk]
  · split
    · simp [hk]
    · repeat' (with_reducible refine keeps_ite ?_ ?_)
      all_goals first | with_reducible exact hk | (simp [hk]; done) | exact (keeps_mk ..).2 hk

end Sys2Proof.Machine
end

