-- ==== Sys2Proof/Laws/PerInstr.lean ====
section
/-! SUPPORT. What the checks of WellFormed say of each command: an operand that numbers a thing is below how many the device has
of it, and an operand of a set size has that size. -/

namespace Sys2Proof.Laws

/-- Operands that number a thing, each with how many of it there are. -/
def Wf.numbers : Instr → List (Nat × Nat)
  | .swapInstall b | .issueBoundary b | .integratedVoltageRegulatorFault b => [(b, 96)]
  | .tileComplete b l _ => [(b, 96), (l, 8)]
  | .stepStart n | .stepEnd n | .stepWatchdog n | .queueSlotFree n => [(n, 64)]
  | .kvBlock _ h _ _ => [(h.layer, 65536)]
  | .mirrorEntry _ _ e => [(e.kind, 256)]
  | .pendingDrain c | .foldStart c | .foldUnitCommit c | .foldPublish c | .versionRetire c | .compactionDone c
  | .checkpointCommit c | .collectionRestore c => [(c, 65536)]
  | .pageMoveStart e => [(e, 2)]
  | .scrub t _ _ _ => [(t, 2)]
  | .bufferProgram c _ | .slcTargetRecompute c | .slcIdleMove c | .logBlockMerge c _ | .mapDeltaProgram c
  | .programDone c _ _ | .eraseDone c _ _ | .nandRead c _ _ _ => [(c, 2)]
  | .linkTraining p i t => [(p, 12), (i, 4), (t.farKind, 4)]
  | .trainingTimeout p i | .replayTimeout p i | .ackTimer p i | .dataFlit p i _ _ | .nak p i _ _ | .laneChg p i _
  | .idle p i _ => [(p, 12), (i, 4)]
  | .creditStall p i v | .creditStallRetrain p i v => [(p, 12), (i, 4), (v, 4)]
  | .monitorWindow d n => [(d, 256), (n, 65536)]
  | .ringCheck n => [(n, 65536)]
  | .thermalSample ts => ts.map fun t => (t, 1024)
  | _ => []

/-- Operands of a set size, each with that size. -/
def Wf.sizes : Instr → List (Nat × Nat)
  | .submit _ _ d _ | .workFwd _ _ d _ | .rerankFwd _ _ d _ _ | .prompt _ _ d _ _ => [(d.length, 128)]
  | .streamRec _ r => [(r.length, 64)]
  | .boot b => [(b.straps.length, 3), (b.keySlots.length, 4), (b.modules.length, 16), (b.nand.targets.length, 32)]
  | .flushDone cs => [(cs.length, 2)]
  | .linkTraining _ _ t => [(t.buffers.length, 4)]
  | .dataFlit _ _ f _ | .nak _ _ f _ | .laneChg _ _ f | .idle _ _ f => [(f.length, 256)]
  | .thermalSample ts => [(ts.length, 18)]
  | _ => []

/-- A well-formed command has its numbers in their ranges and its sizes as the spec gives them. -/
def Wf.Statement (i : Instr) : Prop :=
  wellFormed i = true → (∀ x ∈ Wf.numbers i, x.1 < x.2) ∧ ∀ x ∈ Wf.sizes i, x.1 = x.2

/-! ### The forms that the checks take -/

theorem Wf.below1 {a n : Nat} (h : decide (a < n) = true) : ∀ x ∈ [(a, n)], x.1 < x.2 := by
  simpa using h

theorem Wf.below2 {a b n m : Nat} (h : (decide (a < n) && decide (b < m)) = true) : ∀ x ∈ [(a, n), (b, m)], x.1 < x.2 := by
  simpa using h

theorem Wf.below3 {a b c n m k : Nat} (h : ((decide (a < n) && decide (b < m)) && decide (c < k)) = true) :
    ∀ x ∈ [(a, n), (b, m), (c, k)], x.1 < x.2 := by
  simp only [Bool.and_eq_true, decide_eq_true_eq] at h
  simp [h]

theorem Wf.size1 {a n : Nat} (h : (a == n) = true) : ∀ x ∈ [(a, n)], x.1 = x.2 := by
  simpa using h

theorem Wf.both {a b : Bool} (h : (a && b) = true) : a = true ∧ b = true := by
  simpa using h

theorem Wf.word {t u o : Nat} (h : wordOk t u o = true) : ∀ x ∈ [(t, 2)], x.1 < x.2 := by
  simp only [wordOk, Bool.and_eq_true, Bool.or_eq_true, beq_iff_eq, decide_eq_true_eq] at h
  simp only [List.mem_singleton, forall_eq]
  omega

theorem Wf.board {b : Board} (h : boardOk b = true) :
    ∀ x ∈ [(b.straps.length, 3), (b.keySlots.length, 4), (b.modules.length, 16), (b.nand.targets.length, 32)], x.1 = x.2 := by
  simp only [boardOk, Bool.and_eq_true, beq_iff_eq] at h
  simp [h]

theorem Wf.temps {ts : List Nat} (h : (ts.all (· < 1024)) = true) : ∀ x ∈ ts.map fun t => (t, 1024), x.1 < x.2 := by
  simpa using h

/-! ### Each command -/

theorem Wf.planLoad (c : Cmd) (imageLen : W32) : Wf.Statement (.planLoad c imageLen) :=
  fun _ => ⟨List.forall_mem_nil _, List.forall_mem_nil _⟩
theorem Wf.loadTimeout : Wf.Statement .loadTimeout := fun _ => ⟨List.forall_mem_nil _, List.forall_mem_nil _⟩
theorem Wf.swap (c : Cmd) (migrFirst migrCount : Byte) : Wf.Statement (.swap c migrFirst migrCount) :=
  fun _ => ⟨List.forall_mem_nil _, List.forall_mem_nil _⟩
theorem Wf.swapInstall (bench : Nat) : Wf.Statement (.swapInstall bench) := fun h => ⟨Wf.below1 h, List.forall_mem_nil _⟩
theorem Wf.swapTimeout : Wf.Statement .swapTimeout := fun _ => ⟨List.forall_mem_nil _, List.forall_mem_nil _⟩
theorem Wf.setRetirement : Wf.Statement .setRetirement := fun _ => ⟨List.forall_mem_nil _, List.forall_mem_nil _⟩
theorem Wf.domainSwap (c : Cmd) (migrFirst migrCount : Byte) : Wf.Statement (.domainSwap c migrFirst migrCount) :=
  fun _ => ⟨List.forall_mem_nil _, List.forall_mem_nil _⟩
theorem Wf.prepare (src : Node) (nextEpoch : W16) : Wf.Statement (.prepare src nextEpoch) :=
  fun _ => ⟨List.forall_mem_nil _, List.forall_mem_nil _⟩
theorem Wf.prepared (src : Node) (code : Byte) (detail : W16) (slices : List Slice) : Wf.Statement (.prepared src code detail slices) :=
  fun _ => ⟨List.forall_mem_nil _, List.forall_mem_nil _⟩
theorem Wf.domainSwapTimeout : Wf.Statement .domainSwapTimeout := fun _ => ⟨List.forall_mem_nil _, List.forall_mem_nil _⟩
theorem Wf.commit (src : Node) (epoch : W16) (point : Ticket) : Wf.Statement (.commit src epoch point) :=
  fun _ => ⟨List.forall_mem_nil _, List.forall_mem_nil _⟩
theorem Wf.abort (src : Node) (epoch : W16) : Wf.Statement (.abort src epoch) :=
  fun _ => ⟨List.forall_mem_nil _, List.forall_mem_nil _⟩
theorem Wf.preparedWait : Wf.Statement .preparedWait := fun _ => ⟨List.forall_mem_nil _, List.forall_mem_nil _⟩
theorem Wf.preparedRelease : Wf.Statement .preparedRelease := fun _ => ⟨List.forall_mem_nil _, List.forall_mem_nil _⟩
theorem Wf.jobOpen (c : Cmd) (jobId : W32) : Wf.Statement (.jobOpen c jobId) :=
  fun _ => ⟨List.forall_mem_nil _, List.forall_mem_nil _⟩
theorem Wf.endDrain (c : Cmd) : Wf.Statement (.endDrain c) := fun _ => ⟨List.forall_mem_nil _, List.forall_mem_nil _⟩
theorem Wf.endAbort (c : Cmd) : Wf.Statement (.endAbort c) := fun _ => ⟨List.forall_mem_nil _, List.forall_mem_nil _⟩
theorem Wf.jobClose : Wf.Statement .jobClose := fun _ => ⟨List.forall_mem_nil _, List.forall_mem_nil _⟩
theorem Wf.forceFault (c : Cmd) : Wf.Statement (.forceFault c) := fun _ => ⟨List.forall_mem_nil _, List.forall_mem_nil _⟩
theorem Wf.cancelTicket (c : Cmd) (ticket : Ticket) : Wf.Statement (.cancelTicket c ticket) :=
  fun _ => ⟨List.forall_mem_nil _, List.forall_mem_nil _⟩
theorem Wf.cancelTag (c : Cmd) (tag : BitVec 48) : Wf.Statement (.cancelTag c tag) :=
  fun _ => ⟨List.forall_mem_nil _, List.forall_mem_nil _⟩
theorem Wf.cancelFwd (src : Node) (ticket : Ticket) (expired : Bool) : Wf.Statement (.cancelFwd src ticket expired) :=
  fun _ => ⟨List.forall_mem_nil _, List.forall_mem_nil _⟩
theorem Wf.softPass (ticket : Ticket) : Wf.Statement (.softPass ticket) :=
  fun _ => ⟨List.forall_mem_nil _, List.forall_mem_nil _⟩
theorem Wf.hardPass (ticket : Ticket) : Wf.Statement (.hardPass ticket) :=
  fun _ => ⟨List.forall_mem_nil _, List.forall_mem_nil _⟩
theorem Wf.stepStart (stage : Nat) : Wf.Statement (.stepStart stage) := fun h => ⟨Wf.below1 h, List.forall_mem_nil _⟩
theorem Wf.issueBoundary (bench : Nat) : Wf.Statement (.issueBoundary bench) := fun h => ⟨Wf.below1 h, List.forall_mem_nil _⟩
theorem Wf.stepEnd (stage : Nat) : Wf.Statement (.stepEnd stage) := fun h => ⟨Wf.below1 h, List.forall_mem_nil _⟩
theorem Wf.stepWatchdog (stage : Nat) : Wf.Statement (.stepWatchdog stage) := fun h => ⟨Wf.below1 h, List.forall_mem_nil _⟩
theorem Wf.queueSlotFree (stage : Nat) : Wf.Statement (.queueSlotFree stage) := fun h => ⟨Wf.below1 h, List.forall_mem_nil _⟩
theorem Wf.tileComplete (bench slab : Nat) (tile : Machine.Tile) : Wf.Statement (.tileComplete bench slab tile) :=
  fun h => ⟨Wf.below2 h, List.forall_mem_nil _⟩
theorem Wf.submit (src : Node) (txn : W16) (desc data : List Byte) : Wf.Statement (.submit src txn desc data) :=
  fun h => ⟨List.forall_mem_nil _, Wf.size1 h⟩
theorem Wf.cont (src : Node) (txn : W16) (off : Nat) (data : List Byte) : Wf.Statement (.cont src txn off data) :=
  fun _ => ⟨List.forall_mem_nil _, List.forall_mem_nil _⟩
theorem Wf.submissionTimeout (src : Node) (txn : W16) : Wf.Statement (.submissionTimeout src txn) :=
  fun _ => ⟨List.forall_mem_nil _, List.forall_mem_nil _⟩
theorem Wf.mirrorEntry (src : Node) (mgrEpoch : W32) (e : JEntry) : Wf.Statement (.mirrorEntry src mgrEpoch e) :=
  fun h => ⟨Wf.below1 h, List.forall_mem_nil _⟩
theorem Wf.mirrorAck (src : Node) (pos : W64) (superseded : Bool) : Wf.Statement (.mirrorAck src pos superseded) :=
  fun _ => ⟨List.forall_mem_nil _, List.forall_mem_nil _⟩
theorem Wf.mirrorAckTimeout (pos : W64) : Wf.Statement (.mirrorAckTimeout pos) :=
  fun _ => ⟨List.forall_mem_nil _, List.forall_mem_nil _⟩
theorem Wf.completionPost (ticket : Ticket) : Wf.Statement (.completionPost ticket) :=
  fun _ => ⟨List.forall_mem_nil _, List.forall_mem_nil _⟩
theorem Wf.cqStalled : Wf.Statement .cqStalled := fun _ => ⟨List.forall_mem_nil _, List.forall_mem_nil _⟩
theorem Wf.releaseTicket (c : Cmd) (ticket : Ticket) : Wf.Statement (.releaseTicket c ticket) :=
  fun _ => ⟨List.forall_mem_nil _, List.forall_mem_nil _⟩
theorem Wf.streamReset (c : Cmd) (stream : BitVec 12) : Wf.Statement (.streamReset c stream) :=
  fun _ => ⟨List.forall_mem_nil _, List.forall_mem_nil _⟩
theorem Wf.fetch (src : Node) (txn : W16) (ticket : Ticket) : Wf.Statement (.fetch src txn ticket) :=
  fun _ => ⟨List.forall_mem_nil _, List.forall_mem_nil _⟩
theorem Wf.cqCtrlWrite (c : Cmd) (data : W64) : Wf.Statement (.cqCtrlWrite c data) :=
  fun _ => ⟨List.forall_mem_nil _, List.forall_mem_nil _⟩
theorem Wf.srCtrlWrite (c : Cmd) (data : W64) : Wf.Statement (.srCtrlWrite c data) :=
  fun _ => ⟨List.forall_mem_nil _, List.forall_mem_nil _⟩
theorem Wf.alertCtrlWrite (c : Cmd) (data : W64) : Wf.Statement (.alertCtrlWrite c data) :=
  fun _ => ⟨List.forall_mem_nil _, List.forall_mem_nil _⟩
theorem Wf.registerWrite (c : Cmd) (offset data : W64) : Wf.Statement (.registerWrite c offset data) :=
  fun _ => ⟨List.forall_mem_nil _, List.forall_mem_nil _⟩
theorem Wf.rcRead (c : Cmd) (offset : W64) : Wf.Statement (.rcRead c offset) :=
  fun _ => ⟨List.forall_mem_nil _, List.forall_mem_nil _⟩
theorem Wf.logReadData (c : Cmd) : Wf.Statement (.logReadData c) := fun _ => ⟨List.forall_mem_nil _, List.forall_mem_nil _⟩
theorem Wf.mread (c : Cmd) (offset : W64) : Wf.Statement (.mread c offset) :=
  fun _ => ⟨List.forall_mem_nil _, List.forall_mem_nil _⟩
theorem Wf.answer (src : Node) (a : Answer) : Wf.Statement (.answer src a) :=
  fun _ => ⟨List.forall_mem_nil _, List.forall_mem_nil _⟩
theorem Wf.workFwd (src : Node) (h : FwdHead) (desc input : List Byte) : Wf.Statement (.workFwd src h desc input) :=
  fun h => ⟨List.forall_mem_nil _, Wf.size1 h⟩
theorem Wf.rerankFwd (src : Node) (h : FwdHead) (desc : List Byte) (tokens : List Nat) (ids : List W64) : Wf.Statement (.rerankFwd src h desc tokens ids) :=
  fun h => ⟨List.forall_mem_nil _, Wf.size1 h⟩
theorem Wf.tokenize (ticket : Ticket) : Wf.Statement (.tokenize ticket) :=
  fun _ => ⟨List.forall_mem_nil _, List.forall_mem_nil _⟩
theorem Wf.pack (ticket : Ticket) : Wf.Statement (.pack ticket) := fun _ => ⟨List.forall_mem_nil _, List.forall_mem_nil _⟩
theorem Wf.prompt (src : Node) (h : FwdHead) (desc : List Byte) (decodeNode : Node) (tokens : List Nat) : Wf.Statement (.prompt src h desc decodeNode tokens) :=
  fun h => ⟨List.forall_mem_nil _, Wf.size1 h⟩
theorem Wf.cacheOpen (src : Node) (ticket : Ticket) (promptLen lastToken kvFormat layers : Nat) : Wf.Statement (.cacheOpen src ticket promptLen lastToken kvFormat layers) :=
  fun _ => ⟨List.forall_mem_nil _, List.forall_mem_nil _⟩
theorem Wf.opened (src : Node) (ticket : Ticket) (handle : W64) : Wf.Statement (.opened src ticket handle) :=
  fun _ => ⟨List.forall_mem_nil _, List.forall_mem_nil _⟩
theorem Wf.noRoom (src : Node) (ticket : Ticket) : Wf.Statement (.noRoom src ticket) :=
  fun _ => ⟨List.forall_mem_nil _, List.forall_mem_nil _⟩
theorem Wf.cacheOpenRetry (ticket : Ticket) : Wf.Statement (.cacheOpenRetry ticket) :=
  fun _ => ⟨List.forall_mem_nil _, List.forall_mem_nil _⟩
theorem Wf.kvBlock (src : Node) (h : KvHead) (segOff : Nat) (data : List Byte) : Wf.Statement (.kvBlock src h segOff data) :=
  fun h => ⟨Wf.below1 (Wf.both h).1, List.forall_mem_nil _⟩
theorem Wf.kvAck (src : Node) (handle : W64) (layer index : Nat) : Wf.Statement (.kvAck src handle layer index) :=
  fun _ => ⟨List.forall_mem_nil _, List.forall_mem_nil _⟩
theorem Wf.kvResendTimeout (handle : W64) (layer index : Nat) : Wf.Statement (.kvResendTimeout handle layer index) :=
  fun _ => ⟨List.forall_mem_nil _, List.forall_mem_nil _⟩
theorem Wf.kvLost (src : Node) (ticket : Ticket) (handle : W64) : Wf.Statement (.kvLost src ticket handle) :=
  fun _ => ⟨List.forall_mem_nil _, List.forall_mem_nil _⟩
theorem Wf.cacheDrop (src : Node) (handle : W64) : Wf.Statement (.cacheDrop src handle) :=
  fun _ => ⟨List.forall_mem_nil _, List.forall_mem_nil _⟩
theorem Wf.prefillDone (src : Node) (ticket : Ticket) (handle : W64) : Wf.Statement (.prefillDone src ticket handle) :=
  fun _ => ⟨List.forall_mem_nil _, List.forall_mem_nil _⟩
theorem Wf.cacheIdleTimeout (handle : W64) : Wf.Statement (.cacheIdleTimeout handle) :=
  fun _ => ⟨List.forall_mem_nil _, List.forall_mem_nil _⟩
theorem Wf.streamRec (src : Node) (record : List Byte) : Wf.Statement (.streamRec src record) :=
  fun h => ⟨List.forall_mem_nil _, Wf.size1 h⟩
theorem Wf.gthOpen (c : Cmd) (table : W32) : Wf.Statement (.gthOpen c table) :=
  fun _ => ⟨List.forall_mem_nil _, List.forall_mem_nil _⟩
theorem Wf.gthClone (c : Cmd) (table : W32) : Wf.Statement (.gthClone c table) :=
  fun _ => ⟨List.forall_mem_nil _, List.forall_mem_nil _⟩
theorem Wf.gthAbandon (c : Cmd) (table : W32) : Wf.Statement (.gthAbandon c table) :=
  fun _ => ⟨List.forall_mem_nil _, List.forall_mem_nil _⟩
theorem Wf.gthSelect (c : Cmd) (table : W32) : Wf.Statement (.gthSelect c table) :=
  fun _ => ⟨List.forall_mem_nil _, List.forall_mem_nil _⟩
theorem Wf.buildDone (table : W32) : Wf.Statement (.buildDone table) :=
  fun _ => ⟨List.forall_mem_nil _, List.forall_mem_nil _⟩
theorem Wf.tableSwitch (table : W32) : Wf.Statement (.tableSwitch table) :=
  fun _ => ⟨List.forall_mem_nil _, List.forall_mem_nil _⟩
theorem Wf.publishPrep (src : Node) (ticket : Ticket) (table version : W32) : Wf.Statement (.publishPrep src ticket table version) :=
  fun _ => ⟨List.forall_mem_nil _, List.forall_mem_nil _⟩
theorem Wf.ready (src : Node) (ticket : Ticket) (table : W32) (code : Byte) : Wf.Statement (.ready src ticket table code) :=
  fun _ => ⟨List.forall_mem_nil _, List.forall_mem_nil _⟩
theorem Wf.publishTimeout (ticket : Ticket) : Wf.Statement (.publishTimeout ticket) :=
  fun _ => ⟨List.forall_mem_nil _, List.forall_mem_nil _⟩
theorem Wf.publishCommit (src : Node) (ticket : Ticket) (table version : W32) : Wf.Statement (.publishCommit src ticket table version) :=
  fun _ => ⟨List.forall_mem_nil _, List.forall_mem_nil _⟩
theorem Wf.retire (src : Node) (table version : W32) : Wf.Statement (.retire src table version) :=
  fun _ => ⟨List.forall_mem_nil _, List.forall_mem_nil _⟩
theorem Wf.regionFree (table : W32) : Wf.Statement (.regionFree table) :=
  fun _ => ⟨List.forall_mem_nil _, List.forall_mem_nil _⟩
theorem Wf.gatherReq (src : Node) (txn : W16) (ticket : Ticket) (table version : W32) (hardLeft : W32) (index : List Nat) : Wf.Statement (.gatherReq src txn ticket table version hardLeft index) :=
  fun _ => ⟨List.forall_mem_nil _, List.forall_mem_nil _⟩
theorem Wf.gatherAns (src : Node) (ticket : Ticket) (table version : W32) (sliceFirst sliceWidth : Nat) (rows : List Byte) : Wf.Statement (.gatherAns src ticket table version sliceFirst sliceWidth rows) :=
  fun _ => ⟨List.forall_mem_nil _, List.forall_mem_nil _⟩
theorem Wf.insertAppend (ticket : Ticket) : Wf.Statement (.insertAppend ticket) :=
  fun _ => ⟨List.forall_mem_nil _, List.forall_mem_nil _⟩
theorem Wf.deleteAppend (ticket : Ticket) : Wf.Statement (.deleteAppend ticket) :=
  fun _ => ⟨List.forall_mem_nil _, List.forall_mem_nil _⟩
theorem Wf.pendingDrain (coll : Nat) : Wf.Statement (.pendingDrain coll) := fun h => ⟨Wf.below1 h, List.forall_mem_nil _⟩
theorem Wf.foldStart (coll : Nat) : Wf.Statement (.foldStart coll) := fun h => ⟨Wf.below1 h, List.forall_mem_nil _⟩
theorem Wf.foldUnitCommit (coll : Nat) : Wf.Statement (.foldUnitCommit coll) := fun h => ⟨Wf.below1 h, List.forall_mem_nil _⟩
theorem Wf.foldPublish (coll : Nat) : Wf.Statement (.foldPublish coll) := fun h => ⟨Wf.below1 h, List.forall_mem_nil _⟩
theorem Wf.versionRetire (coll : Nat) : Wf.Statement (.versionRetire coll) := fun h => ⟨Wf.below1 h, List.forall_mem_nil _⟩
theorem Wf.compactionDone (coll : Nat) : Wf.Statement (.compactionDone coll) := fun h => ⟨Wf.below1 h, List.forall_mem_nil _⟩
theorem Wf.checkpointCommit (coll : Nat) : Wf.Statement (.checkpointCommit coll) :=
  fun h => ⟨Wf.below1 h, List.forall_mem_nil _⟩
theorem Wf.collectionRestore (coll : Nat) : Wf.Statement (.collectionRestore coll) :=
  fun h => ⟨Wf.below1 h, List.forall_mem_nil _⟩
theorem Wf.pageMoveStart (engine : Nat) : Wf.Statement (.pageMoveStart engine) :=
  fun h => ⟨Wf.below1 h, List.forall_mem_nil _⟩
theorem Wf.pageSwitch (page : Nat) : Wf.Statement (.pageSwitch page) :=
  fun _ => ⟨List.forall_mem_nil _, List.forall_mem_nil _⟩
theorem Wf.haulAbort (page : Nat) : Wf.Statement (.haulAbort page) := fun _ => ⟨List.forall_mem_nil _, List.forall_mem_nil _⟩
theorem Wf.memRd (src : Node) (txn : W16) (addr : W64) (len : W32) (upsets : List Upset) : Wf.Statement (.memRd src txn addr len upsets) :=
  fun _ => ⟨List.forall_mem_nil _, List.forall_mem_nil _⟩
theorem Wf.memWr (src : Node) (txn : W16) (addr : W64) (len : W32) (data : List Byte) : Wf.Statement (.memWr src txn addr len data) :=
  fun _ => ⟨List.forall_mem_nil _, List.forall_mem_nil _⟩
theorem Wf.scrub (tier unit off : Nat) (upsets : List Upset) : Wf.Statement (.scrub tier unit off upsets) :=
  fun h => ⟨Wf.word (Wf.both h).1, List.forall_mem_nil _⟩
theorem Wf.boot (b : Board) : Wf.Statement (.boot b) := fun h => ⟨List.forall_mem_nil _, Wf.board h⟩
theorem Wf.bufferProgram (ctrl id : Nat) : Wf.Statement (.bufferProgram ctrl id) :=
  fun h => ⟨Wf.below1 h, List.forall_mem_nil _⟩
theorem Wf.programDone (ctrl id : Nat) (ok : Bool) : Wf.Statement (.programDone ctrl id ok) :=
  fun h => ⟨Wf.below1 h, List.forall_mem_nil _⟩
theorem Wf.eraseDone (ctrl block : Nat) (ok : Bool) : Wf.Statement (.eraseDone ctrl block ok) :=
  fun h => ⟨Wf.below1 h, List.forall_mem_nil _⟩
theorem Wf.nandRead (ctrl block page : Nat) (decodesAt : Option Nat) : Wf.Statement (.nandRead ctrl block page decodesAt) :=
  fun h => ⟨Wf.below1 h, List.forall_mem_nil _⟩
theorem Wf.slcTargetRecompute (ctrl : Nat) : Wf.Statement (.slcTargetRecompute ctrl) :=
  fun h => ⟨Wf.below1 h, List.forall_mem_nil _⟩
theorem Wf.slcIdleMove (ctrl : Nat) : Wf.Statement (.slcIdleMove ctrl) := fun h => ⟨Wf.below1 h, List.forall_mem_nil _⟩
theorem Wf.logBlockMerge (ctrl log : Nat) : Wf.Statement (.logBlockMerge ctrl log) :=
  fun h => ⟨Wf.below1 h, List.forall_mem_nil _⟩
theorem Wf.mapDeltaProgram (ctrl : Nat) : Wf.Statement (.mapDeltaProgram ctrl) :=
  fun h => ⟨Wf.below1 h, List.forall_mem_nil _⟩
theorem Wf.recordBlockClean (block : Nat) : Wf.Statement (.recordBlockClean block) :=
  fun _ => ⟨List.forall_mem_nil _, List.forall_mem_nil _⟩
theorem Wf.stkFormat (c : Cmd) (logPerGroup : Byte) (confirm : W32) : Wf.Statement (.stkFormat c logPerGroup confirm) :=
  fun _ => ⟨List.forall_mem_nil _, List.forall_mem_nil _⟩
theorem Wf.formatDone (factoryBad : List (Nat × Nat)) : Wf.Statement (.formatDone factoryBad) :=
  fun _ => ⟨List.forall_mem_nil _, List.forall_mem_nil _⟩
theorem Wf.powerFail (heldNs : Nat) : Wf.Statement (.powerFail heldNs) :=
  fun _ => ⟨List.forall_mem_nil _, List.forall_mem_nil _⟩
theorem Wf.flushDone (committed : List Bool) : Wf.Statement (.flushDone committed) :=
  fun h => ⟨List.forall_mem_nil _, Wf.size1 h⟩
theorem Wf.linkTraining (port sub : Nat) (t : Training) : Wf.Statement (.linkTraining port sub t) :=
  fun h =>
  ⟨Wf.below3 (Bool.and_eq_true_iff.2 ⟨(Wf.both (Wf.both h).1).1, (Wf.both h).2⟩), Wf.size1 (Wf.both (Wf.both h).1).2⟩
theorem Wf.trainingTimeout (port sub : Nat) : Wf.Statement (.trainingTimeout port sub) :=
  fun h => ⟨Wf.below2 h, List.forall_mem_nil _⟩
theorem Wf.dataFlit (port sub : Nat) (flit : List Byte) (flagged : Byte) : Wf.Statement (.dataFlit port sub flit flagged) :=
  fun h => ⟨Wf.below2 (Wf.both h).1, Wf.size1 (Wf.both h).2⟩
theorem Wf.nak (port sub : Nat) (flit : List Byte) (flagged : Byte) : Wf.Statement (.nak port sub flit flagged) :=
  fun h => ⟨Wf.below2 (Wf.both h).1, Wf.size1 (Wf.both h).2⟩
theorem Wf.laneChg (port sub : Nat) (flit : List Byte) : Wf.Statement (.laneChg port sub flit) :=
  fun h => ⟨Wf.below2 (Wf.both h).1, Wf.size1 (Wf.both h).2⟩
theorem Wf.idle (port sub : Nat) (flit : List Byte) : Wf.Statement (.idle port sub flit) :=
  fun h => ⟨Wf.below2 (Wf.both h).1, Wf.size1 (Wf.both h).2⟩
theorem Wf.replayTimeout (port sub : Nat) : Wf.Statement (.replayTimeout port sub) :=
  fun h => ⟨Wf.below2 h, List.forall_mem_nil _⟩
theorem Wf.ackTimer (port sub : Nat) : Wf.Statement (.ackTimer port sub) := fun h => ⟨Wf.below2 h, List.forall_mem_nil _⟩
theorem Wf.creditStall (port sub vc : Nat) : Wf.Statement (.creditStall port sub vc) :=
  fun h => ⟨Wf.below3 h, List.forall_mem_nil _⟩
theorem Wf.creditStallRetrain (port sub vc : Nat) : Wf.Statement (.creditStallRetrain port sub vc) :=
  fun h => ⟨Wf.below3 h, List.forall_mem_nil _⟩
theorem Wf.retrain (c : Cmd) (port : BitVec 4) (sub : BitVec 2) : Wf.Statement (.retrain c port sub) :=
  fun _ => ⟨List.forall_mem_nil _, List.forall_mem_nil _⟩
theorem Wf.portReset (c : Cmd) (port : BitVec 4) (sub : BitVec 2) : Wf.Statement (.portReset c port sub) :=
  fun _ => ⟨List.forall_mem_nil _, List.forall_mem_nil _⟩
theorem Wf.portDown (c : Cmd) (port : BitVec 4) (sub : BitVec 2) : Wf.Statement (.portDown c port sub) :=
  fun _ => ⟨List.forall_mem_nil _, List.forall_mem_nil _⟩
theorem Wf.unreachable : Wf.Statement .unreachable := fun _ => ⟨List.forall_mem_nil _, List.forall_mem_nil _⟩
theorem Wf.claim (c : Cmd) (domain : BitVec 6) (slot : BitVec 10) : Wf.Statement (.claim c domain slot) :=
  fun _ => ⟨List.forall_mem_nil _, List.forall_mem_nil _⟩
theorem Wf.call (src : Node) (domain : BitVec 6) (uid : W64) : Wf.Statement (.call src domain uid) :=
  fun _ => ⟨List.forall_mem_nil _, List.forall_mem_nil _⟩
theorem Wf.here (src : Node) (domain : BitVec 6) (slot : BitVec 10) (uid : W64) : Wf.Statement (.here src domain slot uid) :=
  fun _ => ⟨List.forall_mem_nil _, List.forall_mem_nil _⟩
theorem Wf.enumCollectTimeout : Wf.Statement .enumCollectTimeout := fun _ => ⟨List.forall_mem_nil _, List.forall_mem_nil _⟩
theorem Wf.assign (src : Node) (uid : W64) (node : Node) : Wf.Statement (.assign src uid node) :=
  fun _ => ⟨List.forall_mem_nil _, List.forall_mem_nil _⟩
theorem Wf.assignRetry (uid : W64) : Wf.Statement (.assignRetry uid) :=
  fun _ => ⟨List.forall_mem_nil _, List.forall_mem_nil _⟩
theorem Wf.lostCall : Wf.Statement .lostCall := fun _ => ⟨List.forall_mem_nil _, List.forall_mem_nil _⟩
theorem Wf.roster (src : Node) (entries : List (Nat × Nat)) : Wf.Statement (.roster src entries) :=
  fun _ => ⟨List.forall_mem_nil _, List.forall_mem_nil _⟩
theorem Wf.rosterOk (src : Node) : Wf.Statement (.rosterOk src) := fun _ => ⟨List.forall_mem_nil _, List.forall_mem_nil _⟩
theorem Wf.rosterNo (src : Node) : Wf.Statement (.rosterNo src) := fun _ => ⟨List.forall_mem_nil _, List.forall_mem_nil _⟩
theorem Wf.beatTimer : Wf.Statement .beatTimer := fun _ => ⟨List.forall_mem_nil _, List.forall_mem_nil _⟩
theorem Wf.beat (src : Node) (h : Heartbeat) : Wf.Statement (.beat src h) :=
  fun _ => ⟨List.forall_mem_nil _, List.forall_mem_nil _⟩
theorem Wf.reply (src : Node) (h : Heartbeat) : Wf.Statement (.reply src h) :=
  fun _ => ⟨List.forall_mem_nil _, List.forall_mem_nil _⟩
theorem Wf.peerSuspect (node : Node) : Wf.Statement (.peerSuspect node) :=
  fun _ => ⟨List.forall_mem_nil _, List.forall_mem_nil _⟩
theorem Wf.probe (src : Node) (h : Heartbeat) : Wf.Statement (.probe src h) :=
  fun _ => ⟨List.forall_mem_nil _, List.forall_mem_nil _⟩
theorem Wf.peerLost (node : Node) : Wf.Statement (.peerLost node) := fun _ => ⟨List.forall_mem_nil _, List.forall_mem_nil _⟩
theorem Wf.heartbeatTakeover (src : Node) (h : Heartbeat) : Wf.Statement (.heartbeatTakeover src h) :=
  fun _ => ⟨List.forall_mem_nil _, List.forall_mem_nil _⟩
theorem Wf.memberRemove (c : Cmd) (member : BitVec 10) : Wf.Statement (.memberRemove c member) :=
  fun _ => ⟨List.forall_mem_nil _, List.forall_mem_nil _⟩
theorem Wf.recordWrite (readBackOk : Bool) : Wf.Statement (.recordWrite readBackOk) :=
  fun _ => ⟨List.forall_mem_nil _, List.forall_mem_nil _⟩
theorem Wf.ringCompaction : Wf.Statement .ringCompaction := fun _ => ⟨List.forall_mem_nil _, List.forall_mem_nil _⟩
theorem Wf.flashTimeout : Wf.Statement .flashTimeout := fun _ => ⟨List.forall_mem_nil _, List.forall_mem_nil _⟩
theorem Wf.logClear (c : Cmd) : Wf.Statement (.logClear c) := fun _ => ⟨List.forall_mem_nil _, List.forall_mem_nil _⟩
theorem Wf.clearEraseDone : Wf.Statement .clearEraseDone := fun _ => ⟨List.forall_mem_nil _, List.forall_mem_nil _⟩
theorem Wf.monitorWindow (domain count : Nat) : Wf.Statement (.monitorWindow domain count) :=
  fun h => ⟨Wf.below2 h, List.forall_mem_nil _⟩
theorem Wf.ringCheck (count : Nat) : Wf.Statement (.ringCheck count) := fun h => ⟨Wf.below1 h, List.forall_mem_nil _⟩
theorem Wf.clkOutCfgWrite (c : Cmd) (data : W64) : Wf.Statement (.clkOutCfgWrite c data) :=
  fun _ => ⟨List.forall_mem_nil _, List.forall_mem_nil _⟩
theorem Wf.pwrCmd (c : Cmd) (state : BitVec 3) : Wf.Statement (.pwrCmd c state) :=
  fun _ => ⟨List.forall_mem_nil _, List.forall_mem_nil _⟩
theorem Wf.powerTransitionDone : Wf.Statement .powerTransitionDone := fun _ => ⟨List.forall_mem_nil _, List.forall_mem_nil _⟩
theorem Wf.pwrCapWrite (c : Cmd) (data : W64) : Wf.Statement (.pwrCapWrite c data) :=
  fun _ => ⟨List.forall_mem_nil _, List.forall_mem_nil _⟩
theorem Wf.capLoopStep : Wf.Statement .capLoopStep := fun _ => ⟨List.forall_mem_nil _, List.forall_mem_nil _⟩
theorem Wf.meterSample (milliVolt milliAmp : Nat) : Wf.Statement (.meterSample milliVolt milliAmp) :=
  fun _ => ⟨List.forall_mem_nil _, List.forall_mem_nil _⟩
theorem Wf.thermalSample (halfDegrees : List Nat) : Wf.Statement (.thermalSample halfDegrees) :=
  fun h => ⟨Wf.temps (Wf.both h).2, Wf.size1 (Wf.both h).1⟩
theorem Wf.avsAdjust (senseMv : Nat) : Wf.Statement (.avsAdjust senseMv) :=
  fun _ => ⟨List.forall_mem_nil _, List.forall_mem_nil _⟩
theorem Wf.avsTimeout : Wf.Statement .avsTimeout := fun _ => ⟨List.forall_mem_nil _, List.forall_mem_nil _⟩
theorem Wf.porst (heldNs : Nat) : Wf.Statement (.porst heldNs) := fun _ => ⟨List.forall_mem_nil _, List.forall_mem_nil _⟩
theorem Wf.supplyMonitorTrip (vinMv heldNs : Nat) : Wf.Statement (.supplyMonitorTrip vinMv heldNs) :=
  fun _ => ⟨List.forall_mem_nil _, List.forall_mem_nil _⟩
theorem Wf.wrst (heldNs : Nat) : Wf.Statement (.wrst heldNs) := fun _ => ⟨List.forall_mem_nil _, List.forall_mem_nil _⟩
theorem Wf.warm (c : Cmd) : Wf.Statement (.warm c) := fun _ => ⟨List.forall_mem_nil _, List.forall_mem_nil _⟩
theorem Wf.job (c : Cmd) : Wf.Statement (.job c) := fun _ => ⟨List.forall_mem_nil _, List.forall_mem_nil _⟩
theorem Wf.firmwareLoad (c : Cmd) (imageLen : W32) : Wf.Statement (.firmwareLoad c imageLen) :=
  fun _ => ⟨List.forall_mem_nil _, List.forall_mem_nil _⟩
theorem Wf.firmwareProgramDone (readsBack : Bool) : Wf.Statement (.firmwareProgramDone readsBack) :=
  fun _ => ⟨List.forall_mem_nil _, List.forall_mem_nil _⟩
theorem Wf.hoursTick : Wf.Statement .hoursTick := fun _ => ⟨List.forall_mem_nil _, List.forall_mem_nil _⟩
theorem Wf.entdaa (address : BitVec 7) : Wf.Statement (.entdaa address) :=
  fun _ => ⟨List.forall_mem_nil _, List.forall_mem_nil _⟩
theorem Wf.i3cPrivateWrite (bytes : List Byte) : Wf.Statement (.i3cPrivateWrite bytes) :=
  fun _ => ⟨List.forall_mem_nil _, List.forall_mem_nil _⟩
theorem Wf.i3cPrivateRead (len : Nat) : Wf.Statement (.i3cPrivateRead len) :=
  fun _ => ⟨List.forall_mem_nil _, List.forall_mem_nil _⟩
theorem Wf.i3cTimeout : Wf.Statement .i3cTimeout := fun _ => ⟨List.forall_mem_nil _, List.forall_mem_nil _⟩
theorem Wf.tapInstruction (op : TapOp) : Wf.Statement (.tapInstruction op) :=
  fun _ => ⟨List.forall_mem_nil _, List.forall_mem_nil _⟩
theorem Wf.integratedVoltageRegulatorFault (bench : Nat) : Wf.Statement (.integratedVoltageRegulatorFault bench) :=
  fun h => ⟨Wf.below1 h, List.forall_mem_nil _⟩
theorem Wf.logClearTimeout : Wf.Statement .logClearTimeout := fun _ => ⟨List.forall_mem_nil _, List.forall_mem_nil _⟩

end Sys2Proof.Laws
end

