-- ==== Sys2Proof/Laws/State.lean ====
section
/-! SUPPORT. State: each update of it, field by field. -/

namespace Sys2Proof.Machine

/-! ### send -/

@[simp] theorem send_life (dst : Node) (txn : W16) (t : Ticket) (m : Msg) (s : State) : (send dst txn t m s).life = s.life := rfl
@[simp] theorem send_now (dst : Node) (txn : W16) (t : Ticket) (m : Msg) (s : State) : (send dst txn t m s).now = s.now := rfl
@[simp] theorem send_free (dst : Node) (txn : W16) (t : Ticket) (m : Msg) (s : State) : (send dst txn t m s).free = s.free := rfl
@[simp] theorem send_pending (dst : Node) (txn : W16) (t : Ticket) (m : Msg) (s : State) : (send dst txn t m s).pending = s.pending := rfl
@[simp] theorem send_out (dst : Node) (txn : W16) (t : Ticket) (m : Msg) (s : State) :
    (send dst txn t m s).out = s.out ++ [(s.now, ⟨dst, myNode s, txn, t, m⟩)] := rfl
@[simp] theorem send_cfg (dst : Node) (txn : W16) (t : Ticket) (m : Msg) (s : State) : (send dst txn t m s).cfg = s.cfg := rfl
@[simp] theorem send_sec (dst : Node) (txn : W16) (t : Ticket) (m : Msg) (s : State) : (send dst txn t m s).sec = s.sec := rfl
@[simp] theorem send_wb (dst : Node) (txn : W16) (t : Ticket) (m : Msg) (s : State) : (send dst txn t m s).wb = s.wb := rfl
@[simp] theorem send_job (dst : Node) (txn : W16) (t : Ticket) (m : Msg) (s : State) : (send dst txn t m s).job = s.job := rfl
@[simp] theorem send_dlm (dst : Node) (txn : W16) (t : Ticket) (m : Msg) (s : State) : (send dst txn t m s).dlm = s.dlm := rfl
@[simp] theorem send_flt (dst : Node) (txn : W16) (t : Ticket) (m : Msg) (s : State) : (send dst txn t m s).flt = s.flt := rfl
@[simp] theorem send_log (dst : Node) (txn : W16) (t : Ticket) (m : Msg) (s : State) : (send dst txn t m s).log = s.log := rfl
@[simp] theorem send_clk (dst : Node) (txn : W16) (t : Ticket) (m : Msg) (s : State) : (send dst txn t m s).clk = s.clk := rfl
@[simp] theorem send_pwr (dst : Node) (txn : W16) (t : Ticket) (m : Msg) (s : State) : (send dst txn t m s).pwr = s.pwr := rfl
@[simp] theorem send_rst (dst : Node) (txn : W16) (t : Ticket) (m : Msg) (s : State) : (send dst txn t m s).rst = s.rst := rfl
@[simp] theorem send_dom (dst : Node) (txn : W16) (t : Ticket) (m : Msg) (s : State) : (send dst txn t m s).dom = s.dom := rfl
@[simp] theorem send_lnk (dst : Node) (txn : W16) (t : Ticket) (m : Msg) (s : State) : (send dst txn t m s).lnk = s.lnk := rfl
@[simp] theorem send_mgmt (dst : Node) (txn : W16) (t : Ticket) (m : Msg) (s : State) : (send dst txn t m s).mgmt = s.mgmt := rfl
@[simp] theorem send_mem (dst : Node) (txn : W16) (t : Ticket) (m : Msg) (s : State) : (send dst txn t m s).mem = s.mem := rfl
@[simp] theorem send_haul (dst : Node) (txn : W16) (t : Ticket) (m : Msg) (s : State) : (send dst txn t m s).haul = s.haul := rfl
@[simp] theorem send_stk (dst : Node) (txn : W16) (t : Ticket) (m : Msg) (s : State) : (send dst txn t m s).stk = s.stk := rfl
@[simp] theorem send_srch (dst : Node) (txn : W16) (t : Ticket) (m : Msg) (s : State) : (send dst txn t m s).srch = s.srch := rfl
@[simp] theorem send_gth (dst : Node) (txn : W16) (t : Ticket) (m : Msg) (s : State) : (send dst txn t m s).gth = s.gth := rfl
@[simp] theorem send_scr (dst : Node) (txn : W16) (t : Ticket) (m : Msg) (s : State) : (send dst txn t m s).scr = s.scr := rfl
@[simp] theorem send_txt (dst : Node) (txn : W16) (t : Ticket) (m : Msg) (s : State) : (send dst txn t m s).txt = s.txt := rfl
@[simp] theorem send_rrk (dst : Node) (txn : W16) (t : Ticket) (m : Msg) (s : State) : (send dst txn t m s).rrk = s.rrk := rfl
@[simp] theorem send_dec (dst : Node) (txn : W16) (t : Ticket) (m : Msg) (s : State) : (send dst txn t m s).dec = s.dec := rfl
@[simp] theorem send_lands (dst : Node) (txn : W16) (t : Ticket) (m : Msg) (s : State) : (send dst txn t m s).lands = s.lands := rfl

/-! ### setReq -/

@[simp] theorem setReq_life (r : Req) (s : State) : (setReq r s).life = s.life := rfl
@[simp] theorem setReq_now (r : Req) (s : State) : (setReq r s).now = s.now := rfl
@[simp] theorem setReq_free (r : Req) (s : State) : (setReq r s).free = s.free := rfl
@[simp] theorem setReq_pending (r : Req) (s : State) : (setReq r s).pending = s.pending := rfl
@[simp] theorem setReq_out (r : Req) (s : State) : (setReq r s).out = s.out := rfl
@[simp] theorem setReq_cfg (r : Req) (s : State) : (setReq r s).cfg = s.cfg := rfl
@[simp] theorem setReq_sec (r : Req) (s : State) : (setReq r s).sec = s.sec := rfl
@[simp] theorem setReq_wb (r : Req) (s : State) : (setReq r s).wb = s.wb := rfl
@[simp] theorem setReq_job (r : Req) (s : State) :
    (setReq r s).job = { s.job with reqs := s.job.reqs.map fun q => if q.ticket = r.ticket then r else q } := rfl
@[simp] theorem setReq_dlm (r : Req) (s : State) : (setReq r s).dlm = s.dlm := rfl
@[simp] theorem setReq_flt (r : Req) (s : State) : (setReq r s).flt = s.flt := rfl
@[simp] theorem setReq_log (r : Req) (s : State) : (setReq r s).log = s.log := rfl
@[simp] theorem setReq_clk (r : Req) (s : State) : (setReq r s).clk = s.clk := rfl
@[simp] theorem setReq_pwr (r : Req) (s : State) : (setReq r s).pwr = s.pwr := rfl
@[simp] theorem setReq_rst (r : Req) (s : State) : (setReq r s).rst = s.rst := rfl
@[simp] theorem setReq_dom (r : Req) (s : State) : (setReq r s).dom = s.dom := rfl
@[simp] theorem setReq_lnk (r : Req) (s : State) : (setReq r s).lnk = s.lnk := rfl
@[simp] theorem setReq_mgmt (r : Req) (s : State) : (setReq r s).mgmt = s.mgmt := rfl
@[simp] theorem setReq_mem (r : Req) (s : State) : (setReq r s).mem = s.mem := rfl
@[simp] theorem setReq_haul (r : Req) (s : State) : (setReq r s).haul = s.haul := rfl
@[simp] theorem setReq_stk (r : Req) (s : State) : (setReq r s).stk = s.stk := rfl
@[simp] theorem setReq_srch (r : Req) (s : State) : (setReq r s).srch = s.srch := rfl
@[simp] theorem setReq_gth (r : Req) (s : State) : (setReq r s).gth = s.gth := rfl
@[simp] theorem setReq_scr (r : Req) (s : State) : (setReq r s).scr = s.scr := rfl
@[simp] theorem setReq_txt (r : Req) (s : State) : (setReq r s).txt = s.txt := rfl
@[simp] theorem setReq_rrk (r : Req) (s : State) : (setReq r s).rrk = s.rrk := rfl
@[simp] theorem setReq_dec (r : Req) (s : State) : (setReq r s).dec = s.dec := rfl
@[simp] theorem setReq_lands (r : Req) (s : State) : (setReq r s).lands = s.lands := rfl

/-! ### dropReq -/

@[simp] theorem dropReq_life (t : Ticket) (s : State) : (dropReq t s).life = s.life := rfl
@[simp] theorem dropReq_now (t : Ticket) (s : State) : (dropReq t s).now = s.now := rfl
@[simp] theorem dropReq_free (t : Ticket) (s : State) : (dropReq t s).free = s.free := rfl
@[simp] theorem dropReq_pending (t : Ticket) (s : State) : (dropReq t s).pending = s.pending := rfl
@[simp] theorem dropReq_out (t : Ticket) (s : State) : (dropReq t s).out = s.out := rfl
@[simp] theorem dropReq_cfg (t : Ticket) (s : State) : (dropReq t s).cfg = s.cfg := rfl
@[simp] theorem dropReq_sec (t : Ticket) (s : State) : (dropReq t s).sec = s.sec := rfl
@[simp] theorem dropReq_wb (t : Ticket) (s : State) : (dropReq t s).wb = s.wb := rfl
@[simp] theorem dropReq_job (t : Ticket) (s : State) :
    (dropReq t s).job = { s.job with reqs := s.job.reqs.filter (·.ticket != t) } := rfl
@[simp] theorem dropReq_dlm (t : Ticket) (s : State) : (dropReq t s).dlm = s.dlm := rfl
@[simp] theorem dropReq_flt (t : Ticket) (s : State) : (dropReq t s).flt = s.flt := rfl
@[simp] theorem dropReq_log (t : Ticket) (s : State) : (dropReq t s).log = s.log := rfl
@[simp] theorem dropReq_clk (t : Ticket) (s : State) : (dropReq t s).clk = s.clk := rfl
@[simp] theorem dropReq_pwr (t : Ticket) (s : State) : (dropReq t s).pwr = s.pwr := rfl
@[simp] theorem dropReq_rst (t : Ticket) (s : State) : (dropReq t s).rst = s.rst := rfl
@[simp] theorem dropReq_dom (t : Ticket) (s : State) : (dropReq t s).dom = s.dom := rfl
@[simp] theorem dropReq_lnk (t : Ticket) (s : State) : (dropReq t s).lnk = s.lnk := rfl
@[simp] theorem dropReq_mgmt (t : Ticket) (s : State) : (dropReq t s).mgmt = s.mgmt := rfl
@[simp] theorem dropReq_mem (t : Ticket) (s : State) : (dropReq t s).mem = s.mem := rfl
@[simp] theorem dropReq_haul (t : Ticket) (s : State) : (dropReq t s).haul = s.haul := rfl
@[simp] theorem dropReq_stk (t : Ticket) (s : State) : (dropReq t s).stk = s.stk := rfl
@[simp] theorem dropReq_srch (t : Ticket) (s : State) : (dropReq t s).srch = s.srch := rfl
@[simp] theorem dropReq_gth (t : Ticket) (s : State) : (dropReq t s).gth = s.gth := rfl
@[simp] theorem dropReq_scr (t : Ticket) (s : State) : (dropReq t s).scr = s.scr := rfl
@[simp] theorem dropReq_txt (t : Ticket) (s : State) : (dropReq t s).txt = s.txt := rfl
@[simp] theorem dropReq_rrk (t : Ticket) (s : State) : (dropReq t s).rrk = s.rrk := rfl
@[simp] theorem dropReq_dec (t : Ticket) (s : State) : (dropReq t s).dec = s.dec := rfl
@[simp] theorem dropReq_lands (t : Ticket) (s : State) : (dropReq t s).lands = s.lands := rfl

/-! ### setColl -/

@[simp] theorem setColl_life (c : Coll) (s : State) : (setColl c s).life = s.life := rfl
@[simp] theorem setColl_now (c : Coll) (s : State) : (setColl c s).now = s.now := rfl
@[simp] theorem setColl_free (c : Coll) (s : State) : (setColl c s).free = s.free := rfl
@[simp] theorem setColl_pending (c : Coll) (s : State) : (setColl c s).pending = s.pending := rfl
@[simp] theorem setColl_out (c : Coll) (s : State) : (setColl c s).out = s.out := rfl
@[simp] theorem setColl_cfg (c : Coll) (s : State) : (setColl c s).cfg = s.cfg := rfl
@[simp] theorem setColl_sec (c : Coll) (s : State) : (setColl c s).sec = s.sec := rfl
@[simp] theorem setColl_wb (c : Coll) (s : State) : (setColl c s).wb = s.wb := rfl
@[simp] theorem setColl_job (c : Coll) (s : State) : (setColl c s).job = s.job := rfl
@[simp] theorem setColl_dlm (c : Coll) (s : State) : (setColl c s).dlm = s.dlm := rfl
@[simp] theorem setColl_flt (c : Coll) (s : State) : (setColl c s).flt = s.flt := rfl
@[simp] theorem setColl_log (c : Coll) (s : State) : (setColl c s).log = s.log := rfl
@[simp] theorem setColl_clk (c : Coll) (s : State) : (setColl c s).clk = s.clk := rfl
@[simp] theorem setColl_pwr (c : Coll) (s : State) : (setColl c s).pwr = s.pwr := rfl
@[simp] theorem setColl_rst (c : Coll) (s : State) : (setColl c s).rst = s.rst := rfl
@[simp] theorem setColl_dom (c : Coll) (s : State) : (setColl c s).dom = s.dom := rfl
@[simp] theorem setColl_lnk (c : Coll) (s : State) : (setColl c s).lnk = s.lnk := rfl
@[simp] theorem setColl_mgmt (c : Coll) (s : State) : (setColl c s).mgmt = s.mgmt := rfl
@[simp] theorem setColl_mem (c : Coll) (s : State) : (setColl c s).mem = s.mem := rfl
@[simp] theorem setColl_haul (c : Coll) (s : State) : (setColl c s).haul = s.haul := rfl
@[simp] theorem setColl_stk (c : Coll) (s : State) : (setColl c s).stk = s.stk := rfl
@[simp] theorem setColl_srch (c : Coll) (s : State) :
    (setColl c s).srch = { s.srch with colls := s.srch.colls.map fun d => if d.id = c.id then c else d } := rfl
@[simp] theorem setColl_gth (c : Coll) (s : State) : (setColl c s).gth = s.gth := rfl
@[simp] theorem setColl_scr (c : Coll) (s : State) : (setColl c s).scr = s.scr := rfl
@[simp] theorem setColl_txt (c : Coll) (s : State) : (setColl c s).txt = s.txt := rfl
@[simp] theorem setColl_rrk (c : Coll) (s : State) : (setColl c s).rrk = s.rrk := rfl
@[simp] theorem setColl_dec (c : Coll) (s : State) : (setColl c s).dec = s.dec := rfl
@[simp] theorem setColl_lands (c : Coll) (s : State) : (setColl c s).lands = s.lands := rfl

/-! ### setTable -/

@[simp] theorem setTable_life (t : Table) (s : State) : (setTable t s).life = s.life := rfl
@[simp] theorem setTable_now (t : Table) (s : State) : (setTable t s).now = s.now := rfl
@[simp] theorem setTable_free (t : Table) (s : State) : (setTable t s).free = s.free := rfl
@[simp] theorem setTable_pending (t : Table) (s : State) : (setTable t s).pending = s.pending := rfl
@[simp] theorem setTable_out (t : Table) (s : State) : (setTable t s).out = s.out := rfl
@[simp] theorem setTable_cfg (t : Table) (s : State) : (setTable t s).cfg = s.cfg := rfl
@[simp] theorem setTable_sec (t : Table) (s : State) : (setTable t s).sec = s.sec := rfl
@[simp] theorem setTable_wb (t : Table) (s : State) : (setTable t s).wb = s.wb := rfl
@[simp] theorem setTable_job (t : Table) (s : State) : (setTable t s).job = s.job := rfl
@[simp] theorem setTable_dlm (t : Table) (s : State) : (setTable t s).dlm = s.dlm := rfl
@[simp] theorem setTable_flt (t : Table) (s : State) : (setTable t s).flt = s.flt := rfl
@[simp] theorem setTable_log (t : Table) (s : State) : (setTable t s).log = s.log := rfl
@[simp] theorem setTable_clk (t : Table) (s : State) : (setTable t s).clk = s.clk := rfl
@[simp] theorem setTable_pwr (t : Table) (s : State) : (setTable t s).pwr = s.pwr := rfl
@[simp] theorem setTable_rst (t : Table) (s : State) : (setTable t s).rst = s.rst := rfl
@[simp] theorem setTable_dom (t : Table) (s : State) : (setTable t s).dom = s.dom := rfl
@[simp] theorem setTable_lnk (t : Table) (s : State) : (setTable t s).lnk = s.lnk := rfl
@[simp] theorem setTable_mgmt (t : Table) (s : State) : (setTable t s).mgmt = s.mgmt := rfl
@[simp] theorem setTable_mem (t : Table) (s : State) : (setTable t s).mem = s.mem := rfl
@[simp] theorem setTable_haul (t : Table) (s : State) : (setTable t s).haul = s.haul := rfl
@[simp] theorem setTable_stk (t : Table) (s : State) : (setTable t s).stk = s.stk := rfl
@[simp] theorem setTable_srch (t : Table) (s : State) : (setTable t s).srch = s.srch := rfl
@[simp] theorem setTable_gth (t : Table) (s : State) :
    (setTable t s).gth = { s.gth with tables := s.gth.tables.map fun d => if d.spec.table = t.spec.table then t else d } := rfl
@[simp] theorem setTable_scr (t : Table) (s : State) : (setTable t s).scr = s.scr := rfl
@[simp] theorem setTable_txt (t : Table) (s : State) : (setTable t s).txt = s.txt := rfl
@[simp] theorem setTable_rrk (t : Table) (s : State) : (setTable t s).rrk = s.rrk := rfl
@[simp] theorem setTable_dec (t : Table) (s : State) : (setTable t s).dec = s.dec := rfl
@[simp] theorem setTable_lands (t : Table) (s : State) : (setTable t s).lands = s.lands := rfl

/-! ### setSub -/

@[simp] theorem setSub_life (i : Nat) (p : SubPort) (s : State) : (setSub i p s).life = s.life := rfl
@[simp] theorem setSub_now (i : Nat) (p : SubPort) (s : State) : (setSub i p s).now = s.now := rfl
@[simp] theorem setSub_free (i : Nat) (p : SubPort) (s : State) : (setSub i p s).free = s.free := rfl
@[simp] theorem setSub_pending (i : Nat) (p : SubPort) (s : State) : (setSub i p s).pending = s.pending := rfl
@[simp] theorem setSub_out (i : Nat) (p : SubPort) (s : State) : (setSub i p s).out = s.out := rfl
@[simp] theorem setSub_cfg (i : Nat) (p : SubPort) (s : State) : (setSub i p s).cfg = s.cfg := rfl
@[simp] theorem setSub_sec (i : Nat) (p : SubPort) (s : State) : (setSub i p s).sec = s.sec := rfl
@[simp] theorem setSub_wb (i : Nat) (p : SubPort) (s : State) : (setSub i p s).wb = s.wb := rfl
@[simp] theorem setSub_job (i : Nat) (p : SubPort) (s : State) : (setSub i p s).job = s.job := rfl
@[simp] theorem setSub_dlm (i : Nat) (p : SubPort) (s : State) : (setSub i p s).dlm = s.dlm := rfl
@[simp] theorem setSub_flt (i : Nat) (p : SubPort) (s : State) : (setSub i p s).flt = s.flt := rfl
@[simp] theorem setSub_log (i : Nat) (p : SubPort) (s : State) : (setSub i p s).log = s.log := rfl
@[simp] theorem setSub_clk (i : Nat) (p : SubPort) (s : State) : (setSub i p s).clk = s.clk := rfl
@[simp] theorem setSub_pwr (i : Nat) (p : SubPort) (s : State) : (setSub i p s).pwr = s.pwr := rfl
@[simp] theorem setSub_rst (i : Nat) (p : SubPort) (s : State) : (setSub i p s).rst = s.rst := rfl
@[simp] theorem setSub_dom (i : Nat) (p : SubPort) (s : State) : (setSub i p s).dom = s.dom := rfl
@[simp] theorem setSub_mgmt (i : Nat) (p : SubPort) (s : State) : (setSub i p s).mgmt = s.mgmt := rfl
@[simp] theorem setSub_mem (i : Nat) (p : SubPort) (s : State) : (setSub i p s).mem = s.mem := rfl
@[simp] theorem setSub_haul (i : Nat) (p : SubPort) (s : State) : (setSub i p s).haul = s.haul := rfl
@[simp] theorem setSub_stk (i : Nat) (p : SubPort) (s : State) : (setSub i p s).stk = s.stk := rfl
@[simp] theorem setSub_srch (i : Nat) (p : SubPort) (s : State) : (setSub i p s).srch = s.srch := rfl
@[simp] theorem setSub_gth (i : Nat) (p : SubPort) (s : State) : (setSub i p s).gth = s.gth := rfl
@[simp] theorem setSub_scr (i : Nat) (p : SubPort) (s : State) : (setSub i p s).scr = s.scr := rfl
@[simp] theorem setSub_txt (i : Nat) (p : SubPort) (s : State) : (setSub i p s).txt = s.txt := rfl
@[simp] theorem setSub_rrk (i : Nat) (p : SubPort) (s : State) : (setSub i p s).rrk = s.rrk := rfl
@[simp] theorem setSub_dec (i : Nat) (p : SubPort) (s : State) : (setSub i p s).dec = s.dec := rfl
@[simp] theorem setSub_lands (i : Nat) (p : SubPort) (s : State) : (setSub i p s).lands = s.lands := rfl

/-! ### setCtrl -/

@[simp] theorem setCtrl_life (i : Nat) (c : Ctrl) (s : State) : (setCtrl i c s).life = s.life := rfl
@[simp] theorem setCtrl_now (i : Nat) (c : Ctrl) (s : State) : (setCtrl i c s).now = s.now := rfl
@[simp] theorem setCtrl_free (i : Nat) (c : Ctrl) (s : State) : (setCtrl i c s).free = s.free := rfl
@[simp] theorem setCtrl_pending (i : Nat) (c : Ctrl) (s : State) : (setCtrl i c s).pending = s.pending := rfl
@[simp] theorem setCtrl_out (i : Nat) (c : Ctrl) (s : State) : (setCtrl i c s).out = s.out := rfl
@[simp] theorem setCtrl_cfg (i : Nat) (c : Ctrl) (s : State) : (setCtrl i c s).cfg = s.cfg := rfl
@[simp] theorem setCtrl_sec (i : Nat) (c : Ctrl) (s : State) : (setCtrl i c s).sec = s.sec := rfl
@[simp] theorem setCtrl_wb (i : Nat) (c : Ctrl) (s : State) : (setCtrl i c s).wb = s.wb := rfl
@[simp] theorem setCtrl_job (i : Nat) (c : Ctrl) (s : State) : (setCtrl i c s).job = s.job := rfl
@[simp] theorem setCtrl_dlm (i : Nat) (c : Ctrl) (s : State) : (setCtrl i c s).dlm = s.dlm := rfl
@[simp] theorem setCtrl_flt (i : Nat) (c : Ctrl) (s : State) : (setCtrl i c s).flt = s.flt := rfl
@[simp] theorem setCtrl_log (i : Nat) (c : Ctrl) (s : State) : (setCtrl i c s).log = s.log := rfl
@[simp] theorem setCtrl_clk (i : Nat) (c : Ctrl) (s : State) : (setCtrl i c s).clk = s.clk := rfl
@[simp] theorem setCtrl_pwr (i : Nat) (c : Ctrl) (s : State) : (setCtrl i c s).pwr = s.pwr := rfl
@[simp] theorem setCtrl_rst (i : Nat) (c : Ctrl) (s : State) : (setCtrl i c s).rst = s.rst := rfl
@[simp] theorem setCtrl_dom (i : Nat) (c : Ctrl) (s : State) : (setCtrl i c s).dom = s.dom := rfl
@[simp] theorem setCtrl_lnk (i : Nat) (c : Ctrl) (s : State) : (setCtrl i c s).lnk = s.lnk := rfl
@[simp] theorem setCtrl_mgmt (i : Nat) (c : Ctrl) (s : State) : (setCtrl i c s).mgmt = s.mgmt := rfl
@[simp] theorem setCtrl_mem (i : Nat) (c : Ctrl) (s : State) : (setCtrl i c s).mem = s.mem := rfl
@[simp] theorem setCtrl_haul (i : Nat) (c : Ctrl) (s : State) : (setCtrl i c s).haul = s.haul := rfl
@[simp] theorem setCtrl_srch (i : Nat) (c : Ctrl) (s : State) : (setCtrl i c s).srch = s.srch := rfl
@[simp] theorem setCtrl_gth (i : Nat) (c : Ctrl) (s : State) : (setCtrl i c s).gth = s.gth := rfl
@[simp] theorem setCtrl_scr (i : Nat) (c : Ctrl) (s : State) : (setCtrl i c s).scr = s.scr := rfl
@[simp] theorem setCtrl_txt (i : Nat) (c : Ctrl) (s : State) : (setCtrl i c s).txt = s.txt := rfl
@[simp] theorem setCtrl_rrk (i : Nat) (c : Ctrl) (s : State) : (setCtrl i c s).rrk = s.rrk := rfl
@[simp] theorem setCtrl_dec (i : Nat) (c : Ctrl) (s : State) : (setCtrl i c s).dec = s.dec := rfl
@[simp] theorem setCtrl_lands (i : Nat) (c : Ctrl) (s : State) : (setCtrl i c s).lands = s.lands := rfl

/-! ### setHaulMove -/

@[simp] theorem setHaulMove_life (m : Move) (s : State) : (setHaulMove m s).life = s.life := rfl
@[simp] theorem setHaulMove_now (m : Move) (s : State) : (setHaulMove m s).now = s.now := rfl
@[simp] theorem setHaulMove_free (m : Move) (s : State) : (setHaulMove m s).free = s.free := rfl
@[simp] theorem setHaulMove_pending (m : Move) (s : State) : (setHaulMove m s).pending = s.pending := rfl
@[simp] theorem setHaulMove_out (m : Move) (s : State) : (setHaulMove m s).out = s.out := rfl
@[simp] theorem setHaulMove_cfg (m : Move) (s : State) : (setHaulMove m s).cfg = s.cfg := rfl
@[simp] theorem setHaulMove_sec (m : Move) (s : State) : (setHaulMove m s).sec = s.sec := rfl
@[simp] theorem setHaulMove_wb (m : Move) (s : State) : (setHaulMove m s).wb = s.wb := rfl
@[simp] theorem setHaulMove_job (m : Move) (s : State) : (setHaulMove m s).job = s.job := rfl
@[simp] theorem setHaulMove_dlm (m : Move) (s : State) : (setHaulMove m s).dlm = s.dlm := rfl
@[simp] theorem setHaulMove_flt (m : Move) (s : State) : (setHaulMove m s).flt = s.flt := rfl
@[simp] theorem setHaulMove_log (m : Move) (s : State) : (setHaulMove m s).log = s.log := rfl
@[simp] theorem setHaulMove_clk (m : Move) (s : State) : (setHaulMove m s).clk = s.clk := rfl
@[simp] theorem setHaulMove_pwr (m : Move) (s : State) : (setHaulMove m s).pwr = s.pwr := rfl
@[simp] theorem setHaulMove_rst (m : Move) (s : State) : (setHaulMove m s).rst = s.rst := rfl
@[simp] theorem setHaulMove_dom (m : Move) (s : State) : (setHaulMove m s).dom = s.dom := rfl
@[simp] theorem setHaulMove_lnk (m : Move) (s : State) : (setHaulMove m s).lnk = s.lnk := rfl
@[simp] theorem setHaulMove_mgmt (m : Move) (s : State) : (setHaulMove m s).mgmt = s.mgmt := rfl
@[simp] theorem setHaulMove_mem (m : Move) (s : State) : (setHaulMove m s).mem = s.mem := rfl
@[simp] theorem setHaulMove_stk (m : Move) (s : State) : (setHaulMove m s).stk = s.stk := rfl
@[simp] theorem setHaulMove_srch (m : Move) (s : State) : (setHaulMove m s).srch = s.srch := rfl
@[simp] theorem setHaulMove_gth (m : Move) (s : State) : (setHaulMove m s).gth = s.gth := rfl
@[simp] theorem setHaulMove_scr (m : Move) (s : State) : (setHaulMove m s).scr = s.scr := rfl
@[simp] theorem setHaulMove_txt (m : Move) (s : State) : (setHaulMove m s).txt = s.txt := rfl
@[simp] theorem setHaulMove_rrk (m : Move) (s : State) : (setHaulMove m s).rrk = s.rrk := rfl
@[simp] theorem setHaulMove_dec (m : Move) (s : State) : (setHaulMove m s).dec = s.dec := rfl
@[simp] theorem setHaulMove_lands (m : Move) (s : State) : (setHaulMove m s).lands = s.lands := rfl

/-! ### bankSet -/

@[simp] theorem bankSet_life (reg : Nat) (src : Node) (v : W64) (s : State) : (bankSet reg src v s).life = s.life := rfl
@[simp] theorem bankSet_now (reg : Nat) (src : Node) (v : W64) (s : State) : (bankSet reg src v s).now = s.now := rfl
@[simp] theorem bankSet_free (reg : Nat) (src : Node) (v : W64) (s : State) : (bankSet reg src v s).free = s.free := rfl
@[simp] theorem bankSet_pending (reg : Nat) (src : Node) (v : W64) (s : State) : (bankSet reg src v s).pending = s.pending := rfl
@[simp] theorem bankSet_out (reg : Nat) (src : Node) (v : W64) (s : State) : (bankSet reg src v s).out = s.out := rfl
@[simp] theorem bankSet_cfg (reg : Nat) (src : Node) (v : W64) (s : State) : (bankSet reg src v s).cfg = s.cfg := rfl
@[simp] theorem bankSet_sec (reg : Nat) (src : Node) (v : W64) (s : State) : (bankSet reg src v s).sec = s.sec := rfl
@[simp] theorem bankSet_wb (reg : Nat) (src : Node) (v : W64) (s : State) : (bankSet reg src v s).wb = s.wb := rfl
@[simp] theorem bankSet_job (reg : Nat) (src : Node) (v : W64) (s : State) : (bankSet reg src v s).job = s.job := rfl
@[simp] theorem bankSet_dlm (reg : Nat) (src : Node) (v : W64) (s : State) : (bankSet reg src v s).dlm = s.dlm := rfl
@[simp] theorem bankSet_flt (reg : Nat) (src : Node) (v : W64) (s : State) : (bankSet reg src v s).flt = s.flt := rfl
@[simp] theorem bankSet_log (reg : Nat) (src : Node) (v : W64) (s : State) : (bankSet reg src v s).log = s.log := rfl
@[simp] theorem bankSet_clk (reg : Nat) (src : Node) (v : W64) (s : State) : (bankSet reg src v s).clk = s.clk := rfl
@[simp] theorem bankSet_pwr (reg : Nat) (src : Node) (v : W64) (s : State) : (bankSet reg src v s).pwr = s.pwr := rfl
@[simp] theorem bankSet_rst (reg : Nat) (src : Node) (v : W64) (s : State) : (bankSet reg src v s).rst = s.rst := rfl
@[simp] theorem bankSet_dom (reg : Nat) (src : Node) (v : W64) (s : State) : (bankSet reg src v s).dom = s.dom := rfl
@[simp] theorem bankSet_lnk (reg : Nat) (src : Node) (v : W64) (s : State) : (bankSet reg src v s).lnk = s.lnk := rfl
@[simp] theorem bankSet_mem (reg : Nat) (src : Node) (v : W64) (s : State) : (bankSet reg src v s).mem = s.mem := rfl
@[simp] theorem bankSet_haul (reg : Nat) (src : Node) (v : W64) (s : State) : (bankSet reg src v s).haul = s.haul := rfl
@[simp] theorem bankSet_stk (reg : Nat) (src : Node) (v : W64) (s : State) : (bankSet reg src v s).stk = s.stk := rfl
@[simp] theorem bankSet_srch (reg : Nat) (src : Node) (v : W64) (s : State) : (bankSet reg src v s).srch = s.srch := rfl
@[simp] theorem bankSet_gth (reg : Nat) (src : Node) (v : W64) (s : State) : (bankSet reg src v s).gth = s.gth := rfl
@[simp] theorem bankSet_scr (reg : Nat) (src : Node) (v : W64) (s : State) : (bankSet reg src v s).scr = s.scr := rfl
@[simp] theorem bankSet_txt (reg : Nat) (src : Node) (v : W64) (s : State) : (bankSet reg src v s).txt = s.txt := rfl
@[simp] theorem bankSet_rrk (reg : Nat) (src : Node) (v : W64) (s : State) : (bankSet reg src v s).rrk = s.rrk := rfl
@[simp] theorem bankSet_dec (reg : Nat) (src : Node) (v : W64) (s : State) : (bankSet reg src v s).dec = s.dec := rfl
@[simp] theorem bankSet_lands (reg : Nat) (src : Node) (v : W64) (s : State) : (bankSet reg src v s).lands = s.lands := rfl

/-! ### answerMgmt -/

@[simp] theorem answerMgmt_life (c : Cmd) (m : Msg) (s : State) : (answerMgmt c m s).life = s.life := rfl
@[simp] theorem answerMgmt_now (c : Cmd) (m : Msg) (s : State) : (answerMgmt c m s).now = s.now := rfl
@[simp] theorem answerMgmt_free (c : Cmd) (m : Msg) (s : State) : (answerMgmt c m s).free = s.free := rfl
@[simp] theorem answerMgmt_pending (c : Cmd) (m : Msg) (s : State) : (answerMgmt c m s).pending = s.pending := rfl
@[simp] theorem answerMgmt_out (c : Cmd) (m : Msg) (s : State) :
    (answerMgmt c m s).out = s.out ++ [(s.now, ⟨c.src, myNode s, c.txn, 0, m⟩)] := rfl
@[simp] theorem answerMgmt_cfg (c : Cmd) (m : Msg) (s : State) : (answerMgmt c m s).cfg = s.cfg := rfl
@[simp] theorem answerMgmt_sec (c : Cmd) (m : Msg) (s : State) : (answerMgmt c m s).sec = s.sec := rfl
@[simp] theorem answerMgmt_wb (c : Cmd) (m : Msg) (s : State) : (answerMgmt c m s).wb = s.wb := rfl
@[simp] theorem answerMgmt_job (c : Cmd) (m : Msg) (s : State) : (answerMgmt c m s).job = s.job := rfl
@[simp] theorem answerMgmt_dlm (c : Cmd) (m : Msg) (s : State) : (answerMgmt c m s).dlm = s.dlm := rfl
@[simp] theorem answerMgmt_flt (c : Cmd) (m : Msg) (s : State) : (answerMgmt c m s).flt = s.flt := rfl
@[simp] theorem answerMgmt_log (c : Cmd) (m : Msg) (s : State) : (answerMgmt c m s).log = s.log := rfl
@[simp] theorem answerMgmt_clk (c : Cmd) (m : Msg) (s : State) : (answerMgmt c m s).clk = s.clk := rfl
@[simp] theorem answerMgmt_pwr (c : Cmd) (m : Msg) (s : State) : (answerMgmt c m s).pwr = s.pwr := rfl
@[simp] theorem answerMgmt_rst (c : Cmd) (m : Msg) (s : State) : (answerMgmt c m s).rst = s.rst := rfl
@[simp] theorem answerMgmt_dom (c : Cmd) (m : Msg) (s : State) : (answerMgmt c m s).dom = s.dom := rfl
@[simp] theorem answerMgmt_lnk (c : Cmd) (m : Msg) (s : State) : (answerMgmt c m s).lnk = s.lnk := rfl
@[simp] theorem answerMgmt_mem (c : Cmd) (m : Msg) (s : State) : (answerMgmt c m s).mem = s.mem := rfl
@[simp] theorem answerMgmt_haul (c : Cmd) (m : Msg) (s : State) : (answerMgmt c m s).haul = s.haul := rfl
@[simp] theorem answerMgmt_stk (c : Cmd) (m : Msg) (s : State) : (answerMgmt c m s).stk = s.stk := rfl
@[simp] theorem answerMgmt_srch (c : Cmd) (m : Msg) (s : State) : (answerMgmt c m s).srch = s.srch := rfl
@[simp] theorem answerMgmt_gth (c : Cmd) (m : Msg) (s : State) : (answerMgmt c m s).gth = s.gth := rfl
@[simp] theorem answerMgmt_scr (c : Cmd) (m : Msg) (s : State) : (answerMgmt c m s).scr = s.scr := rfl
@[simp] theorem answerMgmt_txt (c : Cmd) (m : Msg) (s : State) : (answerMgmt c m s).txt = s.txt := rfl
@[simp] theorem answerMgmt_rrk (c : Cmd) (m : Msg) (s : State) : (answerMgmt c m s).rrk = s.rrk := rfl
@[simp] theorem answerMgmt_dec (c : Cmd) (m : Msg) (s : State) : (answerMgmt c m s).dec = s.dec := rfl
@[simp] theorem answerMgmt_lands (c : Cmd) (m : Msg) (s : State) : (answerMgmt c m s).lands = s.lands := rfl

/-! ### ticked -/

@[simp] theorem ticked_life (s : State) : (ticked s).life = s.life := rfl
@[simp] theorem ticked_now (s : State) : (ticked s).now = s.now := rfl
@[simp] theorem ticked_free (s : State) : (ticked s).free = s.free := rfl
@[simp] theorem ticked_pending (s : State) : (ticked s).pending = s.pending := rfl
@[simp] theorem ticked_out (s : State) : (ticked s).out = s.out := rfl
@[simp] theorem ticked_cfg (s : State) : (ticked s).cfg = s.cfg := rfl
@[simp] theorem ticked_sec (s : State) : (ticked s).sec = s.sec := rfl
@[simp] theorem ticked_wb (s : State) :
    (ticked s).wb = { s.wb with seq := s.wb.seq + 1 } := rfl
@[simp] theorem ticked_job (s : State) : (ticked s).job = s.job := rfl
@[simp] theorem ticked_dlm (s : State) : (ticked s).dlm = s.dlm := rfl
@[simp] theorem ticked_flt (s : State) : (ticked s).flt = s.flt := rfl
@[simp] theorem ticked_log (s : State) : (ticked s).log = s.log := rfl
@[simp] theorem ticked_clk (s : State) : (ticked s).clk = s.clk := rfl
@[simp] theorem ticked_pwr (s : State) : (ticked s).pwr = s.pwr := rfl
@[simp] theorem ticked_rst (s : State) : (ticked s).rst = s.rst := rfl
@[simp] theorem ticked_dom (s : State) : (ticked s).dom = s.dom := rfl
@[simp] theorem ticked_lnk (s : State) : (ticked s).lnk = s.lnk := rfl
@[simp] theorem ticked_mgmt (s : State) : (ticked s).mgmt = s.mgmt := rfl
@[simp] theorem ticked_mem (s : State) : (ticked s).mem = s.mem := rfl
@[simp] theorem ticked_haul (s : State) : (ticked s).haul = s.haul := rfl
@[simp] theorem ticked_stk (s : State) : (ticked s).stk = s.stk := rfl
@[simp] theorem ticked_srch (s : State) : (ticked s).srch = s.srch := rfl
@[simp] theorem ticked_gth (s : State) : (ticked s).gth = s.gth := rfl
@[simp] theorem ticked_scr (s : State) : (ticked s).scr = s.scr := rfl
@[simp] theorem ticked_txt (s : State) : (ticked s).txt = s.txt := rfl
@[simp] theorem ticked_rrk (s : State) : (ticked s).rrk = s.rrk := rfl
@[simp] theorem ticked_dec (s : State) : (ticked s).dec = s.dec := rfl
@[simp] theorem ticked_lands (s : State) : (ticked s).lands = s.lands := rfl

/-! ### taken -/

@[simp] theorem taken_life (c : Cmd) (offset data : W64) (s : State) : (taken c offset data s).life = s.life := rfl
@[simp] theorem taken_now (c : Cmd) (offset data : W64) (s : State) : (taken c offset data s).now = s.now := rfl
@[simp] theorem taken_free (c : Cmd) (offset data : W64) (s : State) : (taken c offset data s).free = s.free := rfl
@[simp] theorem taken_pending (c : Cmd) (offset data : W64) (s : State) : (taken c offset data s).pending = s.pending := rfl
@[simp] theorem taken_out (c : Cmd) (offset data : W64) (s : State) :
    (taken c offset data s).out = s.out ++ [(s.now, ⟨c.src, myNode s, c.txn, 0, .mresp offset data 0⟩)] := rfl
@[simp] theorem taken_cfg (c : Cmd) (offset data : W64) (s : State) : (taken c offset data s).cfg = s.cfg := rfl
@[simp] theorem taken_sec (c : Cmd) (offset data : W64) (s : State) : (taken c offset data s).sec = s.sec := rfl
@[simp] theorem taken_wb (c : Cmd) (offset data : W64) (s : State) :
    (taken c offset data s).wb = { s.wb with seq := s.wb.seq + 1 } := rfl
@[simp] theorem taken_job (c : Cmd) (offset data : W64) (s : State) : (taken c offset data s).job = s.job := rfl
@[simp] theorem taken_dlm (c : Cmd) (offset data : W64) (s : State) : (taken c offset data s).dlm = s.dlm := rfl
@[simp] theorem taken_flt (c : Cmd) (offset data : W64) (s : State) : (taken c offset data s).flt = s.flt := rfl
@[simp] theorem taken_log (c : Cmd) (offset data : W64) (s : State) : (taken c offset data s).log = s.log := rfl
@[simp] theorem taken_clk (c : Cmd) (offset data : W64) (s : State) : (taken c offset data s).clk = s.clk := rfl
@[simp] theorem taken_pwr (c : Cmd) (offset data : W64) (s : State) : (taken c offset data s).pwr = s.pwr := rfl
@[simp] theorem taken_rst (c : Cmd) (offset data : W64) (s : State) : (taken c offset data s).rst = s.rst := rfl
@[simp] theorem taken_dom (c : Cmd) (offset data : W64) (s : State) : (taken c offset data s).dom = s.dom := rfl
@[simp] theorem taken_lnk (c : Cmd) (offset data : W64) (s : State) : (taken c offset data s).lnk = s.lnk := rfl
@[simp] theorem taken_mem (c : Cmd) (offset data : W64) (s : State) : (taken c offset data s).mem = s.mem := rfl
@[simp] theorem taken_haul (c : Cmd) (offset data : W64) (s : State) : (taken c offset data s).haul = s.haul := rfl
@[simp] theorem taken_stk (c : Cmd) (offset data : W64) (s : State) : (taken c offset data s).stk = s.stk := rfl
@[simp] theorem taken_srch (c : Cmd) (offset data : W64) (s : State) : (taken c offset data s).srch = s.srch := rfl
@[simp] theorem taken_gth (c : Cmd) (offset data : W64) (s : State) : (taken c offset data s).gth = s.gth := rfl
@[simp] theorem taken_scr (c : Cmd) (offset data : W64) (s : State) : (taken c offset data s).scr = s.scr := rfl
@[simp] theorem taken_txt (c : Cmd) (offset data : W64) (s : State) : (taken c offset data s).txt = s.txt := rfl
@[simp] theorem taken_rrk (c : Cmd) (offset data : W64) (s : State) : (taken c offset data s).rrk = s.rrk := rfl
@[simp] theorem taken_dec (c : Cmd) (offset data : W64) (s : State) : (taken c offset data s).dec = s.dec := rfl
@[simp] theorem taken_lands (c : Cmd) (offset data : W64) (s : State) : (taken c offset data s).lands = s.lands := rfl

/-! ### putWord -/

@[simp] theorem putWord_life (tier unit off : Nat) (w : W40) (s : State) : (putWord tier unit off w s).life = s.life := rfl
@[simp] theorem putWord_now (tier unit off : Nat) (w : W40) (s : State) : (putWord tier unit off w s).now = s.now := rfl
@[simp] theorem putWord_free (tier unit off : Nat) (w : W40) (s : State) : (putWord tier unit off w s).free = s.free := rfl
@[simp] theorem putWord_pending (tier unit off : Nat) (w : W40) (s : State) : (putWord tier unit off w s).pending = s.pending := rfl
@[simp] theorem putWord_out (tier unit off : Nat) (w : W40) (s : State) : (putWord tier unit off w s).out = s.out := rfl
@[simp] theorem putWord_cfg (tier unit off : Nat) (w : W40) (s : State) : (putWord tier unit off w s).cfg = s.cfg := rfl
@[simp] theorem putWord_sec (tier unit off : Nat) (w : W40) (s : State) : (putWord tier unit off w s).sec = s.sec := rfl
@[simp] theorem putWord_wb (tier unit off : Nat) (w : W40) (s : State) : (putWord tier unit off w s).wb = s.wb := rfl
@[simp] theorem putWord_job (tier unit off : Nat) (w : W40) (s : State) : (putWord tier unit off w s).job = s.job := rfl
@[simp] theorem putWord_dlm (tier unit off : Nat) (w : W40) (s : State) : (putWord tier unit off w s).dlm = s.dlm := rfl
@[simp] theorem putWord_flt (tier unit off : Nat) (w : W40) (s : State) : (putWord tier unit off w s).flt = s.flt := rfl
@[simp] theorem putWord_log (tier unit off : Nat) (w : W40) (s : State) : (putWord tier unit off w s).log = s.log := rfl
@[simp] theorem putWord_clk (tier unit off : Nat) (w : W40) (s : State) : (putWord tier unit off w s).clk = s.clk := rfl
@[simp] theorem putWord_pwr (tier unit off : Nat) (w : W40) (s : State) : (putWord tier unit off w s).pwr = s.pwr := rfl
@[simp] theorem putWord_rst (tier unit off : Nat) (w : W40) (s : State) : (putWord tier unit off w s).rst = s.rst := rfl
@[simp] theorem putWord_dom (tier unit off : Nat) (w : W40) (s : State) : (putWord tier unit off w s).dom = s.dom := rfl
@[simp] theorem putWord_lnk (tier unit off : Nat) (w : W40) (s : State) : (putWord tier unit off w s).lnk = s.lnk := rfl
@[simp] theorem putWord_mgmt (tier unit off : Nat) (w : W40) (s : State) : (putWord tier unit off w s).mgmt = s.mgmt := rfl
@[simp] theorem putWord_haul (tier unit off : Nat) (w : W40) (s : State) : (putWord tier unit off w s).haul = s.haul := rfl
@[simp] theorem putWord_stk (tier unit off : Nat) (w : W40) (s : State) : (putWord tier unit off w s).stk = s.stk := rfl
@[simp] theorem putWord_srch (tier unit off : Nat) (w : W40) (s : State) : (putWord tier unit off w s).srch = s.srch := rfl
@[simp] theorem putWord_gth (tier unit off : Nat) (w : W40) (s : State) : (putWord tier unit off w s).gth = s.gth := rfl
@[simp] theorem putWord_scr (tier unit off : Nat) (w : W40) (s : State) : (putWord tier unit off w s).scr = s.scr := rfl
@[simp] theorem putWord_txt (tier unit off : Nat) (w : W40) (s : State) : (putWord tier unit off w s).txt = s.txt := rfl
@[simp] theorem putWord_rrk (tier unit off : Nat) (w : W40) (s : State) : (putWord tier unit off w s).rrk = s.rrk := rfl
@[simp] theorem putWord_dec (tier unit off : Nat) (w : W40) (s : State) : (putWord tier unit off w s).dec = s.dec := rfl
@[simp] theorem putWord_lands (tier unit off : Nat) (w : W40) (s : State) : (putWord tier unit off w s).lands = s.lands := rfl

/-! ### freeCaches -/

@[simp] theorem freeCaches_life (p : Cache → Bool) (s : State) : (freeCaches p s).life = s.life := rfl
@[simp] theorem freeCaches_now (p : Cache → Bool) (s : State) : (freeCaches p s).now = s.now := rfl
@[simp] theorem freeCaches_free (p : Cache → Bool) (s : State) : (freeCaches p s).free = s.free := rfl
@[simp] theorem freeCaches_pending (p : Cache → Bool) (s : State) : (freeCaches p s).pending = s.pending := rfl
@[simp] theorem freeCaches_out (p : Cache → Bool) (s : State) : (freeCaches p s).out = s.out := rfl
@[simp] theorem freeCaches_cfg (p : Cache → Bool) (s : State) : (freeCaches p s).cfg = s.cfg := rfl
@[simp] theorem freeCaches_sec (p : Cache → Bool) (s : State) : (freeCaches p s).sec = s.sec := rfl
@[simp] theorem freeCaches_wb (p : Cache → Bool) (s : State) : (freeCaches p s).wb = s.wb := rfl
@[simp] theorem freeCaches_job (p : Cache → Bool) (s : State) : (freeCaches p s).job = s.job := rfl
@[simp] theorem freeCaches_dlm (p : Cache → Bool) (s : State) : (freeCaches p s).dlm = s.dlm := rfl
@[simp] theorem freeCaches_flt (p : Cache → Bool) (s : State) : (freeCaches p s).flt = s.flt := rfl
@[simp] theorem freeCaches_log (p : Cache → Bool) (s : State) : (freeCaches p s).log = s.log := rfl
@[simp] theorem freeCaches_clk (p : Cache → Bool) (s : State) : (freeCaches p s).clk = s.clk := rfl
@[simp] theorem freeCaches_pwr (p : Cache → Bool) (s : State) : (freeCaches p s).pwr = s.pwr := rfl
@[simp] theorem freeCaches_rst (p : Cache → Bool) (s : State) : (freeCaches p s).rst = s.rst := rfl
@[simp] theorem freeCaches_dom (p : Cache → Bool) (s : State) : (freeCaches p s).dom = s.dom := rfl
@[simp] theorem freeCaches_lnk (p : Cache → Bool) (s : State) : (freeCaches p s).lnk = s.lnk := rfl
@[simp] theorem freeCaches_mgmt (p : Cache → Bool) (s : State) : (freeCaches p s).mgmt = s.mgmt := rfl
@[simp] theorem freeCaches_mem (p : Cache → Bool) (s : State) : (freeCaches p s).mem = s.mem := rfl
@[simp] theorem freeCaches_haul (p : Cache → Bool) (s : State) : (freeCaches p s).haul = s.haul := rfl
@[simp] theorem freeCaches_stk (p : Cache → Bool) (s : State) : (freeCaches p s).stk = s.stk := rfl
@[simp] theorem freeCaches_srch (p : Cache → Bool) (s : State) : (freeCaches p s).srch = s.srch := rfl
@[simp] theorem freeCaches_gth (p : Cache → Bool) (s : State) : (freeCaches p s).gth = s.gth := rfl
@[simp] theorem freeCaches_scr (p : Cache → Bool) (s : State) : (freeCaches p s).scr = s.scr := rfl
@[simp] theorem freeCaches_txt (p : Cache → Bool) (s : State) : (freeCaches p s).txt = s.txt := rfl
@[simp] theorem freeCaches_rrk (p : Cache → Bool) (s : State) : (freeCaches p s).rrk = s.rrk := rfl
@[simp] theorem freeCaches_dec (p : Cache → Bool) (s : State) :
    (freeCaches p s).dec = { s.dec with caches := s.dec.caches.filter fun c => !p c } := rfl
@[simp] theorem freeCaches_lands (p : Cache → Bool) (s : State) : (freeCaches p s).lands = s.lands := rfl

/-! ### countWalk -/

@[simp] theorem countWalk_life (c : WalkCounts) (s : State) : (countWalk c s).life = s.life := rfl
@[simp] theorem countWalk_now (c : WalkCounts) (s : State) : (countWalk c s).now = s.now := rfl
@[simp] theorem countWalk_free (c : WalkCounts) (s : State) : (countWalk c s).free = s.free := rfl
@[simp] theorem countWalk_pending (c : WalkCounts) (s : State) : (countWalk c s).pending = s.pending := rfl
@[simp] theorem countWalk_out (c : WalkCounts) (s : State) : (countWalk c s).out = s.out := rfl
@[simp] theorem countWalk_cfg (c : WalkCounts) (s : State) : (countWalk c s).cfg = s.cfg := rfl
@[simp] theorem countWalk_sec (c : WalkCounts) (s : State) : (countWalk c s).sec = s.sec := rfl
@[simp] theorem countWalk_wb (c : WalkCounts) (s : State) : (countWalk c s).wb = s.wb := rfl
@[simp] theorem countWalk_job (c : WalkCounts) (s : State) : (countWalk c s).job = s.job := rfl
@[simp] theorem countWalk_dlm (c : WalkCounts) (s : State) : (countWalk c s).dlm = s.dlm := rfl
@[simp] theorem countWalk_flt (c : WalkCounts) (s : State) : (countWalk c s).flt = s.flt := rfl
@[simp] theorem countWalk_log (c : WalkCounts) (s : State) : (countWalk c s).log = s.log := rfl
@[simp] theorem countWalk_clk (c : WalkCounts) (s : State) : (countWalk c s).clk = s.clk := rfl
@[simp] theorem countWalk_pwr (c : WalkCounts) (s : State) : (countWalk c s).pwr = s.pwr := rfl
@[simp] theorem countWalk_rst (c : WalkCounts) (s : State) : (countWalk c s).rst = s.rst := rfl
@[simp] theorem countWalk_dom (c : WalkCounts) (s : State) : (countWalk c s).dom = s.dom := rfl
@[simp] theorem countWalk_lnk (c : WalkCounts) (s : State) : (countWalk c s).lnk = s.lnk := rfl
@[simp] theorem countWalk_mgmt (c : WalkCounts) (s : State) : (countWalk c s).mgmt = s.mgmt := rfl
@[simp] theorem countWalk_mem (c : WalkCounts) (s : State) : (countWalk c s).mem = s.mem := rfl
@[simp] theorem countWalk_haul (c : WalkCounts) (s : State) : (countWalk c s).haul = s.haul := rfl
@[simp] theorem countWalk_stk (c : WalkCounts) (s : State) : (countWalk c s).stk = s.stk := rfl
@[simp] theorem countWalk_gth (c : WalkCounts) (s : State) : (countWalk c s).gth = s.gth := rfl
@[simp] theorem countWalk_scr (c : WalkCounts) (s : State) : (countWalk c s).scr = s.scr := rfl
@[simp] theorem countWalk_txt (c : WalkCounts) (s : State) : (countWalk c s).txt = s.txt := rfl
@[simp] theorem countWalk_rrk (c : WalkCounts) (s : State) : (countWalk c s).rrk = s.rrk := rfl
@[simp] theorem countWalk_dec (c : WalkCounts) (s : State) : (countWalk c s).dec = s.dec := rfl
@[simp] theorem countWalk_lands (c : WalkCounts) (s : State) : (countWalk c s).lands = s.lands := rfl

/-! ### countArith -/

@[simp] theorem countArith_life (c : ArithCounts) (s : State) : (countArith c s).life = s.life := rfl
@[simp] theorem countArith_now (c : ArithCounts) (s : State) : (countArith c s).now = s.now := rfl
@[simp] theorem countArith_free (c : ArithCounts) (s : State) : (countArith c s).free = s.free := rfl
@[simp] theorem countArith_pending (c : ArithCounts) (s : State) : (countArith c s).pending = s.pending := rfl
@[simp] theorem countArith_out (c : ArithCounts) (s : State) : (countArith c s).out = s.out := rfl
@[simp] theorem countArith_cfg (c : ArithCounts) (s : State) : (countArith c s).cfg = s.cfg := rfl
@[simp] theorem countArith_sec (c : ArithCounts) (s : State) : (countArith c s).sec = s.sec := rfl
@[simp] theorem countArith_wb (c : ArithCounts) (s : State) : (countArith c s).wb = s.wb := rfl
@[simp] theorem countArith_dlm (c : ArithCounts) (s : State) : (countArith c s).dlm = s.dlm := rfl
@[simp] theorem countArith_flt (c : ArithCounts) (s : State) : (countArith c s).flt = s.flt := rfl
@[simp] theorem countArith_log (c : ArithCounts) (s : State) : (countArith c s).log = s.log := rfl
@[simp] theorem countArith_clk (c : ArithCounts) (s : State) : (countArith c s).clk = s.clk := rfl
@[simp] theorem countArith_pwr (c : ArithCounts) (s : State) : (countArith c s).pwr = s.pwr := rfl
@[simp] theorem countArith_rst (c : ArithCounts) (s : State) : (countArith c s).rst = s.rst := rfl
@[simp] theorem countArith_dom (c : ArithCounts) (s : State) : (countArith c s).dom = s.dom := rfl
@[simp] theorem countArith_lnk (c : ArithCounts) (s : State) : (countArith c s).lnk = s.lnk := rfl
@[simp] theorem countArith_mgmt (c : ArithCounts) (s : State) : (countArith c s).mgmt = s.mgmt := rfl
@[simp] theorem countArith_mem (c : ArithCounts) (s : State) : (countArith c s).mem = s.mem := rfl
@[simp] theorem countArith_haul (c : ArithCounts) (s : State) : (countArith c s).haul = s.haul := rfl
@[simp] theorem countArith_stk (c : ArithCounts) (s : State) : (countArith c s).stk = s.stk := rfl
@[simp] theorem countArith_srch (c : ArithCounts) (s : State) : (countArith c s).srch = s.srch := rfl
@[simp] theorem countArith_gth (c : ArithCounts) (s : State) : (countArith c s).gth = s.gth := rfl
@[simp] theorem countArith_scr (c : ArithCounts) (s : State) : (countArith c s).scr = s.scr := rfl
@[simp] theorem countArith_txt (c : ArithCounts) (s : State) : (countArith c s).txt = s.txt := rfl
@[simp] theorem countArith_rrk (c : ArithCounts) (s : State) : (countArith c s).rrk = s.rrk := rfl
@[simp] theorem countArith_dec (c : ArithCounts) (s : State) : (countArith c s).dec = s.dec := rfl
@[simp] theorem countArith_lands (c : ArithCounts) (s : State) : (countArith c s).lands = s.lands := rfl

end Sys2Proof.Machine
end

