-- ==== Sys2Proof/Tests/Slice0.lean ====
section
/-! SUPPORT. Tests of well-formedness and of the commands, each about one step of a small state, and, for every statement that
has hypotheses, a witness that meets them. -/

namespace Sys2Proof.Tests

open Machine

set_option Elab.async false

/-! ### Small states -/

/-- A host adapter, and a device that is not this one's manager. -/
def adapter : Node := 0xC001
def stranger : Node := 0x0005

/-- A device that has booted and knows no domain. -/
def running : State := { State.reset with life := .ready }

/-- Commands of a host adapter and of a stranger. -/
def asAdapter : Cmd := ⟨adapter, 7⟩
def asStranger : Cmd := ⟨stranger, 7⟩

/-- A device that has answered a request of the adapter. -/
def answeredOnce : State := { running with mgmt := { running.mgmt with answers := [(adapter, 7, ⟨adapter, 0, 7, 0, .mresp 0 0 0⟩)] } }

/-- A device that acts as mirror manager. -/
def asMirror : State := { running with dom := { running.dom with override := some 1 } }

/-- A plan with nothing in it, for a role. -/
def bare (role : Nat) : Plan :=
  { len := 4096, major := 2, minor := 0, domainPlan := false, planId := 1, planGen := 1, role := role, caps := 0, minBench := 0,
    minHbm := 0, minDdr := 0, minStk := 0, minPorts := 0, minStore := 0, dirAt := [], stages := [], routes := [], placements := [],
    quotas := [], models := [], policies := [], searches := [], migrations := [], progs := [], epilogues := [], norms := [], convs := [],
    tables := [], colls := [], filters := [], reranks := [], gens := [], shardMaps := [], leads := [], normTables := none,
    lattice := none, vocab := [], vocabDigest := 0, stopSets := [], grammars := [], templates := [] }

/-- The set of a manager, and one that follows it. -/
def oldSet : PlanSet := ⟨bare 0, [], 0, 0⟩
def nextSet : PlanSet := ⟨bare 0, [⟨3, [94, 95], [94, 95]⟩], 0, 1⟩

/-- A header stands in the staging region. -/
def staged : State :=
  let s := { running with mem := { running.mem with modules := (List.replicate 16 none).set 0 (some ⟨16, 1, 1, true, 6400, true⟩) } }
  putWord 1 0 0 (w40 0x4C505141 false) (putWord 1 0 4 (w40 2 false) (putWord 1 0 8 (w40 4096 false) s))

def loading : State :=
  { running with now := 250000000, cfg := { running.cfg with load := some ⟨0, 4096, 3, [], [], false⟩ } }

/-- A manager with a job open, and a shadow set that may follow. -/
def shadowed : State :=
  { running with cfg := { running.cfg with active := some oldSet, shadow := some nextSet }, job := { running.job with phase := 1 } }

def swapping : State :=
  { shadowed with now := 5000000, cfg := { shadowed.cfg with swap := some ⟨1, 0, 0, 0, [], none⟩ } }

/-- The same with no job. -/
def idleShadowed : State := { running with cfg := { running.cfg with shadow := some nextSet } }

def retiring : State := { shadowed with cfg := { shadowed.cfg with retiring := some oldSet } }

/-- A manager of two members. -/
def member (n : Node) : Member := { node := n, uid := n.zeroExtend 64, state := .up, role := 2, heard := 0 }
def manager : State :=
  { shadowed with dom := { shadowed.dom with members := [member 2, member 3] }, lnk := { shadowed.lnk with node := some 1 } }
def askTwo : DomSwap := ⟨1, 1, 0, 0, 0, [2, 3], [], none⟩
def asking : State := { manager with now := 20000000, cfg := { manager.cfg with domSwap := some askTwo } }

def prepared : State := { shadowed with now := 1000000000, cfg := { shadowed.cfg with prepared := some ⟨1, 0, false⟩ } }

/-- A set is active, and no job is open. -/
def idle : State := { running with cfg := { running.cfg with active := some oldSet } }
def closing : State := { idle with job := { idle.job with phase := 2 } }

/-- A QUERY accepted here that waits in a stage's queue, with budgets of 10 and 20 microseconds. -/
def aReq (t : Ticket) : Req := newReq t none t 0 (List.replicate 128 0) [] 0 0 10 20 .queue
def working : State := { idle with job := { idle.job with phase := 1, reqs := [aReq 5] } }
def closingBusy : State := { working with job := { working.job with phase := 2 } }
def late : State := { working with now := 20000 }

/-- The same for the manager at node 1. -/
def theirs : Req := { aReq 5 with boss := some 1, mgr := 9 }
def serving1 : State := { working with job := { working.job with reqs := [theirs] } }

/-- A cache of ticket 9 that nobody has claimed. -/
def aCache : Cache :=
  { handle := 0x10000, ticket := 9, promptLen := 2, lastToken := 3, kvFormat := 0, layers := 1, reserved := 0, written := [],
    segments := [], tokens := [], claimed := none, openedAt := 0 }
def caching : State := { running with dec := { running.dec with caches := [aCache] } }

/-- A request before stage 0, a step of that stage, and the step with its request gone. -/
def queued : State := { working with job := { working.job with reqs := [{ aReq 5 with agenda := [[0]] }] } }
def aStep : Step :=
  { stages := [0], epoch := 0, start := 4, began := 0, batch := [5], outs := [emptyOut 5], dropped := [], pins := [], tablePins := [],
    rows := [], counts := [] }
def stepping : State :=
  { working with job := { working.job with steps := [aStep], reqs := [{ aReq 5 with agenda := [[0]], place := .running }] } }
def steppedOver : State := { stepping with job := { stepping.job with reqs := [] } }
def overrun : State := { stepping with now := 50000001 }
def heldUp : State := { working with job := { working.job with reqs := [{ aReq 5 with agenda := [[0]], place := .held }] } }

/-- An INT8 tile of one element; the same with a lane that adds wrongly; and a BF16 tile with a NaN. -/
def aTile : Tile :=
  { ticket := 7, shape := .normal, act := 0, wt := 0, kalba := false, first := true, rows := .rows [[0]], cols := [[0]],
    actFine := [], wtFine := [], flips := [], post := none, storeAt := 0 }
def badTile : Tile := { aTile with flips := [(0, 0, 0, ⟨1, 0⟩)] }
def oddTile : Tile := { aTile with act := 6, wt := 6, rows := .rows [[0x7FC0]] }
def retried : State := { running with flt := { running.flt with retrying := [(3, 0, 7)] } }
def fenced3 : State := { running with flt := { running.flt with benches := running.flt.benches.set 3 { fenced := true } } }

/-- A manager with a mirror at node 2, a job open, and a journal object. -/
def aJournal : Obj := { place := ⟨0, 77, 10, 1, 0, 64, 0, true, 0xFFFF, 0xFFFF⟩, owner := none, page := 0 }
def pairedManager : State :=
  { working with job := { working.job with reqs := [] }, dom := { working.dom with mirrorNode := some 2, mgrEpoch := 3 },
                 mem := { working.mem with objs := [aJournal] } }

/-- A PREFILL descriptor with tag 0x1003 and one byte of payload, and a submission of it that is held. -/
def aDesc : List Byte := [5, 0, 0, 0, 0, 0, 0xFF, 0xFF, 3, 0x10] ++ List.replicate 22 0 ++ [1] ++ List.replicate 95 0
def holding : State := { running with wb := { running.wb with held := [(Desc.tag aDesc, 4)] } }
def longDesc (n : Nat) : List Byte := List.replicate 32 0 ++ toLe 4 n ++ List.replicate 92 0
def arriving : State := { running with now := 1000000, wb := { running.wb with subs := [⟨adapter, 7, longDesc 0x20000, [], 0⟩] } }

/-- A journal entry at position 0, and managers that wait for the mirror. -/
def anEntry (kind : Nat) : JEntry := ⟨kind, 5, 0x1003, 0, []⟩
def awaitingTwo : State := { pairedManager with wb := { pairedManager.wb with mirrorWait := [(0, 0, false), (1, 0, false)] } }
def unaccepted : Req := { aReq 5 with place := .acceptance 0 adapter 7 (some 0x18) }
def accepting : State :=
  { pairedManager with wb := { pairedManager.wb with mirrorWait := [(0, 0, false)] }, job := { pairedManager.job with reqs := [unaccepted] } }
def unanswered (again : Bool) : State :=
  { pairedManager with now := 100000, wb := { pairedManager.wb with mirrorWait := [(0, 0, again)], journal := [anEntry 1] } }

/-- A completion of ticket 5 on stream 3, and managers that post it, wait for an earlier one, and have posted it. -/
def aComp (pos : Option W64) : Comp :=
  { ticket := 5, tag := 0x2003, status := 0, filterShort := false, nanSeen := false, shortK := false, degraded := 0, endReason := 0,
    detail := 0, cookie := 0, result0 := 0, node := 0, nValid := 0, elapsedUs := 0, indexVersion := 0, result := [1, 2], pos := pos }
def posting (pos : Option W64) : State :=
  { pairedManager with wb := { pairedManager.wb with holdback := [aComp pos], cq := { log2 := 8, enable := true } } }
def blocked : State := { posting none with wb := { (posting none).wb with holdback := [{ aComp none with ticket := 4, tag := 0x1003 }, aComp none] } }
def fullRing : State := { posting none with now := 1000000000, wb := { (posting none).wb with cq := { log2 := 8, tail := 255, enable := true, fullSince := some 0 } } }
def posted5 : State := { pairedManager with wb := { pairedManager.wb with posted := [aComp none], held := [(0x2003, 5)] } }

/-- An answer for ticket 9, a SEARCH that waits for two shards, one that has an answer, and a DECODE on another device. -/
def anAnswer (shard status : Nat) : Answer :=
  { ticket := 9, shard := shard, status := status, filterShort := false, nanSeen := false, degraded := 0, indexVersion := 0, result0 := 0,
    detail := 0, endReason := 0, list := [], passages := [], bytes := [] }
def asked : Req := { aReq 9 with place := .answers false, waitFor := [(0, 2), (1, 3)] }
def fanned : State := { working with job := { working.job with reqs := [asked] } }
def askedOnce : Req := { asked with answers := [anAnswer 0 0] }
def fannedOnce : State := { working with job := { working.job with reqs := [askedOnce] } }
def away : Req := { aReq 9 with desc := List.replicate 128 6, place := .away }
def decodingAway : State := { working with job := { working.job with reqs := [away] } }

/-- A worker with a SEARCH and a RERANK stage, one collection at version 1, and work for it. -/
def aStage (id kind : Nat) : Stage :=
  { off := 0, id := id, kind := kind, beMin := 1, beMax := 1, place := 0, act := 0, wt := 0, scaleMode := 0, model := 0xFFFF,
    microprog := 0xFFFF, queueDepth := 4, batchMax := 4, coll := 4 }
def routed (role : Nat) : Plan :=
  { bare role with stages := [aStage 0 1, aStage 1 4], routes := [⟨0, 0, 2, 0x7FF, [⟨0, false⟩, ⟨1, false⟩]⟩] }
def aCollSpec : CollSpec :=
  { off := 0, item := 0, coll := 4, vecFormat := 6, codes := 0, vectors := 0, adjacency := 0, scree := 0, passages := 0, slots := 8, shard := 3 }
def aSearch : SearchRec :=
  { off := 0, id := 4, cls := 0, metric := 0, dims := 4, subspaces := 0, degree := 0, sflags := 0, beam := 8, expand := 8, refine := 8,
    kKeep := 8, kFinal := 4 }
def aColl : Coll := { id := 4, spec := aCollSpec, par := aSearch, version := 1 }
def worker : State :=
  { running with cfg := { running.cfg with active := some ⟨routed 2, [], 0, 0⟩ }, job := { running.job with phase := 1 },
                 srch := { running.srch with colls := [aColl] } }
def searchDesc : List Byte := [2, 0, 0, 0, 0, 0, 4, 0] ++ List.replicate 120 0
def aHead : FwdHead := ⟨9, 0, 0, 10, 20, 0, false, false⟩
def streaming : State := { pairedManager with txt := { pairedManager.txt with sr := { log2 := 8, enable := true } } }

/-- A plan whose one stage encodes, with empty tables; requests with a text of zeros, and one to pack. -/
def noTables : NormTables := ⟨(15, 0, 0), [], [], []⟩
def noLattice : LatticeParams := ⟨false, false, false, 0, 0, 0, none, none, 512⟩
def textPlan : Plan :=
  { bare 5 with stages := [aStage 0 0], routes := [⟨0, 0, 1, 0x7FF, [⟨0, false⟩]⟩], normTables := some noTables, lattice := some noLattice }
def textReq (n : Nat) : Req := { aReq 5 with place := .text, payload := List.replicate n 0 }
def reading (n : Nat) : State :=
  { working with cfg := { working.cfg with active := some ⟨textPlan, [], 0, 0⟩ }, job := { working.job with reqs := [textReq n] } }
def packReq : Req := { aReq 5 with desc := List.replicate 128 4, place := .pack, payload := [0, 0, 0, 0] }
def packing : State := { reading 1 with job := { working.job with reqs := [packReq] } }

/-- A prefill device whose prompt waits for OPENED, and whose block is on its way; a manager whose prompt is away. -/
def movePlan : Plan := { bare 3 with stages := [aStage 0 5], routes := [⟨0, 0, 1, 0x7FF, [⟨0, false⟩]⟩] }
def aMove : PfMove := ⟨5, 9, 3, none, [1, 2], 0, [], [], [], some 0, false⟩
def moved : Req := { aReq 5 with boss := some 1, mgr := 9, desc := List.replicate 128 5, place := .move }
def moving : State :=
  { working with cfg := { working.cfg with active := some ⟨movePlan, [], 0, 0⟩ }, job := { working.job with reqs := [moved] },
                 dec := { working.dec with moves := [aMove] } }
def claimedCache : State := { caching with dec := { caching.dec with caches := [{ aCache with claimed := some 5 }] } }
def aBlock : KvHead := ⟨9, 0x10000, 0, 0, 0, 2, 1, 1, 0, 0, 2⟩
def fullCache : Cache := { aCache with written := [(0, 0, aBlock, [1, 2])] }
def written1 : State := { caching with dec := { caching.dec with caches := [fullCache] } }
def sentMove (again : Bool) : PfMove := ⟨5, 9, 3, some 0x10000, [1, 2], 1, [(0, 0, 0, again)], [], [(aBlock, [1, 2])], none, false⟩
def twoSent : PfMove := { sentMove false with sent := [(0, 0, 0, false), (0, 1, 0, false)] }
def sending : State := { moving with now := 1000000, dec := { moving.dec with moves := [sentMove false] } }
def prompted : Req := { aReq 5 with desc := List.replicate 128 5, place := .prefill 2 3 }
def prefilling : State := { working with job := { working.job with reqs := [prompted] } }

/-- A table of one row in four columns, at version 1, with its two regions in given states. -/
def aTableSpec : TableSpec :=
  { off := 0, item := 0, table := 77, dir := 78, rows := 1, dims := 4, sliceFirst := 0, sliceWidth := 4, model := 0, outFormat := 6,
    remote := false }
def aTable (a b : Region) (busy : Option Bool) : Table := { spec := aTableSpec, region0 := a, region1 := b, version := 1, busy := busy }
def tabled (a b : Region) (busy : Option Bool) : State := { running with gth := { running.gth with tables := [aTable a b busy] } }

/-- A TABLE_PUBLISH of it, on one device and across a domain. -/
def publishReq : Req := { aReq 5 with desc := [10] ++ List.replicate 39 0 ++ [77] ++ List.replicate 87 0, place := .publish }
def publishing (b : Region) : State :=
  { tabled .live b none with job := { working.job with reqs := [publishReq] } }
def preparedTable : Table := { aTable .live .build none with prepared := some (9, 2), committed := true }
def memberReady : State := { running with gth := { running.gth with tables := [preparedTable] } }
def aPub (ms : List Node) : Publication := ⟨5, 77, 2, 0, ms, [], false, none⟩
def collecting : State :=
  { publishing .build with now := 20000000, gth := { (publishing .build).gth with pubs := [aPub [2, 3]] } }
def lastAnswer : State := { collecting with gth := { collecting.gth with pubs := [aPub [2]] } }
def retiredTable : Table := { aTable .live .retiring none with retireSeen := true }
def freeing : State := { running with gth := { running.gth with tables := [retiredTable] } }

/-- A step's gather of version 1 that waits for slices. -/
def aGather (slices : List (Nat × Nat × List Byte)) : Gather := ⟨9, 4, 77, 1, [[0]], [2], slices⟩
def gathering (slices : List (Nat × Nat × List Byte)) : State :=
  { tabled .live .free none with gth := { (tabled .live .free none).gth with gathers := [aGather slices] } }

/-- The table and its directory, resident. -/
def anObj (id page : Nat) : Obj := ⟨⟨0, id, 10, 1, 0, 64, 0, true, 0xFFFF, 0xFFFF⟩, none, page, none, []⟩
def tabledHere : State :=
  let s := tabled .live .free none
  { s with mem := { s.mem with objs := [anObj 77 0, anObj 78 64], pages := [⟨0, 0, 0, 0, false⟩, ⟨64, 0, 0, 1, false⟩] } }

/-! ### Witnesses: each meets the hypotheses of the statement it is named after -/

theorem witness_queueFrontRuns : ({ State.reset with pending := [.hoursTick] } : State).pending = .hoursTick :: [] := by decide

theorem witness_idleStepTicks : State.reset.pending = [] := by decide

theorem witness_everyCommandAnswers : (1800 : Nat) ≤ 2050 ∧ (2050 : Nat) < 2051 := by decide

theorem witness_execKeepsQueueAndMemory :
    Memory.wf State.reset ∧ exec (.entdaa 9) State.reset = .next { State.reset with lands := { State.reset.lands with i3cAddr := some 9, i3cBusy := none } } :=
  ⟨by decide, rfl⟩

theorem witness_stepKeepsSound :
    Sound { State.reset with pending := [.entdaa 9] } ∧
    step { State.reset with pending := [.entdaa 9] } = .next { State.reset with lands := { State.reset.lands with i3cAddr := some 9, i3cBusy := none } } := by
  exact ⟨⟨by decide, by decide⟩, rfl⟩

theorem witness_capabilityRegisters : Granted asAdapter running := by decide

theorem witness_countsAreReadAndCleared :
    Granted asAdapter running ∧ serving answeredOnce = true ∧ regBits 0x40000 16 8 < 0x15 ∧
    recordedAnswer answeredOnce asAdapter = some ⟨adapter, 0, 7, 0, .mresp 0 0 0⟩ ∧ claimElsewhere 0x40000 0 answeredOnce = false := by decide

theorem witness_logReadsAdvance : Granted asAdapter asMirror ∧ keepsMembers asMirror = true := by decide

theorem witness_managementRefusals :
    serving running = true ∧ recordedAnswer running asStranger = none ∧ mayManage running asStranger.src = false ∧
    regBits 0x140008 16 8 < 0x15 ∧ claimElsewhere 0x140008 0 running = false ∧ mayManage running asAdapter.src = true ∧
    recordedAnswer running asAdapter = none ∧ aligned 0x140004 = false ∧ regBits 0x140004 16 8 < 0x15 ∧ 0x15 ≤ regBits 0x150000 16 8 := by decide

theorem witness_planLoadBegins :
    (Granted asAdapter staged ∧ staged.cfg.load = none ∧ staged.rst.fwLoad = none ∧ staged.cfg.prepared = none ∧ staged.cfg.shadow = none) ∧
    ((stagingRead staged (min (4096 : W32).toNat 256)).toOption.map fun h => lowest (checkFormat h (4096 : W32).toNat)) = some none ∧
    (Granted asAdapter loading ∧ loading.cfg.load.isSome = true) ∧
    serving loading = true ∧ loading.cfg.load = some ⟨0, 4096, 3, [], [], false⟩ ∧ past loading 0 250000000 = true := by decide +kernel

theorem witness_swapWaitsForItsBenches :
    (Granted asAdapter shadowed ∧ shadowed.cfg.prepared = none ∧ shadowed.cfg.domSwap = none ∧ swapCheck shadowed 0 0 = none ∧
      shadowed.cfg.shadow = some nextSet ∧ shadowed.job.phase ≠ 0 ∧ reservedBenches nextSet ≠ []) ∧
    (serving swapping = true ∧ swapping.cfg.swap = some ⟨1, 0, 0, 0, [], none⟩ ∧ swapping.cfg.shadow = some nextSet ∧
      95 ∈ reservedBenches nextSet ∧ 95 ∉ busyBenches swapping ∧ 94 ∈ reservedBenches nextSet ∧ 94 ∉ [95]) ∧
    (past swapping 0 5000000 = true ∧ swapping.job.reqs = []) := by decide +kernel

theorem witness_swapBoundaryInstallsTheShadow :
    (Granted asAdapter idleShadowed ∧ idleShadowed.wb.seq.toNat + 1 < 0xFFF000000000 ∧ idleShadowed.cfg.prepared = none ∧
      idleShadowed.cfg.domSwap = none ∧ swapCheck idleShadowed 0 0 = none ∧ idleShadowed.cfg.shadow = some nextSet ∧
      idleShadowed.job.phase = 0 ∧ idleShadowed.cfg.active = none ∧ idleShadowed.job.reqs = [] ∧ namedMoves nextSet.plan 0 0 = []) ∧
    Runs retiring ∧ retiring.cfg.retiring = some oldSet ∧ epochBusy retiring oldSet.epoch = false := by decide +kernel

theorem witness_domainSwapCollectsAnswers :
    (Granted asAdapter manager ∧ isManager manager = true ∧ manager.cfg.domSwap = none ∧ swapCheck manager 0 0 = none ∧
      membersPresent manager ≠ []) ∧
    (Granted asAdapter running ∧ isManager running = false) ∧
    (Runs asking ∧ asking.cfg.domSwap = some askTwo ∧ (2 : Node) ∈ askTwo.members ∧ answered askTwo 2 = false ∧ askTwo.point = none ∧
      (3 : Node) ∈ askTwo.members ∧ answered askTwo 3 = false) ∧
    past asking askTwo.since 20000000 = true := by decide +kernel

theorem witness_memberPreparesAndWaits :
    (Runs shadowed ∧ shadowed.cfg.prepared = none ∧ swapCheck shadowed 0 0 = none) ∧
    Runs prepared ∧ prepared.cfg.prepared = some ⟨1, 0, false⟩ ∧ past prepared 0 100000000 = true ∧ past prepared 0 1000000000 = true := by decide +kernel

theorem witness_commitSwapsAMember :
    (Runs prepared ∧ prepared.cfg.prepared = some ⟨1, 0, false⟩ ∧ prepared.cfg.shadow = some nextSet ∧ prepared.job.phase ≠ 0 ∧
      reservedBenches nextSet ≠ []) ∧
    Runs running ∧ running.cfg.prepared = none ∧ running.cfg.lateEpoch ≠ some 1 := by decide +kernel

theorem witness_jobOpensAndEnds :
    (Granted asAdapter idle ∧ idle.pwr.state < 2 ∧ idle.job.phase = 0 ∧ idle.cfg.active = some oldSet ∧ idle.wb.journal = []) ∧
    (Granted asAdapter running ∧ running.job.phase = 0 ∧ running.cfg.active = none) ∧
    (Granted asAdapter shadowed ∧ shadowed.pwr.state < 2 ∧ shadowed.job.phase = 1) ∧
    (serving closing = true ∧ closing.job.phase = 2 ∧ closing.job.reqs = []) ∧
    serving closingBusy = true ∧ closingBusy.job.phase = 2 ∧ closingBusy.job.reqs ≠ [] := by decide

theorem witness_abortAndFaultEndRequests :
    (Granted asAdapter working ∧ working.job.phase = 1 ∧ (working.job.reqs.map (·.place)) = [.queue]) ∧
    Granted asAdapter running ∧ running.job.phase = 0 := by decide

theorem witness_cancellationCompletesTheRequest :
    Granted asAdapter working ∧
    (working.job.reqs.find? (fun q => q.boss.isNone && q.ticket == 5)) = some (aReq 5) ∧
    (working.job.reqs.find? (fun q => q.boss.isNone && q.desc.tag.extractLsb' 0 48 == 0)) = some (aReq 5) ∧
    (aReq 5).place = .queue ∧ (aReq 5).desc.type ≤ 5 ∧ (aReq 5).ending = 0 ∧ (aReq 5).dec = none ∧
    ∀ q ∈ working.job.reqs, q.boss = none → q.ticket ≠ 6 ∧ q.desc.tag.extractLsb' 0 48 ≠ (1 : BitVec 48) := by decide

theorem witness_forwardedCancellationAnswersTheManager :
    (Runs serving1 ∧ serving1.job.reqs.filter (fun q => q.boss.isSome && q.mgr == 9) = [theirs] ∧ theirs.boss = some 1 ∧
      isMutation theirs.desc.type = false ∧ theirs.desc.type ≠ 9) ∧
    (Runs running ∧ running.job.reqs.filter (fun q => q.boss.isSome && q.mgr == 9) = [] ∧ running.dec.caches = [] ∧
      running.gth.tables = []) ∧
    Runs caching ∧ caching.job.reqs.filter (fun q => q.boss.isSome && q.mgr == 9) = [] ∧
    ∃ k ∈ caching.dec.caches, k.ticket = 9 ∧ k.claimed = none := by decide

theorem witness_deadlinesAreStamped :
    Runs late ∧ findReq late 5 = some (aReq 5) ∧ (aReq 5).softPassed = false ∧ (aReq 5).soft ≤ usSince late (aReq 5).start ∧
    (aReq 5).hardPassed = false ∧ (aReq 5).hard ≤ usSince late (aReq 5).start ∧ (aReq 5).boss = none ∧ (aReq 5).place = .queue ∧
    (aReq 5).desc.type ≤ 5 ∧ (aReq 5).heldForReplica = false ∧ (aReq 5).dec = none ∧
    serving working = true ∧ findReq working 5 = some (aReq 5) ∧ usSince working (aReq 5).start < (aReq 5).soft ∧
    usSince working (aReq 5).start < (aReq 5).hard := by decide

theorem witness_stepRunsItsBatch :
    (serving queued = true ∧ stepsRun queued = true ∧ queued.job.steps = [] ∧
      (formBatch 0 queued).2.lead = some (0, [0], 1) ∧ Runs (formBatch 0 queued).1 ∧
      planSet (formBatch 0 queued).1 0 = some oldSet ∧ groupTable oldSet.plan [0] = none ∧
      (batchWorks oldSet.plan 1 [0] (formBatch 0 queued).2.batch (ticked (formBatch 0 queued).1)).2.map (fun w => (w.2.reject.isNone, w.2.poisoned)) =
        [(true, false)]) ∧
    (Runs stepping ∧ stepping.job.steps.find? (fun p => p.stages.contains 0) = some aStep ∧ planSet stepping 0 = some oldSet ∧
      stepping.gth.gathers = [] ∧ aStep.outs = [emptyOut 5] ∧ (5 : Ticket) ∉ aStep.dropped ∧
      (findReq stepping 5).map (·.place) = some .running ∧ genOfPlan oldSet.plan = none ∧ aStep.tablePins = []) ∧
    Runs steppedOver ∧ steppedOver.job.steps.find? (fun p => p.stages.contains 0) = some aStep ∧ findReq steppedOver 5 = none ∧
      steppedOver.gth.pubs = [] := by decide +kernel

theorem witness_boundariesMaskAndSlotsFree :
    (serving stepping = true ∧ aStep ∈ stepping.job.steps) ∧
    (serving heldUp = true ∧ (heldUp.job.reqs.filter fun q => q.place == .held && (q.agenda.headD []).contains 0).length = 1 ∧
      (heldUp.job.reqs.map fun r => (r.plan heldUp).isSome) = [true]) ∧
    (Runs overrun ∧ overrun.job.phase ≠ 0 ∧ overrun.job.cmdCode = 0 ∧ aStep ∈ overrun.job.steps ∧ 0 ∈ aStep.stages ∧
      past overrun (aStep.began + 1) 50000000 = true) ∧
    past stepping (aStep.began + 1) 50000000 = false := by decide

theorem witness_tileVerdict :
    Runs running ∧ running.flt.benches[3]? = some ({} : Bench) ∧ ({} : Bench).fenced = false ∧ ({} : Bench).logical.contains 8 = false ∧
    ({} : Bench).retired.getLsbD 8 = false ∧ aTile.skipped = false ∧ aTile.passes = true ∧ badTile.skipped = false ∧
    badTile.passes = false ∧ oddTile.skipped = true ∧ aTile.post = none ∧ running.flt.retrying = [] ∧
    Runs retried ∧ retried.flt.retrying = [(3, 0, aTile.ticket)] ∧ badTile.ticket = aTile.ticket ∧
    fenced3.flt.benches[3]? = some ({ fenced := true } : Bench) ∧ Runs fenced3 := by decide +kernel

theorem witness_benchesAreFenced :
    Runs running ∧ running.flt.benches[3]? = some ({} : Bench) ∧ running.cfg.active = none ∧ running.cfg.retiring = none ∧
    running.cfg.load = none ∧ running.job.steps = [] ∧ running.flt.retrying = [] ∧
    serving fenced3 = true ∧ (fenced3.flt.benches.getD 3 {}).fenced = true := by decide

theorem witness_submissionsAreJournaledBeforeTheyAreAccepted :
    Runs pairedManager ∧ aDesc.length = 128 ∧ ([7] : List Byte).length = Desc.payloadLen aDesc ∧ pairedManager.wb.held = [] ∧
    pairedManager.dom.superseded = false ∧ isManager pairedManager = true ∧ pairedManager.job.phase = 1 ∧
    pairedManager.wb.seqWarn = false ∧ pairedManager.wb.seqStop = false ∧ intakeQueued pairedManager < 65536 ∧
    journalFull pairedManager = false ∧ highSeq pairedManager (Desc.stream aDesc) = none ∧ pairedManager.wb.solo = false ∧
    pairedManager.dom.mirrorNode = some 2 ∧
    (Runs holding ∧ holding.wb.held.find? (·.1 == Desc.tag aDesc) = some (Desc.tag aDesc, 4)) ∧
    (Runs running ∧ running.wb.held = [] ∧ running.dom.superseded = false ∧ running.job.phase ≠ 1) := by decide +kernel

theorem witness_submissionsArriveInSegments :
    (serving running = true ∧ (longDesc 0x20000).length = 128 ∧ Desc.payloadLen (longDesc 0x20000) ≤ 1048576 ∧
      65536 < Desc.payloadLen (longDesc 0x20000) ∧ findSub running adapter 7 = none ∧ running.wb.subs = []) ∧
    (serving arriving = true ∧ findSub arriving adapter 7 = some ⟨adapter, 7, longDesc 0x20000, [], 0⟩ ∧
      arriving.wb.subs = [⟨adapter, 7, longDesc 0x20000, [], 0⟩] ∧ 0 + 65536 < Desc.payloadLen (longDesc 0x20000) ∧
      past arriving 0 1000000 = true) := by decide +kernel

theorem witness_theMirrorKeepsTheJournal :
    (Runs asMirror ∧ role asMirror = 1 ∧ (anEntry 2).kind = 2 ∧ asMirror.wb.journal = []) ∧
    (Runs pairedManager ∧ isManager pairedManager = true ∧ (0 : W32).ult pairedManager.dom.mgrEpoch = true) ∧
    (Runs awaitingTwo ∧ isManager awaitingTwo = true ∧ awaitingTwo.dom.mirrorNode = some 2 ∧
      awaitingTwo.wb.mirrorWait.any (·.1 == 0) = true ∧ ((1 : W64), 0, false) ∈ awaitingTwo.wb.mirrorWait ∧ awaitingTwo.job.reqs = [] ∧
      awaitingTwo.gth.pubs = [] ∧ awaitingTwo.cfg.domSwap = none) ∧
    (Runs accepting ∧ isManager accepting = true ∧ accepting.wb.mirrorWait.any (·.1 == 0) = true ∧
      accepting.job.reqs = [unaccepted] ∧ unaccepted.place = .acceptance 0 adapter 7 (some 0x18) ∧ unaccepted.boss = none ∧
      unaccepted.dec = none ∧ accepting.gth.pubs = [] ∧ accepting.cfg.domSwap = none) ∧
    (∀ again : Bool, Runs (unanswered again) ∧ isManager (unanswered again) = true ∧ (unanswered again).dom.superseded = false ∧
      (unanswered again).wb.solo = false ∧ (unanswered again).wb.mirrorWait = [(0, 0, again)] ∧ past (unanswered again) 0 100000 = true ∧
      (unanswered again).dom.mirrorNode = some 2 ∧ (unanswered again).wb.journal.find? (fun e => e.pos == 0) = some (anEntry 1) ∧
      (unanswered again).job.reqs = [] ∧ (unanswered again).gth.pubs = [] ∧ (unanswered again).cfg.domSwap = none) := by decide +kernel

theorem witness_completionsArePostedInOrder :
    (serving (posting (some 0)) = true ∧ (posting (some 0)).wb.holdback.find? (·.ticket == 5) = some (aComp (some 0)) ∧
      accepts (posting (some 0)) = true ∧ streamTurn (posting (some 0)) (aComp (some 0)) = true ∧ (posting (some 0)).wb.cq.open = true ∧
      (posting (some 0)).wb.mirrorWait = []) ∧
    (serving blocked = true ∧ blocked.wb.holdback.find? (·.ticket == 5) = some (aComp none) ∧ streamTurn blocked (aComp none) = false) ∧
    (isManager (posting none) = true ∧ (posting none).wb.solo = false ∧ streamTurn (posting none) (aComp none) = true ∧
      (posting none).wb.cq.open = true ∧ completeFits (posting none) (aComp none) = true) ∧
    Runs fullRing ∧ fullRing.wb.cq.fullSince = some 0 ∧ past fullRing 0 1000000000 = true ∧ fullRing.wb.cqStalled = false := by
  decide +kernel

theorem witness_releasesAndFetches :
    (Granted asAdapter posted5 ∧ accepts posted5 = true ∧ posted5.wb.posted.find? (·.ticket == 5) = some (aComp none) ∧
      (posted5.wb.held.any fun h => h.2 == 5) = true ∧ (aComp none).result.length < 65000) ∧
    (Granted asAdapter (posting none) ∧ (posting none).wb.posted = [] ∧ (posting none).wb.held = [] ∧
      ∃ x ∈ (posting none).wb.holdback, x.ticket = 5) ∧
    (∃ h ∈ posted5.wb.held, tagStream h.1 = (3 : BitVec 12).toNat) ∧ Runs posted5 ∧ posted5.wb.holdback = [] ∧ posted5.job.reqs = [] := by
  decide +kernel

theorem witness_ringControlsObeyEnable :
    Granted asAdapter idle ∧ accepts idle = true ∧ idle.wb.cq.enable = false ∧ idle.txt.sr.enable = false ∧ idle.txt.srWaiting = [] ∧
    idle.flt.alert.enable = false ∧ regBit 0x1000000000008 48 = true ∧ 8 ≤ ((0x1000000000008 : W64).extractLsb' 0 4).toNat ∧
    regBit 0x1000000000007 48 = true ∧ ((0x1000000000007 : W64).extractLsb' 0 4).toNat < 8 ∧ regBit 8 48 = false ∧
    Granted asAdapter (posting none) ∧ accepts (posting none) = true ∧ (posting none).wb.cq.enable = true ∧
    (0x1000000000009 : W64).extractLsb' 0 4 ≠ (posting none).wb.cq.log2 ∧ regBit 0x1000000000009 48 = true := by decide +kernel

theorem witness_answersAreTakenOnce :
    (Runs fanned ∧ fanned.job.reqs = [asked] ∧ asked.mgr = (anAnswer 0 0).ticket ∧ asked.place = .answers false ∧ asked.answers = [] ∧
      ((0 : Nat), (2 : Node)) ∈ asked.waitFor ∧ ((1 : Nat), (3 : Node)) ∈ asked.waitFor) ∧
    (Runs fannedOnce ∧ fannedOnce.job.reqs = [askedOnce] ∧ askedOnce.mgr = (anAnswer 0 0).ticket ∧ askedOnce.place = .answers false ∧
      ∃ x ∈ askedOnce.answers, x.shard = 0) ∧
    (Runs running ∧ running.job.reqs = []) ∧
    Runs decodingAway ∧ decodingAway.job.reqs = [away] ∧ away.mgr = (anAnswer 0 0).ticket ∧ away.place = .away ∧ away.desc.type = 6 ∧
    away.ending = 0 ∧ away.boss = none ∧ away.dec = none := by decide

theorem witness_forwardedWorkEntersItsStage :
    (Runs worker ∧ isManager worker = false ∧ worker.job.phase = 1 ∧ aHead.mgrEpoch = worker.dom.mgrEpoch.toNat ∧
      Desc.type searchDesc = 2 ∧ (planSet worker aHead.epoch).map (·.plan) = some (routed 2) ∧ worker.job.reqs = [] ∧
      worker.dec.ended = [] ∧ ((findColl worker (Desc.coll searchDesc)).map (·.version)) = some 1 ∧
      agendaOf (routed 2) 2 1 = [[0]] ∧ agendaOf (routed 2) (Desc.type (List.replicate 128 3)) 2 = [[1]] ∧
      groupRoom worker (routed 2) [0] = true ∧ groupRoom worker (routed 2) [1] = true) ∧
    (Runs pairedManager ∧ nodeDomain localNode = nodeDomain (myNode pairedManager) ∧ aHead.mgrEpoch < pairedManager.dom.mgrEpoch.toNat) ∧
    Runs running ∧ aHead.mgrEpoch = running.dom.mgrEpoch.toNat ∧ running.job.phase = 0 ∧ running.dec.ended = [] := by decide +kernel

theorem witness_streamRecordsReachTheRing :
    Runs pairedManager ∧ accepts pairedManager = true ∧ (List.replicate 64 (0 : Byte)).length = 64 ∧ pairedManager.txt.sr.open = false ∧
    Runs streaming ∧ accepts streaming = true ∧ streaming.txt.sr.open = true ∧ streaming.txt.srWaiting = [] := by decide

theorem witness_textIsTokenizedAndPacked :
    (serving (reading 1) = true ∧ findReq (reading 1) 5 = some (textReq 1) ∧ (textReq 1).place = .text ∧ (textReq 1).boss = none ∧
      (textReq 1).dec = none ∧ (textReq 1).plan (reading 1) = some textPlan ∧ textPlan.normTables = some noTables ∧
      textPlan.lattice = some noLattice ∧ (tokenizeText noTables noLattice [] (queryText (textReq 1))).refused = false ∧
      (textReq 1).desc.type ≤ 1 ∧ (reading 1).job.reqs = [textReq 1] ∧ agendaOf textPlan 0 0 = [[0]] ∧
      groupRoom { reading 1 with job := { (reading 1).job with reqs := [] } } textPlan [0] = true) ∧
    (tokenizeText noTables noLattice [] (queryText (textReq 0))).refused = true ∧
    (Runs packing ∧ findReq packing 5 = some packReq ∧ packReq.place = .pack ∧ packReq.packed = [] ∧ packReq.desc.type = 4 ∧
      isManager packing = false ∧ packReq.boss = none ∧ packReq.dec = none ∧ packReq.plan packing = some textPlan ∧
      (textPlan.template? packReq.desc.template).isSome = false) ∧
    (serving working = true ∧ findReq working 5 = some (aReq 5) ∧ (aReq 5).place ≠ .text ∧ (aReq 5).place ≠ .pack) := by
  decide +kernel

theorem witness_cachesAreOpenedAndReleased :
    (Runs shadowed ∧ shadowed.job.phase = 1 ∧ shadowed.dec.nextSlot < 0xFFFFFFFF ∧ 1 * ceilDiv (1 - 1) 64 ≤ freeBlocks shadowed ∧
      freeBlocks shadowed < 1 * ceilDiv (2 - 1) 64) ∧
    (Runs moving ∧ moving.dec.moves = [aMove] ∧ aMove.mgr = 9 ∧ aMove.decode = 3 ∧ aMove.handle = none ∧ moving.job.reqs = [moved] ∧
      moved.ticket = aMove.ticket ∧ moved.plan moving = some movePlan ∧ agendaOf movePlan moved.desc.type 3 = [[0]] ∧
      groupRoom moving movePlan [0] = true) ∧
    (findReq moving 5 = some moved ∧ aMove.retryAt = some 0 ∧ aMove.decode ≠ 0 ∧ aMove.decode ≠ myNode moving) ∧
    Runs caching ∧ caching.dec.caches.find? (·.handle == 0x10000) = some aCache ∧ aCache.claimed = none ∧
    past { caching with now := 1000000 } aCache.openedAt (idleNs caching) = true ∧
    (claimedCache.dec.caches.find? (·.handle == 0x10000)).bind (·.claimed) = some 5 ∧ serving claimedCache = true := by decide +kernel

theorem witness_blocksMoveOnce :
    (Runs caching ∧ caching.dec.caches = [aCache] ∧ aCache.handle = aBlock.handle ∧ aBlock.layer < aCache.layers ∧
      ([1, 2] : List Byte).length = aBlock.dataLen ∧ aCache.segments = [] ∧ aCache.written = [] ∧
      Runs written1 ∧ written1.dec.caches = [fullCache] ∧ fullCache.handle = aBlock.handle ∧ fullCache.segments = [] ∧
      ∃ w ∈ fullCache.written, w.1 = aBlock.layer ∧ w.2.1 = aBlock.index) ∧
    (Runs sending ∧ sending.dec.moves = [sentMove false] ∧ (sentMove false).handle = some 0x10000 ∧
      (sentMove false).decode ≠ myNode sending ∧ (∃ x ∈ (sentMove false).sent, x.1 = 0 ∧ x.2.1 = 0) ∧ (0, 0) ∉ (sentMove false).acked ∧
      (sentMove false).acked.length + 1 = (sentMove false).sent.length ∧ sending.job.reqs = [moved] ∧
      moved.ticket = (sentMove false).ticket ∧ moved.boss = some 1 ∧ past sending 0 1000000 = true ∧
      (sentMove true).sent = [(0, 0, 0, true)] ∧
      (sentMove false).blocks.find? (fun b => b.1.layer == 0 && b.1.index == 0) = some (aBlock, [1, 2])) ∧
    (twoSent.acked.length + 1 ≠ twoSent.sent.length ∧ (∃ x ∈ twoSent.sent, x.1 = 0 ∧ x.2.1 = 0)) ∧
    Runs prefilling ∧ prefilling.job.reqs = [prompted] ∧ prompted.mgr = 5 ∧ prompted.place = .prefill 2 3 ∧ (3 : Node) ≠ 0 ∧
    prefillMember prefilling = none ∧ (0x10003 : W64).extractLsb' 0 16 = (3 : Node) ∧ prompted.boss = none ∧ prompted.dec = none := by
  refine ⟨?_, ?_, ?_, ?_⟩ <;> decide +kernel

theorem witness_tableRegionsAreBuilt :
    (Granted asAdapter (tabled .live .free none) ∧ findTable (tabled .live .free none) (77 : W32).toNat = some (aTable .live .free none) ∧
      (aTable .live .free none).spec.remote = false ∧ (aTable .live .free none).state (aTable .live .free none).nextRegion = .free ∧
      (aTable .live .free none).state (1 - (aTable .live .free none).nextRegion) = .live) ∧
    (aTable .live .build none).state (aTable .live .build none).nextRegion = .build ∧
    (aTable .live .retiring none).state (aTable .live .retiring none).nextRegion = .retiring ∧
    (aTable .free .free none).state (1 - (aTable .free .free none).nextRegion) ≠ .live ∧
    (serving (tabled .live .build (some false)) = true ∧
      findTable (tabled .live .build (some false)) (77 : W32).toNat = some (aTable .live .build (some false)) ∧
      (aTable .live .build (some false)).busy = some false) := by decide

theorem witness_tablesArePublished :
    (Runs (publishing .build) ∧ findTable (publishing .build) (77 : W32).toNat = some (aTable .live .build none) ∧
      (aTable .live .build none).prepared = none ∧ publishWaiting (publishing .build) (77 : W32).toNat = some publishReq ∧
      publishReq.boss = none ∧ publishReq.dec = none ∧ (aTable .live .build none).recorded = [] ∧
      publishable (aTable .live .build none) = true ∧ publishable (aTable .live .free none) = false ∧
      publishWaiting (publishing .free) (77 : W32).toNat = some publishReq) ∧
    (Runs memberReady ∧ findTable memberReady (77 : W32).toNat = some preparedTable ∧ preparedTable.prepared = some (9, 2) ∧
      preparedTable.committed = true ∧ preparedTable.version = (0 : W32).toNat + 1) ∧
    (prepCode (some (aTable .live .build none)) 9 (2 : W32).toNat = 0 ∧
      prepCode (findTable running (77 : W32).toNat) 9 (2 : W32).toNat ≠ 0 ∧ Runs running) ∧
    (Runs collecting ∧ collecting.gth.pubs = [aPub [2, 3]] ∧ (aPub [2, 3]).committed = false ∧ (2 : Node) ∈ (aPub [2, 3]).members ∧
      (aPub [2, 3]).answers = [] ∧ past collecting 0 20000000 = true ∧ findReq collecting 5 = some publishReq) ∧
    (Runs lastAnswer ∧ lastAnswer.gth.pubs = [aPub [2]] ∧ findReq lastAnswer 5 = some publishReq) ∧
    serving freeing = true ∧ freeing.gth.pubs = [] ∧ findTable freeing (77 : W32).toNat = some retiredTable ∧
    retiredTable.state retiredTable.nextRegion = .retiring ∧ retiredTable.retireSeen = true ∧ freeing.job.steps = [] := by
  refine ⟨?_, ?_, ?_, ?_, ?_⟩ <;> decide

theorem witness_gathersAreServedAndCollected :
    (Runs tabledHere ∧ findTable tabledHere (77 : W32).toNat = some (aTable .live .free none) ∧
      (aTable .live .free none).spec.table = (77 : W32).toNat ∧ (aTable .live .free none).prepared = none ∧
      versionHere (aTable .live .free none) (1 : W32).toNat = true ∧
      (decodeRow tabledHere aTableSpec 1 0).poisoned = false) ∧
    (Runs running ∧ findTable running (77 : W32).toNat = none ∧ running.gth.gathers = []) ∧
    Runs (gathering []) ∧ (gathering []).gth.gathers = [aGather []] ∧ (aGather []).table = (77 : W32).toNat ∧
    findTable (gathering []) (77 : W32).toNat = some (aTable .live .free none) ∧
    slicesCover aTableSpec.dims [(0, 1, [])] = false ∧
    (∀ g ∈ (gathering [(0, 1, [])]).gth.gathers, ∃ y ∈ g.slices, y.1 = 0) ∧ Runs (gathering [(0, 1, [])]) := by decide +kernel

/-- A NAND population of one target. -/
def aPop : NandPop := ⟨1, [1], 4, 4, 16384, 2048, 4, 32, 1, true, 100, 100, 100, 100, 7, true, true⟩
/-- An INSERT and a DELETE of collection 4 on its worker. -/
def insertReq (n : Nat) : Req := { aReq 5 with desc := [7, 0, 0, 0, 0, 0, 4] ++ List.replicate 121 0, place := .mutation, payload := List.replicate n 0 }
def deleteReq (shard : Byte) : Req :=
  { aReq 5 with desc := [8, 0, 0, 0, 0, 0, 4] ++ List.replicate 37 0 ++ [shard] ++ List.replicate 83 0, place := .mutation }
def mutating (c : Coll) (r : Req) : State :=
  { working with job := { working.job with reqs := [r] }, srch := { working.srch with colls := [c] },
                 stk := { working.stk with ctrls := [{ capMib := 1 }, { capMib := 1 }], recBlocks := [⟨0, 0, 4, 0, true, 0⟩],
                                           pop := some aPop } }
def slotDone (tomb : Bool) : Coll := { aColl with pending := [⟨1, 0, ⟨0, true, tomb, 0⟩⟩] }
def noSlots : Coll := { aColl with spec := { aCollSpec with slots := 0 } }
theorem witness_mutationsAreApplied :
    (Runs (mutating aColl (insertReq 8)) ∧ findReq (mutating aColl (insertReq 8)) 5 = some (insertReq 8) ∧
      collReady (mutating aColl (insertReq 8)) (insertReq 8).desc.coll = some aColl ∧
      earlierMutation (mutating aColl (insertReq 8)) (insertReq 8) = false ∧ (insertReq 8).desc.type = 7 ∧
      recordedOutcome aColl (insertReq 8).mgr = none ∧ aColl.vecLen = 8 ∧
      (vecOf aColl.spec.vecFormat ((insertReq 8).payload.take aColl.vecLen)).all f32IsFin = true ∧
      lowestSlot aColl (fun n => (slotNow (mutating aColl (insertReq 8)) aColl n).isFree) = some 0 ∧
      screeRoom (mutating aColl (insertReq 8)) aColl = true ∧
      opensBlock (mutating aColl (insertReq 8)) aColl.id (insertReq 8).desc.tenant 0 = false ∧
      pendingFull (mutating aColl (insertReq 8)) = false ∧ insertRoom (mutating aColl (insertReq 8)) (insertReq 8) = true) ∧
    (insertReq 7).payload.length < aColl.vecLen ∧
    lowestSlot noSlots (fun n => (slotNow (mutating noSlots (insertReq 8)) noSlots n).isFree) = none ∧
    (recordedOutcome { aColl with recorded := [(5, 0, 9)] } 5).isSome = true ∧
    ((deleteReq 3).desc.type = 8 ∧ shardOf (BitVec.ofNat 64 (deleteReq 3).desc.object) = 3 ∧
      localSlot (BitVec.ofNat 64 (deleteReq 3).desc.object) = 0 ∧ genOf (BitVec.ofNat 64 (deleteReq 3).desc.object) = 0) ∧
    (slotNow (mutating (slotDone false) (deleteReq 3)) (slotDone false) 0).isLive = true ∧
    bufferRoom (mutating (slotDone false) (deleteReq 3)) (sysCtrl (mutating (slotDone false) (deleteReq 3))) 64 = true ∧
    (slotNow (mutating (slotDone true) (deleteReq 3)) (slotDone true) 0).isDeleted = true ∧
    shardOf (BitVec.ofNat 64 (deleteReq 4).desc.object) ≠ aCollSpec.shard ∧
    findColl (mutating (slotDone false) (deleteReq 3)) 4 = some (slotDone false) := by
  refine ⟨?_, ?_, ?_, ?_, ?_, ?_, ?_, ?_, ?_, ?_⟩ <;> decide +kernel

/-- A FOLD of collection 4, whose version 1 stands; and the collection with a fold begun, past its units, and published. -/
def foldReq : Req := { aReq 5 with desc := [9, 0, 0, 0, 0, 0, 4] ++ List.replicate 121 0, place := .fold }
def graphColl : Coll := { aColl with par := { aSearch with degree := 4 }, version := 0 }
def aFold (step : Nat) : Fold :=
  { ticket := 7, request := 5, eEnd := 0, step := step, next := 0, units := 0, repair := [], deleted := [0], records := [], running := true,
    committed := true }
def foldColl (step : Nat) : Coll := { aColl with fold := some (aFold step) }
theorem witness_foldsRunByUnitsAndPublish :
    (Runs (mutating aColl foldReq) ∧ collReady (mutating aColl foldReq) 4 = some aColl ∧
      nextFold (mutating aColl foldReq) 4 = some foldReq ∧ recordedOutcome aColl foldReq.mgr = none ∧
      nothingToFold (mutating aColl foldReq) aColl = true) ∧
    nothingToFold (mutating { aColl with version := 0 } foldReq) { aColl with version := 0 } = false ∧
    (nothingToFold (mutating graphColl foldReq) graphColl = false ∧
      foldEnd graphColl (overlayRecords (mutating graphColl foldReq) graphColl) 0 0 = some 0) ∧
    repairSet (mutating graphColl foldReq) graphColl { aFold 4 with deleted := [] } = [] ∧
    foldRuns (foldColl 4) = true ∧
    (collReady (mutating (foldColl 4) foldReq) 4 = some (foldColl 4) ∧
      bufferRoom (mutating (foldColl 4) foldReq) (sysCtrl (mutating (foldColl 4) foldReq)) 64 = true) ∧
    (findReq (mutating (foldColl 7) foldReq) 5 = some foldReq ∧ searchRunning (mutating (foldColl 7) foldReq) = false) ∧
    searchRunning { worker with job := { worker.job with steps := [{ aStep with stages := [0] }] } } = true := by
  refine ⟨?_, ?_, ?_, ?_, ?_, ?_, ?_, ?_⟩ <;> decide +kernel

/-- Collection 4 with version 0 retired behind version 1, held by nobody or by a step; being compacted; with a checkpoint. -/
def oldColl (compacting : Bool) : Coll := { aColl with old := some ⟨0, 0, none, [2], 7⟩, compacting := compacting }
def aCheckpoint (committed : Bool) : Checkpoint := ⟨4, 8, 1, committed, [], 0, 0, none, []⟩
def checkpointed (free : Bool) : State :=
  let s := mutating aColl foldReq
  { s with stk := { s.stk with checkpoints := [aCheckpoint false], ctrls := [{ capMib := 1, blocks := if free then [⟨0, 0, .free, false, false, none⟩] else [] }, {}] } }
def restoring (committed : Bool) : State :=
  let s := mutating { aColl with restoring := true } foldReq
  { s with stk := { s.stk with ready := true, checkpoints := [aCheckpoint committed] } }
theorem witness_versionsRetireAndAreRestored :
    (Runs (mutating (oldColl false) foldReq) ∧ collReady (mutating (oldColl false) foldReq) 4 = some (oldColl false) ∧
      versionHeld (mutating (oldColl false) foldReq) 4 0 = false) ∧
    versionHeld { stepping with job := { stepping.job with steps := [{ aStep with pins := [(4, 0)] }] } } 4 0 = true ∧
    collReady (mutating (oldColl true) foldReq) 4 = some (oldColl true) ∧
    ((checkpointed true).stk.checkpoints.find? (fun k => k.coll == 4 && !k.committed) = some (aCheckpoint false) ∧
      anyFreeBlock (checkpointed true) = true ∧ bufferRoom (checkpointed true) (sysCtrl (checkpointed true)) 64 = true) ∧
    anyFreeBlock (checkpointed false) = false ∧
    (Runs (restoring true) ∧ findColl (restoring true) 4 = some { aColl with restoring := true } ∧ (restoring true).stk.ready = true ∧
      (restoring true).stk.logs = [] ∧ (restoring true).stk.foldJournal = []) ∧
    ((restoring true).stk.checkpoints.filter fun x => x.coll == 4 && x.committed).getLast? = some (aCheckpoint true) ∧
    (∀ k ∈ (restoring false).stk.checkpoints, k.committed = false) := by
  refine ⟨?_, ?_, ?_, ?_, ?_, ?_, ?_, ?_⟩ <;> decide +kernel

/-- A point that moves page 2 from stack 0 to channel 0, before the move, with it begun, and past its bound. -/
def hauling (moves : List Move) (motion : Bool) (now : Nat) : State :=
  let s := { running with mem := { running.mem with pages := [⟨2, 0, 0, 0, motion⟩], modules := (List.replicate 16 none).set 0 (some ⟨16, 1, 1, true, 6400, true⟩) } }
  { s with now := now, haul := { s.haul with running := some (0, []), todo := if motion then [(3, 0, 0)] else [(2, 1, 0)], moves := moves } }
def aHaulMove : Move := ⟨0, 2, 1, 0, 1, 0, []⟩
theorem witness_pagesMove :
    (Runs (hauling [] false 0) ∧ nextMove (hauling [] false 0) 0 = some (2, 1, 0) ∧ (lowestFrame (hauling [] false 0) 1 0).isSome = true) ∧
    nextMove (hauling [] false 0) 1 = none ∧
    (Runs (hauling [aHaulMove] true 0) ∧ (hauling [aHaulMove] true 0).haul.moves.find? (·.page == 2) = some aHaulMove ∧
      past (hauling [aHaulMove] true 0) 0 50000 = false ∧
      (hauling [aHaulMove] true 0).mem.pages.find? (fun p => p.page == 2 && p.motion) = some ⟨2, 0, 0, 0, true⟩ ∧
      (hauling [aHaulMove] true 0).haul.todo ≠ []) ∧
    past (hauling [aHaulMove] true 50000) 0 50000 = true ∧ running.haul.moves = [] := by
  refine ⟨?_, ?_, ?_, ?_, ?_⟩ <;> decide +kernel

/-- Memory with page 0 on stack 0, in motion or not. -/
def mapped (moves : List Move) : State :=
  { running with mem := { running.mem with pages := [⟨0, 0, 0, 0, false⟩] }, haul := { running.haul with moves := moves } }
theorem witness_memoryIsReadAndWritten :
    (Runs (mapped []) ∧ accessAligned 1 4 = false ∧ accessAligned 8 4 = true ∧ (mapped []).pwr.state < 3 ∧
      rangeMapped (mapped []) 0x200000 4 = false ∧ rangeMapped (mapped []) 8 4 = true ∧ rangeMove (mapped []) 8 4 = none ∧
      writeClosed (mapped []) 8 4 = false ∧ locate (mapped []) 8 = some (0, 0, 8) ∧ unitUp (mapped []) 0 0 = true) ∧
    (writeClosed { mapped [] with cfg := { running.cfg with load := some ⟨0, 4096, 3, [], [], false⟩ } } 0x1FFFFFF00000000 4 = true) ∧
    rangeMove (mapped [⟨0, 0, 1, 0, 1, 0, []⟩]) 8 4 = some ⟨0, 0, 1, 0, 1, 0, []⟩ ∧
    eccRead (rawWord (mapped []) 0 0 8 ^^^ 1) = .corrected 0 false ∧ eccRead (w40 0 false) = .clean 0 false ∧
    eccRead (rawWord (mapped []) 0 0 8 ^^^ 0) = .clean 0 false ∧ eccRead (rawWord (mapped []) 0 0 8 ^^^ 3) = .uncorrectable := by
  refine ⟨?_, ?_, ?_, ?_, ?_, ?_, ?_⟩ <;> decide +kernel

/-- A Stockpile with one controller in use: a free block 0, one to erase, a data block of record block 0 and a log block; an entry waits
or is being programmed into block 3. -/
def anEntryOf (target : Option Nat) : BufEnt := ⟨0, .record, 0, 0, 64, target⟩
def someBlocks (tried mark : Bool) : List StkBlock :=
  [⟨0, 0, .free, false, false, none⟩, ⟨1, 0, .toErase, false, tried, none⟩, ⟨2, 0, .record, false, false, some 0⟩, ⟨3, 0, .log, mark, false, none⟩,
   ⟨4, 0, .free, false, false, none⟩, ⟨5, 0, .free, false, false, none⟩, ⟨6, 0, .free, false, false, none⟩, ⟨7, 0, .free, false, false, none⟩]
def stored (slc : Nat) (target : Option Nat) (tried : Bool) : State :=
  { running with stk := { running.stk with
      ready := true, pop := some aPop,
      ctrls := [{ buf := [anEntryOf target], slcTarget := slc, blocks := someBlocks tried false, logs := [⟨3, none, [], 0⟩] }, {}] } }
def formattable : State :=
  let m : Option Module := some ⟨16, 1, 1, true, 6400, true⟩
  let s := stored 0 none false
  { s with mem := { s.mem with modules := ((List.replicate 16 none).set 0 m).set 8 m } }
theorem witness_writesReachTheNand :
    (Runs (stored 100 none false) ∧ ctrlClock (stored 100 none false) 0 = true ∧ (stored 100 none false).wb.tail = 0 ∧
      (getCtrl (stored 100 none false) 0).buf.find? (fun e => e.id == 0 && e.target.isNone) = some (anEntryOf none) ∧
      slcUsed (getCtrl (stored 100 none false) 0) = 0 ∧ (slcBlock (getCtrl (stored 100 none false) 0)).isSome = true) ∧
    (dataBlock (getCtrl (stored 0 none false) 0) (bufKey (anEntryOf none)) = some ⟨2, 0, .record, false, false, some 0⟩ ∧
      logFor (stored 0 none false) (getCtrl (stored 0 none false) 0) 0 0 = some ⟨3, none, [], 0⟩) ∧
    (running.stk.ready = false ∧ (getCtrl (stored 0 (some 3) false) 0).buf.find? (·.id == 0) = some (anEntryOf (some 3)) ∧
      (getCtrl (stored 0 (some 3) false) 0).blocks.find? (·.no == 3) = some ⟨3, 0, .log, false, false, none⟩) ∧
    ((getCtrl (stored 0 none false) 0).blocks.find? (fun b => b.no == 1 && b.use == .toErase) = some ⟨1, 0, .toErase, false, false, none⟩ ∧
      (getCtrl (stored 0 none true) 0).blocks.find? (fun b => b.no == 1 && b.use == .toErase) = some ⟨1, 0, .toErase, false, true, none⟩) ∧
    (Granted asAdapter running ∧ formatCode running 1 0 = 2 ∧ formatCode running 1 0x53544B46 = 6 ∧ heldSets running = [] ∧
      running.srch.colls = []) ∧
    formatCode formattable 0 0x53544B46 = 0 ∧
    ({ stored 0 none false with stk := { (stored 0 none false).stk with formatting := some 64 } } : State).stk.pop = some aPop := by
  refine ⟨?_, ?_, ?_, ?_, ?_, ?_, ?_⟩ <;> decide +kernel

def cleaning (openNow : Bool) : State :=
  let s := stored 0 none false
  { s with stk := { s.stk with recBlocks := [⟨0, 0, 4, 0, openNow, 64⟩], records := [⟨4, 0, 0, 0, 0, [1, 2], false⟩] } }
def slcHolding (held : List BufEnt) (deltas : Nat) (pages : List Nat) (now : Nat) : State :=
  let s := stored 0 none false
  { s with now := now,
           stk := { s.stk with ctrls := [{ slcHeld := held, deltas := deltas, blocks := someBlocks false false, logs := [⟨3, some 0, pages, 0⟩],
                                           slcTarget := 640 }, {}] } }
theorem witness_theStockpileKeepsItsRoom :
    (Runs (stored 0 none false) ∧ (stored 0 none false).stk.pop = some aPop ∧ past (stored 0 none false) 0 1000000000 = false ∧
      past (slcHolding [] 0 [] 1000000000) 0 1000000000 = true) ∧
    (Runs (slcHolding [anEntryOf none] 0 [] 0) ∧ (getCtrl (slcHolding [anEntryOf none] 0 [] 0) 0).slcHeld = [anEntryOf none] ∧
      slcMoves (slcHolding [anEntryOf none] 0 [] 0) (getCtrl (slcHolding [anEntryOf none] 0 [] 0) 0) = false ∧
      slcMoves (slcHolding [anEntryOf none] 0 [] 100000000) (getCtrl (slcHolding [anEntryOf none] 0 [] 100000000) 0) = true ∧
      logFor (slcHolding [anEntryOf none] 0 [] 0) (getCtrl (slcHolding [anEntryOf none] 0 [] 0) 0) 0 0 = some ⟨3, some 0, [], 0⟩) ∧
    (mergeDue (slcHolding [] 0 [0] 0) (getCtrl (slcHolding [] 0 [0] 0) 0) ⟨3, some 0, [0], 0⟩ 0 = true ∧
      mergeDue (slcHolding [] 0 [0] 0) (getCtrl (slcHolding [] 0 [0] 0) 0) ⟨3, none, [0], 0⟩ 0 = false ∧
      blockPages (slcHolding [] 0 (List.range 16) 0) = 16 ∧
      (lunFree (getCtrl (slcHolding [] 0 [0] 0) 0) 0).isSome = true ∧
      dataBlock (getCtrl (slcHolding [] 0 [0] 0) 0) 0 = some ⟨2, 0, .record, false, false, some 0⟩) ∧
    ((getCtrl (slcHolding [] 16 [] 1000000000) 0).deltas = 16 ∧ past (slcHolding [] 16 [] 0) 0 1000000000 = false) ∧
    (Runs (cleaning false) ∧ (cleaning false).stk.recBlocks.find? (fun b => b.id == 0 && !b.openNow) = some ⟨0, 0, 4, 0, false, 64⟩ ∧
      4 * liveBytes (cleaning false) 0 < blockBytes (cleaning false) ∧
      ((cleaning false).stk.records.map fun r => (r.coll, r.slot)).Nodup) := by
  refine ⟨?_, ?_, ?_, ?_, ?_⟩ <;> decide +kernel

/-- Held in reset; a board with no clock, with no readable flash, and with an erased one. -/
def heldState : State := { running with life := .held }
def aBoard (refclk reads : Bool) : Board :=
  { refclk := refclk, pwrfail := false, straps := [0], stepping := 0, devUid := 1, keySlots := [], rollbackMin := 0, flashReads := reads, flash := [],
    unlocked := [], stacksFailed := [], modules := List.replicate 16 none, nand := aPop, mountOk := true }
def dormant : State := { running with pwr := { running.pwr with state := 4 } }
theorem witness_resetsAndBoot :
    (heldState.life = .held ∧ running.life ≠ .held ∧ (aBoard false true).refclk = false ∧ (aBoard true false).flashReads = false ∧
      (aBoard true true).pwrfail = false) ∧
    fwCheck (aBoard true true).keySlots (readBoard (aBoard true true) heldState).sec.rollbackMin
      (flashRead (readBoard (aBoard true true) heldState)) = 1 ∧
    (Granted asAdapter running ∧ running.life ≠ .flushing ∧ running.haul.moves = [] ∧ running.rst.fwLoad = none) ∧
    fwCheck running.sec.slots running.sec.rollbackMin (flashRead running) = 1 ∧
    (dormant.life = .ready ∧ dormant.pwr.state = 4 ∧ dormant.pwr.move = none) := by
  refine ⟨?_, ?_, ?_, ?_, ?_⟩ <;> decide +kernel

/-- Sub-port 0 in a state of its own, the others as at reset. -/
def onPort (p : SubPort) : State := setSub 0 p running
def trainingPort : SubPort := { state := .training, allowed := 0xFF }
def goodReport : Training := ⟨0xFF, 1, 2, 8, [64, 1024, 1024, 2048]⟩
theorem witness_subPortsTrainAndGoDown :
    (Runs (onPort trainingPort) ∧ linkOn (onPort trainingPort) 0 = true ∧ getSub (onPort trainingPort) 0 = trainingPort ∧
      goodReport.lanes &&& trainingPort.allowed ≠ 0 ∧ goodReport.farLanes = laneCount (subLanes 0 0)) ∧
    (getSub running 0).state ≠ .training ∧ (0 : Byte) &&& trainingPort.allowed = 0 ∧
    past (onPort trainingPort) 0 130000000 = false ∧ past { onPort trainingPort with now := 130000000 } 0 130000000 = true ∧
    (Granted asAdapter (onPort { state := .up }) ∧ (onPort { state := .up }).lnk.subs.length = 48 ∧
      cfgLanes (onPort { state := .up }) 0 ≠ 0 ∧ (getSub (onPort { state := .up }) 0).state = .up) := by
  refine ⟨?_, ?_, ?_, ?_, ?_, ?_⟩ <;> decide +kernel

/-- A sub-port in service with one flit unacknowledged, and flits that name it. -/
def aFlit : DataFlit := ⟨0, true, true, true, [1, 2], ⟨2, 1, 0, 0, .mresp 0 0 0⟩⟩
def upPort : SubPort := { state := .up, lanes := 0xFF, farBuf := [64, 64, 64, 64], sendSeq := 1, replay := [aFlit] }
def theirFlit (kind ctl plen seq ack : Nat) (payload : List Byte) : List Byte := flitBytes { upPort with expect := BitVec.ofNat 16 ack } kind ctl plen (BitVec.ofNat 16 seq) payload
theorem witness_flitsAreTakenInOrder :
    (Runs (onPort upPort) ∧ linkOn (onPort upPort) 0 = true ∧ getSub (onPort upPort) 0 = upPort ∧ oldestSeq upPort = 0) ∧
    (flitGood (theirFlit 1 8 2 0 0 [1, 2]) = true ∧ u8 (theirFlit 1 8 2 0 0 [1, 2]) 0 = 1 ∧ u16 (theirFlit 1 8 2 0 0 [1, 2]) 4 = 0) ∧
    u16 (theirFlit 1 8 2 5 0 [1, 2]) 4 = 5 ∧
    (flitGood (theirFlit 2 0 0 0 0 []) = true ∧ u8 (theirFlit 2 0 0 0 0 []) 0 = 2 ∧ u16 (theirFlit 2 0 0 0 0 []) 6 = 0) ∧
    (u8 (theirFlit 3 0 0 0 0 [0x0F]) 0 = 3 ∧ u8 (theirFlit 3 0 0 0 0 [0x0F]) 0x10 = 15 ∧ u8 (theirFlit 3 0 0 0 0 []) 0x10 = 0) ∧
    (flitGood (theirFlit 0 0 0 0 1 []) = true ∧ u16 (theirFlit 0 0 0 0 1 []) 6 = 1) ∧
    (flitGood [] = false ∧ (0x03 : Byte) &&& 0x01 &&& upPort.lanes ≠ 0 ∧ upPort.lanes &&& ~~~((0x03 : Byte) &&& 0x01 &&& upPort.lanes) ≠ 0) ∧
    (past (onPort upPort) 0 4000 = false ∧ past { onPort upPort with now := 4000 } 0 4000 = true) ∧
    (stalledFor { upPort with stallSince := [some 0, none, none, none] } 0 10000000 { running with now := 10000000 } = true ∧
      stalledFor { upPort with stallSince := [some 0, none, none, none] } 0 100000000 { running with now := 100000000 } = true ∧
      stalledFor upPort 0 10000000 running = false) := by
  refine ⟨by decide +kernel, ⟨flitGood_checked (by decide +kernel) (by decide +kernel) (by decide +kernel) (by decide +kernel) (by decide +kernel),
      by decide +kernel⟩, by decide +kernel,
    ⟨flitGood_checked (by decide +kernel) (by decide +kernel) (by decide +kernel) (by decide +kernel) (by decide +kernel), by decide +kernel⟩,
    by decide +kernel,
    ⟨flitGood_checked (by decide +kernel) (by decide +kernel) (by decide +kernel) (by decide +kernel) (by decide +kernel), by decide +kernel⟩,
    ?_, ?_, ?_⟩ <;> decide +kernel

/-- A device that has claimed domain 0, with answers, and with an assignment out. -/
def enumerating (e : Enum) (now : Nat) : State :=
  { running with now := now, lnk := { running.lnk with node := some 0 }, dom := { running.dom with uid := 9, enum := some e, members := [{ member 2 with state := .absent }] } }
def managing (st : MemberState) : State := { manager with dom := { manager.dom with members := [{ member 2 with state := st }] } }
theorem witness_devicesAreEnumerated :
    (Granted asAdapter running ∧ claimHere 0 0 running = true ∧ claimHere 1 0 running = false) ∧
    (claiming (enumerating ⟨0, 0, [], false, []⟩ 0) 0 = true ∧ claiming running 0 = false ∧ strapDomain running = 0 ∧ running.lnk.node = none ∧
      running.dom.strapBad = false) ∧
    (Runs (enumerating ⟨0, 0, [], true, [(7, 2, false, 0)]⟩ 0) ∧
      findMember (enumerating ⟨0, 0, [], true, [(7, 2, false, 0)]⟩ 0) 2 = some { member 2 with state := .absent }) ∧
    (past (enumerating ⟨0, 0, [(7, 1)], false, []⟩ 0) 0 10000000 = false ∧
      past (enumerating ⟨0, 0, [(7, 1)], false, []⟩ 10000000) 0 10000000 = true ∧ ((([(7, 1)] : List (W64 × Nat)).map (·.1)).Nodup)) ∧
    (past (enumerating ⟨0, 0, [], true, [(7, 2, false, 0)]⟩ 0) 0 1000000 = false ∧
      past (enumerating ⟨0, 0, [], true, [(7, 2, false, 0)]⟩ 1000000) 0 1000000 = true) ∧
    (Runs (managing .lost) ∧ isManager (managing .lost) = true ∧ (∃ m ∈ ownMembers (managing .lost), m.state = .lost) ∧
      ∀ m ∈ ownMembers (managing .up), m.state ≠ .lost) ∧
    (findMember (managing .up) 2 = some (member 2) ∧ (managing .up).job.phase = 1 ∧
      findMember (managing .removed) 2 = some { member 2 with state := .removed }) ∧
    ((findColl running 4).isNone = true ∧ (findColl worker 4).any (fun c => c.spec.shard == 3) = true) := by
  refine ⟨?_, ?_, ?_, ?_, ?_, ?_, ?_, ?_⟩ <;> decide +kernel

/-- A peer's report; a worker, a mirror and a manager with one member in a state of its own, heard last at time 0. -/
def aBeat : Heartbeat := ⟨2, 0, 0, 1, 1, 1, false, true, 0, 5000, 1⟩
def withMember (r : Nat) (st : MemberState) (now : Nat) : State :=
  { running with now := now, lnk := { running.lnk with node := some 1 },
                 dom := { running.dom with override := some r, mgrNode := some 2, members := [{ member 2 with state := st }] } }
theorem witness_membersAreHeardAndLost :
    (Runs (withMember 0 .up 0) ∧ role (withMember 0 .up 0) = 0 ∧ role running = 7 ∧ role (withMember 5 .up 0) = 5 ∧
      findMember (withMember 2 .up 0) 2 = some (member 2)) ∧
    (past (withMember 2 .up 3000000) 0 3000000 = true ∧ past (withMember 2 .up 0) 0 3000000 = false) ∧
    (findMember (withMember 2 .suspect 6000000) 2 = some { member 2 with state := .suspect } ∧
      past (withMember 2 .suspect 6000000) 0 6000000 = true ∧ role (withMember 2 .suspect 6000000) = 2) ∧
    (role (withMember 1 .suspect 6000000) = 1 ∧ (withMember 1 .suspect 6000000).dom.mgrNode = some 2 ∧
      ∀ x ∈ ownMembers (withMember 1 .suspect 6000000), x.node = 2) ∧
    (aBeat.role ≠ 1 ∧ (member 2).role = aBeat.role) ∧
    (nodeDomain 3 = nodeDomain (myNode (withMember 2 .up 0)) ∧ isManager (withMember 2 .up 0) = false ∧
      (withMember 2 .up 0).dom.mgrEpoch = 0) ∧
    (Granted asAdapter (withMember 0 .up 0) ∧ memberNo (withMember 0 .up 0) 2 = some (member 2) ∧ memberNo (withMember 0 .up 0) 3 = none) := by
  refine ⟨?_, ?_, ?_, ?_, ?_, ?_, ?_⟩ <;> decide +kernel

/-- A recorder with one record of a severity in its queue; and one with a clear running. -/
def aRec (sev : Nat) : Rec := ⟨sev, 0x60, 0, 5, 0, 0, 0, 0, 1, 0, 0, []⟩
def recording (sev : Nat) : State := { running with log := { running.log with mounted := true, queue := [aRec sev] } }
def clearing (now : Nat) : State := { running with now := now, log := { running.log with clear := some ⟨5, 3, 0, 0⟩ } }
theorem witness_recordsAreQueuedAndWritten :
    (running.log.queue.length < 1024 ∧ recorderRuns (recording 0) = true ∧ compactionDue (recording 0) = false ∧
      (ringRoom 0 ((aRec 0).bytes 0xA5).length (recording 0).log.flash).isSome = true) ∧
    (placeAt (recording 2).log.presPoint ((aRec 2).bytes 0xA5).length + ((aRec 2).bytes 0xA5).length ≤ ringBase ∧
      (recording 2).log.presFull = false ∧ ringBase < placeAt ringBase 32 + 32) ∧
    (Granted asAdapter running ∧ running.log.clear = none ∧ tokenOk running = false) ∧
    (Runs (clearing 0) ∧ past (clearing 0) 0 300000000000 = false ∧ past (clearing 300000000000) 0 300000000000 = true) := by
  refine ⟨?_, ?_, ?_, ?_⟩ <;> decide +kernel

theorem witness_clocksAndTemperatureAreWatched :
    (Runs running ∧ clockExists 0x10 = true ∧ windowOk 1 1286 = false ∧ clockExists 0x0F = false ∧ windowOk 9 500 = true ∧
      windowOk 9 0 = false) ∧
    (0x10 ∈ ({ running with clk := { running.clk with badWindow := [0x10] } } : State).clk.badWindow) ∧
    (Granted asAdapter running ∧ (0 : Nat) ∉ running.clk.fallback ∧ clockFreq 0 ≤ 6400 * (0 + 1) ∧ 6400 * (0 + 1) < clockFreq 4 ∧
      clockExists 0x40 = true) ∧
    ([10, 40].foldl max 0 = 40 ∧ [10, 240].foldl max 0 = 240) ∧ running.pwr.avsFault = false := by
  refine ⟨?_, ?_, ?_, ?_, ?_⟩ <;> decide +kernel

def moving2 (st target : Nat) : State := { running with pwr := { running.pwr with state := st, move := some (target, 0) } }
theorem witness_powerFollowsItsCommands :
    (Granted asAdapter running ∧ Granted asAdapter (moving2 0 1) ∧ running.pwr.move = none ∧ powerBusy running = false ∧ running.pwr.state = 0) ∧
    (Granted asAdapter working ∧ working.job.phase ≠ 0) ∧
    (Runs (moving2 2 3) ∧ Runs (moving2 3 4) ∧ Runs (moving2 3 2) ∧ (moving2 2 3).job.steps = []) ∧
    (Runs running ∧ running.pwr.issueFrac = 64) ∧
    ({ running with life := .flushing } : State).life = .flushing := by
  refine ⟨?_, ?_, ?_, ?_, ?_⟩ <;> decide +kernel

def programming : State := { running with rst := { running.rst with fwLoad := some (0, [1]) } }
def onI3c (busy : Option Nat) (now : Nat) : State := { running with now := now, lands := { running.lands with i3cAddr := some 8, i3cBusy := busy } }
theorem witness_firmwareHoursAndTheBoardBus :
    (Granted asAdapter running ∧ running.job.phase = 0 ∧ running.cfg.load = none ∧ running.rst.fwLoad = none ∧
      Granted asAdapter working ∧ working.job.phase ≠ 0 ∧ Granted asAdapter programming ∧ programming.rst.fwLoad ≠ none) ∧
    (Runs programming ∧ programming.rst.fwLoad = some (0, [1]) ∧ programming.haul.moves = [] ∧ Memory.wf programming) ∧
    (running.life = .ready ∧ heldState.life ≠ .ready ∧ running.lands.i3cAddr = none ∧ (onI3c none 0).lands.i3cAddr ≠ none) ∧
    ((0x10 : Byte).toNat ∈ telemetryIndexes ∧ (0x11 : Byte).toNat ∉ telemetryIndexes) ∧
    (past (onI3c (some 0) 0) 0 10000000 = false ∧ past (onI3c (some 0) 10000000) 0 10000000 = true) := by
  refine ⟨?_, ?_, ?_, ?_, ?_⟩ <;> decide +kernel

theorem witness_lateLoadsAreAbandoned :
    (Granted asAdapter staged ∧ staged.cfg.load = none ∧ staged.rst.fwLoad = none ∧ staged.cfg.prepared = none ∧ staged.cfg.shadow = none) ∧
    ((stagingRead staged (min (4096 : W32).toNat 256)).toOption.map fun h => lowest (checkFormat h (4096 : W32).toNat)) = some none ∧
    (serving loading = true ∧ loading.cfg.load = some ⟨0, 4096, 3, [], [], false⟩ ∧ 250000000 ≤ loading.now - 0) ∧
    (serving { loading with now := 249999999 } = true ∧ ({ loading with now := 249999999 } : State).now - 0 < 250000000) ∧
    serving running = true ∧ running.cfg.load = none := by decide +kernel

theorem witness_nodeAddressRegister :
    (Granted asAdapter manager ∧ manager.lnk.node = some 1) ∧ Granted asAdapter running ∧ running.lnk.node = none := by decide +kernel

/-! ### WellFormed: one ill-formed term for each check is refused, and its well-formed neighbour is not -/

theorem test_illFormed_benches : wellFormed (.issueBoundary 96) = false ∧ wellFormed (.issueBoundary 95) = true := by decide +kernel
theorem test_illFormed_slab :
    wellFormed (.tileComplete 0 8 aTile) = false ∧ wellFormed (.tileComplete 0 7 aTile) = true := by decide +kernel
theorem test_illFormed_stage : wellFormed (.stepStart 64) = false ∧ wellFormed (.stepStart 63) = true := by decide +kernel
theorem test_illFormed_descriptor :
    wellFormed (.submit 1 0 (List.replicate 127 0) []) = false ∧ wellFormed (.submit 1 0 (List.replicate 128 0) []) = true ∧
    wellFormed (.workFwd 1 ⟨5, 0, 0, 0, 0, 0, false, false⟩ [] []) = false := by decide +kernel
theorem test_illFormed_streamRecord : wellFormed (.streamRec 1 []) = false ∧ wellFormed (.streamRec 1 (List.replicate 64 0)) = true := by decide +kernel
theorem test_illFormed_journalEntry :
    wellFormed (.mirrorEntry 1 0 ⟨256, 0, 0, 0, []⟩) = false ∧ wellFormed (.mirrorEntry 1 0 ⟨1, 0, 0, 0, []⟩) = true := by decide +kernel
theorem test_illFormed_kvBlock :
    wellFormed (.kvBlock 1 ⟨0, 0, 0, 0, 0, 0, 0, 0, 0, 0, 0⟩ 1 []) = false ∧
    wellFormed (.kvBlock 1 ⟨0, 0, 65536, 0, 0, 0, 0, 0, 0, 0, 0⟩ 0 []) = false ∧
    wellFormed (.kvBlock 1 ⟨0, 0, 0, 0, 0, 0, 0, 0, 0, 0, 0⟩ 65536 []) = true := by decide +kernel
theorem test_illFormed_collection : wellFormed (.foldStart 65536) = false ∧ wellFormed (.foldStart 65535) = true := by decide +kernel
theorem test_illFormed_engine : wellFormed (.pageMoveStart 2) = false ∧ wellFormed (.pageMoveStart 1) = true := by decide +kernel
theorem test_illFormed_upset :
    wellFormed (.memRd 1 0 0 4 [⟨0, 12, 0, 1, false, 0⟩]) = false ∧ wellFormed (.memRd 1 0 0 4 [⟨1, 15, 4, 1, false, 3⟩]) = false ∧
    wellFormed (.memRd 1 0 0 4 [⟨1, 15, 4, 1, false, 2⟩]) = true := by decide +kernel
theorem test_illFormed_word :
    wellFormed (.scrub 0 0 2 []) = false ∧ wellFormed (.scrub 2 0 0 []) = false ∧ wellFormed (.scrub 1 15 4 []) = true := by decide +kernel
theorem test_illFormed_board : wellFormed (.boot (aBoard true true)) = false := by decide +kernel
theorem test_illFormed_controller : wellFormed (.eraseDone 2 0 true) = false ∧ wellFormed (.eraseDone 1 0 true) = true := by decide +kernel
theorem test_illFormed_flush : wellFormed (.flushDone [true]) = false ∧ wellFormed (.flushDone [true, false]) = true := by decide +kernel
theorem test_illFormed_port :
    wellFormed (.linkTraining 12 0 goodReport) = false ∧ wellFormed (.linkTraining 0 4 goodReport) = false ∧
    wellFormed (.linkTraining 0 0 { goodReport with buffers := [] }) = false ∧ wellFormed (.linkTraining 0 0 goodReport) = true := by decide +kernel
theorem test_illFormed_subPort : wellFormed (.ackTimer 12 0) = false ∧ wellFormed (.ackTimer 11 3) = true := by decide +kernel
theorem test_illFormed_flit :
    wellFormed (.dataFlit 0 0 [] 0) = false ∧ wellFormed (.idle 0 0 []) = false ∧ wellFormed (.idle 0 0 (List.replicate 256 0)) = true := by decide +kernel
theorem test_illFormed_channel : wellFormed (.creditStall 0 0 4) = false ∧ wellFormed (.creditStall 0 0 3) = true := by decide +kernel
theorem test_illFormed_window :
    wellFormed (.monitorWindow 256 0) = false ∧ wellFormed (.monitorWindow 16 65536) = false ∧ wellFormed (.ringCheck 65536) = false ∧
    wellFormed (.monitorWindow 16 1300) = true := by decide +kernel
theorem test_illFormed_sensors :
    wellFormed (.thermalSample [40]) = false ∧ wellFormed (.thermalSample (List.replicate 18 1024)) = false ∧
    wellFormed (.thermalSample (List.replicate 18 80)) = true := by decide +kernel

/-! ### Worked examples of the manual -/

/-- 10 R227's example: the payload of eight bytes decodes to five characters, and three maximal subparts are invalid. -/
theorem test_utf8_example :
    decodeText [0x61, 0xF1, 0x80, 0x80, 0xE1, 0x80, 0xC2, 0x62] = ([0x61, 0xFFFD, 0xFFFD, 0xFFFD, 0x62], 3) := by decide +kernel

/-- 10 R241's example: held bytes of a stop set of "###" and U+2014. -/
theorem test_stop_example :
    holdBack [[0x23, 0x23, 0x23], [0xE2, 0x80, 0x94]] [0x20, 0x23] = ([0x20], [0x23], false) ∧
    holdBack [[0x23, 0x23, 0x23], [0xE2, 0x80, 0x94]] [0x23, 0x23] = ([], [0x23, 0x23], false) ∧
    (holdBack [[0x23, 0x23, 0x23], [0xE2, 0x80, 0x94]] [0x23, 0x23, 0x23, 0x20, 0x6D]).2.2 = true := by decide +kernel

/-- 10 R245's example: five passages, the last cut to 317 tokens, fill the budget of 4,096; under DROP four are placed. -/
def exampleTemplate (cut : Bool) : Template :=
  ⟨4096, 64, cut, 128, 1024, [.literal (List.replicate 53 9), .query, .passages], List.replicate 64 [1, 2, 3], [4, 5], [6]⟩
def examplePassages : List (W64 × PackPassage) :=
  [(0, .ready (List.replicate 900 7)), (1, .ready (List.replicate 1800 7)), (2, .ready (List.replicate 700 7)),
   (3, .ready (List.replicate 1024 7)), (4, .ready (List.replicate 512 7))]
theorem test_pack_example :
    (packPrompt (exampleTemplate true) 0 (List.replicate 48 8) examplePassages).placed = [0, 1, 2, 3, 4] ∧
    (packPrompt (exampleTemplate true) 0 (List.replicate 48 8) examplePassages).tokens.length = 4096 ∧
    (packPrompt (exampleTemplate false) 0 (List.replicate 48 8) examplePassages).placed = [0, 1, 2, 3] ∧
    (packPrompt (exampleTemplate false) 0 (List.replicate 48 8) examplePassages).tokens.length = 3773 := by
  refine ⟨?_, ?_, ?_, ?_⟩ <;> decide +kernel

/-- 07 R171's example: a BF16 group of four products takes the accumulator from 0.75 to 12.75. -/
def exampleGroup : Group := mkGroup 6 6 none none [0x4040, 0x3A80, 0xBA01, 0x39FF] [0x4080, 0x3A80, 0x3A00, 0x3A00]
theorem test_group_example :
    exampleGroup.unit false = some (-21) ∧ accFloat 0x3F400000 (exampleGroup.sum false) 0 = 0x414C0000 := by decide +kernel

/-- 07 R181's example: 3.0e-5 becomes the FP16 subnormal 503 times 2^-24. -/
theorem test_subnormal_example : convFloat fmtFP16 (f32 0x37FBA882) = (503, {}) := by decide +kernel

/-- 13 R323's example: three lists merged with k 6 give five entries in this order, and two superseded copies. -/
theorem test_merge_example :
    (mergeLists true 6
      [[⟨0x3F400000, 0x0100000500000010⟩, ⟨0x3F000000, 0x0100000500000022⟩, ⟨0x80000000, 0x0200000500000031⟩],
       [⟨0x3F400000, 0x010000050000000C⟩, ⟨0x3F000000, 0x0100000500000022⟩],
       [⟨0x3F19999A, 0x0300000500000022⟩, ⟨0x00000000, 0x0100000500000008⟩]]).1.map (·.payload) =
      [0x010000050000000C, 0x0100000500000010, 0x0300000500000022, 0x0100000500000008, 0x0200000500000031] := by decide +kernel

/-- 12 R279's example: the passage id of slot 7,341,002 of shard 12 with generation 2. -/
theorem test_passageId_example : passageId 2 12 7341002 = 0x0200000C007003CA := by decide

/-- 15 R368's and R369's example: `spread` 0x0224 selects HS2, HS5 and HS9, and a word's check byte stands where R369 says. -/
theorem test_home_example :
    spreadUnits 0x0224 = [2, 5, 9] ∧
    (wordCells running 0 2 0xCA12344).2 - unitBase 0 2 = 0xC032848D1 ∧ (wordCells running 0 2 0xCA12344).1 - unitBase 0 2 = 0xCA12344 := by
  decide +kernel

/-- 16 R415's example: sixteen channels of one QLC target each leave a write buffer of 146 MiB and a bound of 69.61 ms. -/
def examplePop : NandPop := { aPop with cell := 2, targets := List.replicate 32 1, luns := 1, planes := 4, tProgSlcUs := 300, tProgUs := 6000 }
theorem test_buffer_example : bufferCap examplePop (ctrlRate examplePop 0) = 146 ∧
    flushBound examplePop (ctrlRate examplePop 0) (146 * mib) = 69611 := by decide +kernel

/-- 21's example: Bench CD2.B05 with Slabs 3 and 8 retired and its fence stands in FLT_SLAB_MAP8 at bits [59:50]. -/
theorem test_slabMap_example :
    regRead { running with flt := { running.flt with benches := running.flt.benches.set 53 ⟨0x108, true, [0, 1, 2, 8, 4, 5, 6, 7]⟩ } } 1 0x50140 = 0x0C20000000000000 := by
  decide +kernel

/-- 20 R525's example: DC9 is domain 0x49 and the core clock of CD2 is domain 0x12; 0x14 names none. -/
theorem test_clock_example : clockExists 0x49 = true ∧ clockExists 0x12 = true ∧ clockExists 0x14 = false := by decide

/-! ### Single commands -/

/-- R548: each tick adds one to the hours, and every 64th is written. -/
theorem test_hoursTick :
    exec .hoursTick { running with log := { running.log with hours := 63, hoursFlash := 0 } } =
      .next { running with log := { running.log with hours := 64, hoursFlash := 64 } } := rfl

/-- R581: a supply above 2,050 mV faults by name. -/
theorem test_supply_fault : exec (.supplyMonitorTrip 2051 0) running = .fault .aboveAbsoluteMaximum := rfl

end Sys2Proof.Tests
end

/-! SUPPORT. What every command keeps: where its meaning answers a next state, the queue, and the canonical form of the
memories. One lemma for each command, from the Keeps lemmas of the operations it is built of, in the order of the files of
the machine; then every step. -/

namespace Sys2Proof.Machine
variable {q : List Instr}

/-- Where the outcome is a next state, the queue there is `q` and the memories are in canonical form. -/
def KeepsNext (q : List Instr) (o : Host.Outcome State Fault Refusal) : Prop := ∀ t, o = .next t → Keeps q t

@[simp] theorem keepsNext_next {s : State} : KeepsNext q (.next s) ↔ Keeps q s :=
  ⟨fun h => h s rfl, fun h _ e => Host.Outcome.next.inj e ▸ h⟩

@[simp] theorem keepsNext_fault {f : Fault} : KeepsNext q (.fault f) := fun _ e => nomatch e

/-- A command that acts only while the device serves. -/
theorem keepsNext_serving {s : State} {f : State → State} (hf : ∀ s, Keeps q s → Keeps q (f s)) (hk : Keeps q s) :
    KeepsNext q (.next (whenServing s f)) := keepsNext_next.2 (whenServing_keeps f hf hk)

/-- A transaction that takes a ticket while the device serves. -/
theorem keepsNext_stamped {s : State} {f : State → Ticket → State} (hf : ∀ s t, Keeps q s → Keeps q (f s t)) (hk : Keeps q s) :
    KeepsNext q (.next (whenServing s fun s => stamped s f)) :=
  keepsNext_serving (fun _ => stamped_keeps f hf) hk

/-- A write of a command register. -/
theorem keepsNext_mgmtWrite {s : State} {c : Cmd} {offset data : W64} {f : Ticket → State → State}
    (hf : ∀ t s, Keeps q s → Keeps q (f t s)) (hk : Keeps q s) : KeepsNext q (.next (mgmtWrite c offset data f s)) :=
  keepsNext_next.2 (mgmtWrite_keeps c offset data f hf hk)

section
variable {s : State} (hk : Keeps q s)
include hk

/-! ### Plans -/

@[simp] theorem execPlanLoad_keeps (c : Cmd) (imageLen : W32) : KeepsNext q (execPlanLoad c imageLen s) :=
  keepsNext_mgmtWrite (fun _ _ => planLoad_keeps _) hk

@[simp] theorem execLoadTimeout_keeps : KeepsNext q (execLoadTimeout s) := by
  refine keepsNext_serving (fun s hk => ?_) hk
  (repeat' split) <;> simp [hk]

/-! ### Swaps -/

@[simp] theorem execSwap_keeps (c : Cmd) (first count : Byte) : KeepsNext q (execSwap c first count s) :=
  keepsNext_mgmtWrite (fun _ _ => swapCommand_keeps _ _ _) hk

@[simp] theorem execSwapInstall_keeps (bench : Nat) : KeepsNext q (execSwapInstall bench s) := by
  refine keepsNext_serving (fun s hk => ?_) hk
  dsimp only
  (repeat' split) <;> simp [hk]

@[simp] theorem execSwapTimeout_keeps : KeepsNext q (execSwapTimeout s) := by
  refine keepsNext_serving (fun s hk => ?_) hk
  split
  · refine keeps_ite ?_ hk
    have dropped : Keeps q { s with cfg.swap := none, cfg.swapCode := 0x18, cfg.swapDetail := 0 } := (keeps_mk ..).2 hk
    have reverted := revertEpoch_keeps dropped
    exact keeps_ite (jobFault_keeps 3 reverted) reverted
  · exact hk

@[simp] theorem execSetRetirement_keeps : KeepsNext q (execSetRetirement s) := by
  refine keepsNext_serving (fun s hk => ?_) hk
  split
  · refine keeps_ite hk (stamped_keeps _ (fun s t hk => event_keeps _ _ _ _ _ _ _ _ hk) ?_)
    simp [hk]
  · exact hk

@[simp] theorem execDomainSwap_keeps (c : Cmd) (first count : Byte) : KeepsNext q (execDomainSwap c first count s) :=
  keepsNext_mgmtWrite (fun _ _ => domainSwapCommand_keeps _ _ _) hk

@[simp] theorem execPrepare_keeps (src : Node) (nextEpoch : W16) : KeepsNext q (execPrepare src nextEpoch s) := by
  refine keepsNext_stamped (fun s t hk => ?_) hk
  (repeat' split) <;> simp [hk]

@[simp] theorem execPrepared_keeps (src : Node) (code : Byte) (detail : W16) (slices : List Slice) :
    KeepsNext q (execPrepared src code detail slices s) := by
  refine keepsNext_stamped (fun s t hk => ?_) hk
  dsimp only
  (repeat' split) <;> simp [hk]

@[simp] theorem execDomainSwapTimeout_keeps : KeepsNext q (execDomainSwapTimeout s) := by
  refine keepsNext_serving (fun s hk => ?_) hk
  (repeat' split) <;> simp [hk]

@[simp] theorem execCommit_keeps (src : Node) (epoch : W16) (point : Ticket) : KeepsNext q (execCommit src epoch point s) :=
  keepsNext_stamped (fun _ _ hk => by simp [hk]) hk

@[simp] theorem execAbort_keeps (src : Node) (epoch : W16) : KeepsNext q (execAbort src epoch s) := by
  refine keepsNext_stamped (fun s t hk => ?_) hk
  (repeat' split) <;> simp [hk]

@[simp] theorem execPreparedWait_keeps : KeepsNext q (execPreparedWait s) := by
  refine keepsNext_serving (fun s hk => ?_) hk
  (repeat' split) <;> simp +contextual [hk]

@[simp] theorem execPreparedRelease_keeps : KeepsNext q (execPreparedRelease s) := by
  refine keepsNext_serving (fun s hk => ?_) hk
  (repeat' split) <;> simp +contextual [hk]

/-! ### Jobs -/

@[simp] theorem execJobClose_keeps : KeepsNext q (execJobClose s) := by
  refine keepsNext_serving (fun s hk => ?_) hk
  (repeat' split) <;> simp [hk]

@[simp] theorem execCancelTicket_keeps (c : Cmd) (ticket : Ticket) : KeepsNext q (execCancelTicket c ticket s) :=
  keepsNext_mgmtWrite (fun _ _ => cancelTicket_keeps _) hk

@[simp] theorem execCancelTag_keeps (c : Cmd) (tag : BitVec 48) : KeepsNext q (execCancelTag c tag s) :=
  keepsNext_mgmtWrite (fun _ _ => cancelTag_keeps _) hk

@[simp] theorem execCancelFwd_keeps (src : Node) (ticket : Ticket) (expired : Bool) :
    KeepsNext q (execCancelFwd src ticket expired s) := by
  refine keepsNext_stamped (fun s t hk => ?_) hk
  (repeat' split) <;> simp +contextual [hk]

@[simp] theorem execSoftPass_keeps (ticket : Ticket) : KeepsNext q (execSoftPass ticket s) := by
  refine keepsNext_serving (fun s hk => ?_) hk
  split
  · exact keeps_ite hk (stamped_keeps _ (fun s t hk => setReq_keeps _ ((keeps_mk ..).2 hk)) hk)
  · exact hk

@[simp] theorem execHardPass_keeps (ticket : Ticket) : KeepsNext q (execHardPass ticket s) := by
  refine keepsNext_serving (fun s hk => ?_) hk
  split
  · exact keeps_ite hk (stamped_keeps _ (fun s t hk => by simp [hk]) hk)
  · exact hk

/-! ### Stages -/

@[simp] theorem execStepStart_keeps (stage : Nat) : KeepsNext q (execStepStart stage s) := by
  refine keepsNext_serving (fun s hk => ?_) hk
  dsimp only
  (repeat' split) <;> simp +contextual [hk]

@[simp] theorem execIssueBoundary_keeps (bench : Nat) : KeepsNext q (execIssueBoundary bench s) :=
  keepsNext_serving (fun _ hk => by simp [hk]) hk

@[simp] theorem execStepWatchdog_keeps (stage : Nat) : KeepsNext q (execStepWatchdog stage s) :=
  keepsNext_serving (fun _ hk => by simp [hk]) hk

@[simp] theorem execQueueSlotFree_keeps (stage : Nat) : KeepsNext q (execQueueSlotFree stage s) := by
  refine keepsNext_serving (fun s hk => keeps_foldl (fun s r hk => ?_) hk _) hk
  split <;> simp [hk]

@[simp] theorem execStepEnd_keeps (stage : Nat) : KeepsNext q (execStepEnd stage s) := by
  refine keepsNext_serving (fun s hk => ?_) hk
  dsimp only
  split
  · exact hk
  split
  · exact hk
  split
  · exact (keeps_mk ..).2 hk
  · refine stamped_keeps _ (fun s t hk => retirePubs_keeps (keeps_foldl (fun s o hk => ?_) ?_ _)) ((keeps_mk ..).2 hk)
    · exact deliver_keeps _ _ _ hk
    · exact stepCounts_keeps _ hk

/-! ### Assay -/

@[simp] theorem execTileComplete_keeps (bench slab : Nat) (tile : Tile) : KeepsNext q (execTileComplete bench slab tile s) :=
  keepsNext_serving (fun _ hk => by simp [hk]) hk

@[simp] theorem execIntegratedVoltageRegulatorFault_keeps (bench : Nat) :
    KeepsNext q (execIntegratedVoltageRegulatorFault bench s) :=
  keepsNext_serving (fun _ hk => by simp [hk]) hk

/-! ### Intake -/

@[simp] theorem execSubmit_keeps (src : Node) (txn : W16) (desc data : List Byte) : KeepsNext q (execSubmit src txn desc data s) := by
  refine keepsNext_serving (fun s hk => ?_) hk
  dsimp only
  (repeat' split) <;> simp [hk]

@[simp] theorem execCont_keeps (src : Node) (txn : W16) (off : Nat) (data : List Byte) :
    KeepsNext q (execCont src txn off data s) := by
  refine keepsNext_serving (fun s hk => ?_) hk
  dsimp only
  (repeat' split) <;> simp [hk]

@[simp] theorem execSubmissionTimeout_keeps (src : Node) (txn : W16) : KeepsNext q (execSubmissionTimeout src txn s) := by
  refine keepsNext_serving (fun s hk => ?_) hk
  (repeat' split) <;> simp [hk]

@[simp] theorem execMirrorEntry_keeps (src : Node) (mgrEpoch : W32) (e : JEntry) : KeepsNext q (execMirrorEntry src mgrEpoch e s) := by
  refine keepsNext_stamped (fun s t hk => ?_) hk
  refine keeps_ite (by simp [hk]) (keeps_ite (send_keeps _ _ _ _ (keeps_ite hk ?_)) hk)
  exact reclaim_keeps (mirrorTrack_keeps _ ((keeps_mk ..).2 hk))

@[simp] theorem execMirrorAck_keeps (src : Node) (pos : W64) (superseded : Bool) :
    KeepsNext q (execMirrorAck src pos superseded s) := by
  refine keepsNext_stamped (fun s t hk => ?_) hk
  (repeat' split) <;> simp [hk]

@[simp] theorem execMirrorAckTimeout_keeps (pos : W64) : KeepsNext q (execMirrorAckTimeout pos s) := by
  refine keepsNext_serving (fun s hk => ?_) hk
  dsimp only
  (repeat' split) <;> simp [hk]

@[simp] theorem execCompletionPost_keeps (ticket : Ticket) : KeepsNext q (execCompletionPost ticket s) := by
  refine keepsNext_serving (fun s hk => ?_) hk
  split
  · exact hk
  refine keeps_ite hk ?_
  split
  · exact keeps_ite hk (postRecord_keeps _ hk)
  · refine keeps_ite hk (keeps_ite ?_ (postRecord_keeps _ ?_)) <;> exact journaled_keeps _ _ (journal_keeps _ _ _ _ hk)

@[simp] theorem execCqStalled_keeps : KeepsNext q (execCqStalled s) := by
  refine keepsNext_serving (fun s hk => ?_) hk
  (repeat' split) <;> simp +contextual [hk]

@[simp] theorem execCqCtrlWrite_keeps (c : Cmd) (data : W64) : KeepsNext q (execCqCtrlWrite c data s) :=
  keepsNext_mgmtWrite (fun _ _ hk => by simp [hk]) hk

@[simp] theorem execSrCtrlWrite_keeps (c : Cmd) (data : W64) : KeepsNext q (execSrCtrlWrite c data s) :=
  keepsNext_mgmtWrite (fun _ _ hk => by simp [hk]) hk

@[simp] theorem execAlertCtrlWrite_keeps (c : Cmd) (data : W64) : KeepsNext q (execAlertCtrlWrite c data s) :=
  keepsNext_mgmtWrite (fun _ _ => alertControl_keeps _) hk

@[simp] theorem execReleaseTicket_keeps (c : Cmd) (ticket : Ticket) : KeepsNext q (execReleaseTicket c ticket s) :=
  keepsNext_mgmtWrite (fun _ _ => releaseTicket_keeps _) hk

@[simp] theorem execStreamReset_keeps (c : Cmd) (stream : BitVec 12) : KeepsNext q (execStreamReset c stream s) :=
  keepsNext_mgmtWrite (fun _ _ => streamReset_keeps _) hk

@[simp] theorem execFetch_keeps (src : Node) (txn : W16) (ticket : Ticket) : KeepsNext q (execFetch src txn ticket s) := by
  refine keepsNext_stamped (fun s t hk => ?_) hk
  (repeat' split) <;> simp +contextual [hk]

@[simp] theorem execJobOpen_keeps (c : Cmd) (jobId : W32) : KeepsNext q (execJobOpen c jobId s) :=
  keepsNext_mgmtWrite (fun _ _ => jobCommand_keeps _ _) hk

@[simp] theorem execEndDrain_keeps (c : Cmd) : KeepsNext q (execEndDrain c s) :=
  keepsNext_mgmtWrite (fun _ _ => jobCommand_keeps _ _) hk

@[simp] theorem execEndAbort_keeps (c : Cmd) : KeepsNext q (execEndAbort c s) :=
  keepsNext_mgmtWrite (fun _ _ => jobCommand_keeps _ _) hk

@[simp] theorem execForceFault_keeps (c : Cmd) : KeepsNext q (execForceFault c s) :=
  keepsNext_mgmtWrite (fun _ _ => jobCommand_keeps _ _) hk

/-! ### Fanout -/

@[simp] theorem execAnswer_keeps (src : Node) (a : Answer) : KeepsNext q (execAnswer src a s) := by
  refine keepsNext_stamped (fun s t hk => ?_) hk
  (repeat' split) <;> simp [hk]

@[simp] theorem execWorkFwd_keeps (src : Node) (h : FwdHead) (desc input : List Byte) :
    KeepsNext q (execWorkFwd src h desc input s) :=
  keepsNext_stamped (fun _ _ hk => by simp [hk]) hk

@[simp] theorem execRerankFwd_keeps (src : Node) (h : FwdHead) (desc : List Byte) (tokens : List Nat) (ids : List W64) :
    KeepsNext q (execRerankFwd src h desc tokens ids s) :=
  keepsNext_stamped (fun _ _ hk => by simp [hk]) hk

@[simp] theorem execPrompt_keeps (src : Node) (h : FwdHead) (desc : List Byte) (decodeNode : Node) (tokens : List Nat) :
    KeepsNext q (execPrompt src h desc decodeNode tokens s) :=
  keepsNext_stamped (fun _ _ hk => by simp [hk]) hk

@[simp] theorem execStreamRec_keeps (src : Node) (record : List Byte) : KeepsNext q (execStreamRec src record s) := by
  refine keepsNext_stamped (fun s t hk => ?_) hk
  (repeat' split) <;> simp [hk]

/-! ### Prompts -/

@[simp] theorem execTokenize_keeps (ticket : Ticket) : KeepsNext q (execTokenize ticket s) := by
  refine keepsNext_serving (fun s hk => ?_) hk
  (repeat' split) <;> simp [hk]

@[simp] theorem execPack_keeps (ticket : Ticket) : KeepsNext q (execPack ticket s) := by
  refine keepsNext_serving (fun s hk => ?_) hk
  (repeat' split) <;> simp +contextual [hk]

@[simp] theorem execCacheOpen_keeps (src : Node) (ticket : Ticket) (promptLen lastToken kvFormat layers : Nat) :
    KeepsNext q (execCacheOpen src ticket promptLen lastToken kvFormat layers s) := by
  refine keepsNext_stamped (fun s t hk => ?_) hk
  split
  · simp [hk]
  split
  · exact send_keeps _ _ _ _ (openCache_keeps _ _ _ _ _ hk ‹_›)
  · simp [hk]

@[simp] theorem execOpened_keeps (src : Node) (ticket : Ticket) (handle : W64) : KeepsNext q (execOpened src ticket handle s) := by
  refine keepsNext_stamped (fun s t hk => ?_) hk
  dsimp only
  (repeat' split) <;> simp [hk]

@[simp] theorem execNoRoom_keeps (src : Node) (ticket : Ticket) : KeepsNext q (execNoRoom src ticket s) := by
  refine keepsNext_stamped (fun s t hk => ?_) hk
  (repeat' split) <;> simp [hk]

@[simp] theorem execCacheOpenRetry_keeps (ticket : Ticket) : KeepsNext q (execCacheOpenRetry ticket s) := by
  refine keepsNext_serving (fun s hk => ?_) hk
  dsimp only
  (repeat' split) <;> simp [hk]

@[simp] theorem execKvBlock_keeps (src : Node) (h : KvHead) (segOff : Nat) (data : List Byte) :
    KeepsNext q (execKvBlock src h segOff data s) := by
  refine keepsNext_stamped (fun s t hk => ?_) hk
  dsimp only
  (repeat' split) <;> simp [hk]

@[simp] theorem execKvAck_keeps (src : Node) (handle : W64) (layer index : Nat) :
    KeepsNext q (execKvAck src handle layer index s) := by
  refine keepsNext_stamped (fun s t hk => ?_) hk
  dsimp only
  (repeat' split) <;> simp [hk]

@[simp] theorem execKvResendTimeout_keeps (handle : W64) (layer index : Nat) :
    KeepsNext q (execKvResendTimeout handle layer index s) := by
  refine keepsNext_serving (fun s hk => ?_) hk
  split
  · exact hk
  split
  · exact hk
  refine keeps_ite hk (keeps_ite ?_ ?_)
  · exact send_keeps _ _ _ _ (dropReq_keeps _ ((keeps_mk ..).2 hk))
  · have counted : Keeps q { s with dec.kvResend := satInc s.dec.kvResend } := (keeps_mk ..).2 hk
    dsimp only
    split
    · exact sendBlock_keeps _ _ _ (setMove_keeps _ counted)
    · exact setMove_keeps _ counted

@[simp] theorem execKvLost_keeps (src : Node) (ticket : Ticket) (handle : W64) : KeepsNext q (execKvLost src ticket handle s) := by
  refine keepsNext_stamped (fun s t hk => ?_) hk
  split
  · exact sendPrompt_keeps _ (by simp [hk])
  · exact hk

@[simp] theorem execCacheDrop_keeps (src : Node) (handle : W64) : KeepsNext q (execCacheDrop src handle s) :=
  keepsNext_stamped (fun _ _ hk => by simp [hk]) hk

@[simp] theorem execPrefillDone_keeps (src : Node) (ticket : Ticket) (handle : W64) :
    KeepsNext q (execPrefillDone src ticket handle s) := by
  refine keepsNext_stamped (fun s t hk => ?_) hk
  (repeat' split) <;> simp [hk]

@[simp] theorem execCacheIdleTimeout_keeps (handle : W64) : KeepsNext q (execCacheIdleTimeout handle s) := by
  refine keepsNext_serving (fun s hk => ?_) hk
  (repeat' split) <;> simp [hk]

/-! ### Tables -/

@[simp] theorem execGthOpen_keeps (c : Cmd) (table : W32) : KeepsNext q (execGthOpen c table s) :=
  keepsNext_mgmtWrite (fun _ _ => gthCommand_keeps _ _) hk

@[simp] theorem execGthClone_keeps (c : Cmd) (table : W32) : KeepsNext q (execGthClone c table s) :=
  keepsNext_mgmtWrite (fun _ _ => gthCommand_keeps _ _) hk

@[simp] theorem execGthAbandon_keeps (c : Cmd) (table : W32) : KeepsNext q (execGthAbandon c table s) :=
  keepsNext_mgmtWrite (fun _ _ => gthCommand_keeps _ _) hk

@[simp] theorem execGthSelect_keeps (c : Cmd) (table : W32) : KeepsNext q (execGthSelect c table s) :=
  keepsNext_mgmtWrite (fun _ _ => gthCommand_keeps _ _) hk

@[simp] theorem execBuildDone_keeps (table : W32) : KeepsNext q (execBuildDone table s) := by
  refine keepsNext_serving (fun s hk => ?_) hk
  (repeat' split) <;> simp [hk]

@[simp] theorem execTableSwitch_keeps (table : W32) : KeepsNext q (execTableSwitch table s) := by
  refine keepsNext_serving (fun s hk => ?_) hk
  (repeat' split) <;> simp [hk]

@[simp] theorem execPublishPrep_keeps (src : Node) (ticket : Ticket) (table version : W32) :
    KeepsNext q (execPublishPrep src ticket table version s) := by
  refine keepsNext_stamped (fun s t hk => ?_) hk
  dsimp only
  (repeat' split) <;> simp [hk]

@[simp] theorem execReady_keeps (src : Node) (ticket : Ticket) (table : W32) (code : Byte) :
    KeepsNext q (execReady src ticket table code s) := by
  refine keepsNext_stamped (fun s t hk => ?_) hk
  dsimp only
  (repeat' split) <;> simp [hk]

@[simp] theorem execPublishTimeout_keeps (ticket : Ticket) : KeepsNext q (execPublishTimeout ticket s) := by
  refine keepsNext_serving (fun s hk => ?_) hk
  (repeat' split) <;> simp +contextual [hk]

@[simp] theorem execPublishCommit_keeps (src : Node) (ticket : Ticket) (table version : W32) :
    KeepsNext q (execPublishCommit src ticket table version s) := by
  refine keepsNext_stamped (fun s t hk => ?_) hk
  (repeat' split) <;> simp [hk]

@[simp] theorem execRetire_keeps (src : Node) (table version : W32) : KeepsNext q (execRetire src table version s) := by
  refine keepsNext_stamped (fun s t hk => ?_) hk
  (repeat' split) <;> simp [hk]

@[simp] theorem execRegionFree_keeps (table : W32) : KeepsNext q (execRegionFree table s) := by
  refine keepsNext_serving (fun s hk => ?_) hk
  dsimp only
  (repeat' split) <;> simp [hk]

@[simp] theorem execGatherReq_keeps (src : Node) (txn : W16) (ticket : Ticket) (table version : W32) (hardLeft : W32) (index : List Nat) :
    KeepsNext q (execGatherReq src txn ticket table version hardLeft index s) := by
  refine keepsNext_stamped (fun s t hk => ?_) hk
  dsimp only
  (repeat' split) <;> simp [hk]

@[simp] theorem execGatherAns_keeps (src : Node) (ticket : Ticket) (table version : W32) (sliceFirst sliceWidth : Nat) (rows : List Byte) :
    KeepsNext q (execGatherAns src ticket table version sliceFirst sliceWidth rows s) := by
  refine keepsNext_stamped (fun s t hk => ?_) hk
  dsimp only
  (repeat' split) <;> simp [hk]

/-! ### Collections -/

@[simp] theorem execInsertAppend_keeps (ticket : Ticket) : KeepsNext q (execInsertAppend ticket s) := by
  refine keepsNext_serving (fun s hk => ?_) hk
  (repeat' split) <;> simp [hk]

@[simp] theorem execDeleteAppend_keeps (ticket : Ticket) : KeepsNext q (execDeleteAppend ticket s) := by
  refine keepsNext_serving (fun s hk => ?_) hk
  (repeat' split) <;> simp [hk]

@[simp] theorem execPendingDrain_keeps (coll : Nat) : KeepsNext q (execPendingDrain coll s) := by
  refine keepsNext_serving (fun s hk => ?_) hk
  (repeat' split) <;> simp [hk]

/-! ### Folds -/

@[simp] theorem execFoldStart_keeps (coll : Nat) : KeepsNext q (execFoldStart coll s) := by
  refine keepsNext_serving (fun s hk => ?_) hk
  (repeat' split) <;> simp [hk]

@[simp] theorem execFoldUnitCommit_keeps (coll : Nat) : KeepsNext q (execFoldUnitCommit coll s) := by
  refine keepsNext_serving (fun s hk => ?_) hk
  (repeat' split) <;> simp [hk]

@[simp] theorem execFoldPublish_keeps (coll : Nat) : KeepsNext q (execFoldPublish coll s) := by
  refine keepsNext_serving (fun s hk => ?_) hk
  dsimp only
  (repeat' split) <;> simp [hk]

@[simp] theorem execVersionRetire_keeps (coll : Nat) : KeepsNext q (execVersionRetire coll s) := by
  refine keepsNext_serving (fun s hk => ?_) hk
  (repeat' split) <;> simp [hk]

@[simp] theorem execCompactionDone_keeps (coll : Nat) : KeepsNext q (execCompactionDone coll s) := by
  refine keepsNext_serving (fun s hk => ?_) hk
  (repeat' split) <;> simp [hk]

@[simp] theorem execCheckpointCommit_keeps (coll : Nat) : KeepsNext q (execCheckpointCommit coll s) := by
  refine keepsNext_serving (fun s hk => ?_) hk
  (repeat' split) <;> simp +contextual [hk]

@[simp] theorem execCollectionRestore_keeps (coll : Nat) : KeepsNext q (execCollectionRestore coll s) := by
  refine keepsNext_serving (fun s hk => ?_) hk
  (repeat' split) <;> simp [hk]

/-! ### Haul -/

@[simp] theorem execMemRd_keeps (src : Node) (txn : W16) (addr : W64) (len : W32) (upsets : List Upset) :
    KeepsNext q (execMemRd src txn addr len upsets s) := by
  refine keepsNext_next.2 (keeps_ite (stampedIf_keeps _ (fun s t hk => ?_) hk) hk)
  simp +contextual [hk]

@[simp] theorem execMemWr_keeps (src : Node) (txn : W16) (addr : W64) (len : W32) (data : List Byte) :
    KeepsNext q (execMemWr src txn addr len data s) := by
  unfold execMemWr
  (repeat' split) <;> simp +contextual [hk]

@[simp] theorem execScrub_keeps (tier unit off : Nat) (upsets : List Upset) : KeepsNext q (execScrub tier unit off upsets s) := by
  refine keepsNext_serving (fun s hk => ?_) hk
  dsimp only
  (repeat' split) <;> simp +contextual [hk]

@[simp] theorem execPageMoveStart_keeps (engine : Nat) : KeepsNext q (execPageMoveStart engine s) := by
  refine keepsNext_serving (fun s hk => ?_) hk
  (repeat' split) <;> simp [hk]

@[simp] theorem execPageSwitch_keeps (page : Nat) : KeepsNext q (execPageSwitch page s) := by
  refine keepsNext_serving (fun s hk => ?_) hk
  (repeat' split) <;> simp [hk]

@[simp] theorem execHaulAbort_keeps (page : Nat) : KeepsNext q (execHaulAbort page s) := by
  refine keepsNext_serving (fun s hk => ?_) hk
  (repeat' split) <;> simp [hk]

/-! ### Stockpile -/

@[simp] theorem execBufferProgram_keeps (ctrl id : Nat) : KeepsNext q (execBufferProgram ctrl id s) := by
  refine keepsNext_serving (fun s hk => ?_) hk
  dsimp only
  (repeat' split) <;> simp [hk]

@[simp] theorem execProgramDone_keeps (ctrl id : Nat) (ok : Bool) : KeepsNext q (execProgramDone ctrl id ok s) := by
  refine keepsNext_serving (fun s hk => ?_) hk
  split
  · split
    · exact keeps_ite (programPassed_keeps _ _ _ hk) (markFailure_keeps _ _ (setCtrl_keeps _ _ ((keeps_mk ..).2 hk)))
    · exact hk
  · exact hk

@[simp] theorem execEraseDone_keeps (ctrl block : Nat) (ok : Bool) : KeepsNext q (execEraseDone ctrl block ok s) := by
  refine keepsNext_serving (fun s hk => ?_) hk
  (repeat' split) <;> simp [hk]

@[simp] theorem execNandRead_keeps (ctrl block page : Nat) (decodesAt : Option Nat) :
    KeepsNext q (execNandRead ctrl block page decodesAt s) := by
  refine keepsNext_serving (fun s hk => ?_) hk
  (repeat' split) <;> simp [hk]

@[simp] theorem execSlcTargetRecompute_keeps (ctrl : Nat) : KeepsNext q (execSlcTargetRecompute ctrl s) := by
  refine keepsNext_serving (fun s hk => ?_) hk
  (repeat' split) <;> simp [hk]

@[simp] theorem execSlcIdleMove_keeps (ctrl : Nat) : KeepsNext q (execSlcIdleMove ctrl s) := by
  refine keepsNext_serving (fun s hk => ?_) hk
  dsimp only
  (repeat' split) <;> simp [hk]

@[simp] theorem execLogBlockMerge_keeps (ctrl log : Nat) : KeepsNext q (execLogBlockMerge ctrl log s) := by
  refine keepsNext_serving (fun s hk => ?_) hk
  dsimp only
  (repeat' split) <;> simp [hk]

@[simp] theorem execMapDeltaProgram_keeps (ctrl : Nat) : KeepsNext q (execMapDeltaProgram ctrl s) :=
  keepsNext_serving (fun _ hk => by simp [hk]) hk

@[simp] theorem execRecordBlockClean_keeps (block : Nat) : KeepsNext q (execRecordBlockClean block s) := by
  refine keepsNext_serving (fun s hk => ?_) hk
  (repeat' split) <;> simp [hk]

@[simp] theorem execStkFormat_keeps (c : Cmd) (logPerGroup : Byte) (confirm : W32) :
    KeepsNext q (execStkFormat c logPerGroup confirm s) :=
  keepsNext_mgmtWrite (fun _ _ => stkCommand_keeps _) hk

@[simp] theorem execFormatDone_keeps (factoryBad : List (Nat × Nat)) : KeepsNext q (execFormatDone factoryBad s) := by
  refine keepsNext_serving (fun s hk => ?_) hk
  (repeat' split) <;> simp [hk]

/-! ### Clocks -/

@[simp] theorem execMonitorWindow_keeps (domain count : Nat) : KeepsNext q (execMonitorWindow domain count s) := by
  refine keepsNext_serving (fun s hk => ?_) hk
  (repeat' split) <;> simp +contextual [hk]

@[simp] theorem execRingCheck_keeps (count : Nat) : KeepsNext q (execRingCheck count s) :=
  keepsNext_serving (fun _ hk => by simp [hk]) hk

@[simp] theorem execClkOutCfgWrite_keeps (c : Cmd) (data : W64) : KeepsNext q (execClkOutCfgWrite c data s) :=
  keepsNext_mgmtWrite (fun _ _ => clkOutWrite_keeps _) hk

/-! ### Power -/

@[simp] theorem execPowerFail_keeps (heldNs : Nat) : KeepsNext q (execPowerFail heldNs s) := by
  unfold execPowerFail
  (repeat' split) <;> simp [hk]

@[simp] theorem execFlushDone_keeps (committed : List Bool) : KeepsNext q (execFlushDone committed s) := by
  simp [execFlushDone, hk]

@[simp] theorem execPwrCmd_keeps (c : Cmd) (state : BitVec 3) : KeepsNext q (execPwrCmd c state s) :=
  keepsNext_mgmtWrite (fun _ _ => powerCommand_keeps _) hk

@[simp] theorem execPwrCapWrite_keeps (c : Cmd) (data : W64) : KeepsNext q (execPwrCapWrite c data s) :=
  keepsNext_mgmtWrite (fun _ _ => capWrite_keeps _) hk

@[simp] theorem execMeterSample_keeps (milliVolt milliAmp : Nat) : KeepsNext q (execMeterSample milliVolt milliAmp s) := by
  simp [execMeterSample, hk]

@[simp] theorem execCapLoopStep_keeps : KeepsNext q (execCapLoopStep s) :=
  keepsNext_serving (fun _ hk => by simp [hk]) hk

@[simp] theorem execThermalSample_keeps (halfDegrees : List Nat) : KeepsNext q (execThermalSample halfDegrees s) := by
  unfold execThermalSample
  dsimp only
  (repeat' split) <;> simp [hk]

@[simp] theorem execAvsAdjust_keeps (senseMv : Nat) : KeepsNext q (execAvsAdjust senseMv s) :=
  keepsNext_serving (fun _ hk => by simp [hk]) hk

@[simp] theorem execAvsTimeout_keeps : KeepsNext q (execAvsTimeout s) :=
  keepsNext_serving (fun _ hk => by simp [hk]) hk

/-! ### Recorder -/

@[simp] theorem execRecordWrite_keeps (readBackOk : Bool) : KeepsNext q (execRecordWrite readBackOk s) := by
  unfold execRecordWrite
  (repeat' split) <;> simp [hk]

@[simp] theorem execRingCompaction_keeps : KeepsNext q (execRingCompaction s) := by
  refine keepsNext_next.2 (keeps_ite ?_ hk)
  split
  · have copied := keeps_foldl (f := copyRec) (fun _ r h => copyRec_keeps r h) hk
    simp [copied]
  · exact hk

@[simp] theorem execFlashTimeout_keeps : KeepsNext q (execFlashTimeout s) := by
  simp [execFlashTimeout, hk]

@[simp] theorem execLogClear_keeps (c : Cmd) : KeepsNext q (execLogClear c s) :=
  keepsNext_mgmtWrite (fun _ _ => logClear_keeps _) hk

@[simp] theorem execClearEraseDone_keeps : KeepsNext q (execClearEraseDone s) := by
  refine keepsNext_serving (fun s hk => ?_) hk
  (repeat' split) <;> simp [hk]

@[simp] theorem execLogClearTimeout_keeps : KeepsNext q (execLogClearTimeout s) := by
  refine keepsNext_serving (fun s hk => ?_) hk
  (repeat' split) <;> simp [hk]

/-! ### Link -/

@[simp] theorem execUnreachable_keeps : KeepsNext q (execUnreachable s) := by
  simp [execUnreachable, hk]

@[simp] theorem execLinkTraining_keeps (port sub : Nat) (t : Training) : KeepsNext q (execLinkTraining port sub t s) := by
  refine keepsNext_next.2 (keeps_ite hk (keeps_ite ?_ (keeps_ite ?_ (keeps_ite ?_ ?_))))
  · exact trainingFailed_keeps _ _ _ hk
  · exact trainingFailed_keeps _ _ _ hk
  · exact trainingFailed_keeps _ _ _ hk
  · exact sendWaiting_keeps _ (replayFrom_keeps _ _ (setSub_keeps _ _ hk))

@[simp] theorem execTrainingTimeout_keeps (port sub : Nat) : KeepsNext q (execTrainingTimeout port sub s) := by
  simp [execTrainingTimeout, hk]

@[simp] theorem execDataFlit_keeps (port sub : Nat) (flit : List Byte) (flagged : Byte) :
    KeepsNext q (execDataFlit port sub flit flagged s) := by
  have h := takeAck_keeps (4 * port + sub) flit hk
  refine keepsNext_next.2 (keeps_ite hk (keeps_ite (badFlit_keeps _ _ hk) (keeps_ite hk ?_)))
  refine sendWaiting_keeps _ (keeps_ite h (keeps_ite (acceptFlit_keeps _ _ h) (keeps_ite h ?_)))
  exact emit_keeps _ _ _ _ _ _ (setSub_keeps _ _ h)

@[simp] theorem execNak_keeps (port sub : Nat) (flit : List Byte) (flagged : Byte) :
    KeepsNext q (execNak port sub flit flagged s) := by
  have h := takeAck_keeps (4 * port + sub) flit hk
  refine keepsNext_next.2 (keeps_ite hk (keeps_ite (badFlit_keeps _ _ hk) (keeps_ite hk ?_)))
  exact sendWaiting_keeps _ (keeps_ite (sendFailed_keeps _ _ _ h) h)

@[simp] theorem execLaneChg_keeps (port sub : Nat) (flit : List Byte) : KeepsNext q (execLaneChg port sub flit s) := by
  unfold execLaneChg
  dsimp only
  (repeat' split) <;> simp [hk]

@[simp] theorem execIdle_keeps (port sub : Nat) (flit : List Byte) : KeepsNext q (execIdle port sub flit s) := by
  unfold execIdle
  dsimp only
  (repeat' split) <;> simp [hk]

@[simp] theorem execReplayTimeout_keeps (port sub : Nat) : KeepsNext q (execReplayTimeout port sub s) := by
  simp [execReplayTimeout, hk]

@[simp] theorem execAckTimer_keeps (port sub : Nat) : KeepsNext q (execAckTimer port sub s) := by
  simp [execAckTimer, hk]

@[simp] theorem execCreditStall_keeps (port sub vc : Nat) : KeepsNext q (execCreditStall port sub vc s) := by
  unfold execCreditStall
  dsimp only
  (repeat' split) <;> simp +contextual [hk]

@[simp] theorem execCreditStallRetrain_keeps (port sub vc : Nat) : KeepsNext q (execCreditStallRetrain port sub vc s) := by
  simp [execCreditStallRetrain, hk]

@[simp] theorem execRetrain_keeps (c : Cmd) (port : BitVec 4) (sub : BitVec 2) : KeepsNext q (execRetrain c port sub s) :=
  keepsNext_mgmtWrite (fun _ _ => portCommand_keeps _) hk

@[simp] theorem execPortReset_keeps (c : Cmd) (port : BitVec 4) (sub : BitVec 2) : KeepsNext q (execPortReset c port sub s) :=
  keepsNext_mgmtWrite (fun _ _ => portCommand_keeps _) hk

@[simp] theorem execPortDown_keeps (c : Cmd) (port : BitVec 4) (sub : BitVec 2) : KeepsNext q (execPortDown c port sub s) :=
  keepsNext_mgmtWrite (fun _ _ => portCommand_keeps _) hk

/-! ### Resets -/

@[simp] theorem execBoot_keeps (b : Board) : KeepsNext q (execBoot b s) := by
  have h := readBoard_keeps b hk
  refine keepsNext_next.2 (keeps_ite hk (keeps_ite ((keeps_mk ..).2 hk) (keeps_ite ?_ (bootService_keeps b h))))
  exact enterRecovery_keeps _ ((keeps_mk ..).2 h)

@[simp] theorem execPowerTransitionDone_keeps : KeepsNext q (execPowerTransitionDone s) := by
  unfold execPowerTransitionDone
  dsimp only
  (repeat' split) <;> simp [hk]

@[simp] theorem execPorst_keeps (heldNs : Nat) : KeepsNext q (execPorst heldNs s) := by
  simp [execPorst, hk]

@[simp] theorem execSupplyMonitorTrip_keeps (vinMv heldNs : Nat) : KeepsNext q (execSupplyMonitorTrip vinMv heldNs s) := by
  unfold execSupplyMonitorTrip
  (repeat' split) <;> simp [hk]

@[simp] theorem execWrst_keeps (heldNs : Nat) : KeepsNext q (execWrst heldNs s) := by
  simp [execWrst, hk]

@[simp] theorem execWarm_keeps (c : Cmd) : KeepsNext q (execWarm c s) :=
  keepsNext_mgmtWrite (fun _ _ => resetCommand_keeps _ _) hk

@[simp] theorem execJob_keeps (c : Cmd) : KeepsNext q (execJob c s) :=
  keepsNext_mgmtWrite (fun _ _ => resetCommand_keeps _ _) hk

@[simp] theorem execFirmwareLoad_keeps (c : Cmd) (imageLen : W32) : KeepsNext q (execFirmwareLoad c imageLen s) :=
  keepsNext_mgmtWrite (fun _ _ => fwCommand_keeps _) hk

@[simp] theorem execFirmwareProgramDone_keeps (readsBack : Bool) : KeepsNext q (execFirmwareProgramDone readsBack s) := by
  refine keepsNext_next.2 (keeps_ite hk ?_)
  split
  · exact hk
  · next img _ =>
    have spoiled := spoilImage_keeps hk
    have flash : Kept q erased (cellsPut erased 0 img (cellsClear 0 0x2000000 s.log.flash)) :=
      kept_puts _ _ (kept_clear _ _ (keeps_flash hk))
    have programmed : Keeps q { s with rst.fwLoad := none, log.flash := cellsPut erased 0 img (cellsClear 0 0x2000000 s.log.flash) } := by
      simp [flash, hk]
    refine keeps_ite ((keeps_mk ..).2 spoiled) (keeps_ite ?_ ?_)
    · exact powerOnReset_keeps programmed
    · exact warmReset_keeps _ _ programmed

@[simp] theorem execHoursTick_keeps : KeepsNext q (execHoursTick s) := by
  simp [execHoursTick, hk]

/-! ### Domain -/

@[simp] theorem execClaim_keeps (c : Cmd) (domain : BitVec 6) (slot : BitVec 10) : KeepsNext q (execClaim c domain slot s) := by
  unfold execClaim
  (repeat' split) <;> simp +contextual [hk]

@[simp] theorem execCall_keeps (src : Node) (domain : BitVec 6) (uid : W64) : KeepsNext q (execCall src domain uid s) := by
  refine keepsNext_next.2 (keeps_ite hk (stampedIf_keeps _ (fun s t hk => ?_) hk))
  exact keeps_ite hk (keeps_ite (event_keeps _ _ _ _ _ _ _ _ ((keeps_mk ..).2 hk)) (keeps_ite (send_keeps _ _ _ _ hk) hk))

@[simp] theorem execHere_keeps (src : Node) (domain : BitVec 6) (slot : BitVec 10) (uid : W64) :
    KeepsNext q (execHere src domain slot uid s) := by
  refine keepsNext_next.2 (keeps_ite hk (stampedIf_keeps _ (fun s t hk => ?_) hk))
  dsimp only
  (repeat' split) <;> simp [hk]

@[simp] theorem execEnumCollectTimeout_keeps : KeepsNext q (execEnumCollectTimeout s) := by
  refine keepsNext_next.2 (keeps_ite hk ?_)
  split
  · refine keeps_ite hk (keeps_foldl (fun s g hk => ?_) ((keeps_mk ..).2 hk) _)
    simp [hk]
  · exact hk

@[simp] theorem execAssign_keeps (src : Node) (uid : W64) (node : Node) : KeepsNext q (execAssign src uid node s) := by
  refine keepsNext_next.2 (keeps_ite hk (stampedIf_keeps _ (fun s t hk => ?_) hk))
  have h := trackSender_keeps src (trackManager_keeps src hk)
  exact keeps_ite hk (keeps_ite (takeAddress_keeps _ _ _ h) (knowMember_keeps _ _ _ h))

@[simp] theorem execAssignRetry_keeps (uid : W64) : KeepsNext q (execAssignRetry uid s) := by
  unfold execAssignRetry
  (repeat' split) <;> simp [hk]

@[simp] theorem execLostCall_keeps : KeepsNext q (execLostCall s) := by
  refine keepsNext_serving (fun s hk => ?_) hk
  (repeat' split) <;> simp [hk]

@[simp] theorem execBeatTimer_keeps : KeepsNext q (execBeatTimer s) :=
  keepsNext_serving (fun _ hk => by simp [hk]) hk

@[simp] theorem execBeat_keeps (src : Node) (h : Heartbeat) : KeepsNext q (execBeat src h s) := by
  refine keepsNext_stamped (fun s t hk => keeps_ite hk ?_) hk
  exact send_keeps _ _ _ _ (hearPeer_keeps _ _ (pairFrom_keeps _ _ (knowMember_keeps _ _ _ hk)))

@[simp] theorem execProbe_keeps (src : Node) (h : Heartbeat) : KeepsNext q (execProbe src h s) :=
  keepsNext_stamped (fun _ _ hk => keeps_ite hk (send_keeps _ _ _ _ (hearPeer_keeps src h hk))) hk

@[simp] theorem execPeerSuspect_keeps (node : Node) : KeepsNext q (execPeerSuspect node s) := by
  refine keepsNext_serving (fun s hk => ?_) hk
  split
  · exact keeps_ite (send_keeps _ _ _ _ (setMember_keeps _ hk)) hk
  · exact hk

@[simp] theorem execHeartbeatTakeover_keeps (src : Node) (h : Heartbeat) : KeepsNext q (execHeartbeatTakeover src h s) := by
  refine keepsNext_stamped (fun s t hk => keeps_ite hk ?_) hk
  refine keeps_ite (hearPeer_keeps _ _ hk) (keeps_ite hk (keeps_ite ((keeps_mk ..).2 hk) ?_))
  exact (keeps_mk ..).2 (hearPeer_keeps _ _ (knowMember_keeps _ _ _ (adoptManager_keeps _ _ hk)))

@[simp] theorem execReply_keeps (src : Node) (h : Heartbeat) : KeepsNext q (execReply src h s) := by
  refine keepsNext_stamped (fun s t hk => ?_) hk
  have known : Keeps q (if (leadNodes s).contains src then knowMember src 0 .absent s else s) :=
    keeps_ite (knowMember_keeps _ _ _ hk) hk
  dsimp only
  split
  · exact known
  · have heard := hearPeer_keeps src h known
    refine tryTakeover_keeps (mirrorFrom_keeps _ _ ?_)
    split
    · exact keeps_ite (resumeReads_keeps heard) heard
    · exact memberUp_keeps _ heard
    · exact event_keeps _ _ _ _ _ _ _ _ (memberUp_keeps _ ((keeps_mk ..).2 heard))
    · exact keeps_ite (memberReturns_keeps _ _ heard) (memberUp_keeps _ heard)
    · exact heard
    · exact heard

@[simp] theorem execPeerLost_keeps (node : Node) : KeepsNext q (execPeerLost node s) := by
  refine keepsNext_serving (fun s hk => ?_) hk
  split
  · refine keeps_ite (stamped_keeps _ (fun s t hk => ?_) hk) hk
    have counted : Keeps q { s with dom.memberLost := satInc s.dom.memberLost } := (keeps_mk ..).2 hk
    have lost (m) := event_keeps t 0x51 (peerLoc node) 0 2 9 0 [] (setMember_keeps m counted)
    exact tryTakeover_keeps (mirrorGone_keeps _ (keeps_ite (absorbLoss_keeps _ (lost _)) (lost _)))
  · exact hk

@[simp] theorem execRoster_keeps (src : Node) (entries : List (Nat × Nat)) : KeepsNext q (execRoster src entries s) :=
  keepsNext_stamped (fun _ _ hk => keeps_ite (send_keeps _ _ _ _ (joinEpoch_keeps src hk)) (send_keeps _ _ _ _ hk)) hk

@[simp] theorem execRosterOk_keeps (src : Node) : KeepsNext q (execRosterOk src s) := by
  refine keepsNext_stamped (fun s t hk => ?_) hk
  split
  · refine keeps_ite hk ?_
    have joined (m) := setMember_keeps m hk
    have owed (m) (xs : List (Ticket × Nat × Node)) := keeps_foldl (fun s x hk => sendOwed_keeps src x hk) (joined m) xs
    exact keeps_ite (keeps_ite (memberUp_keeps _ (owed _ _)) (owed _ _)) (joined _)
  · exact hk

@[simp] theorem execRosterNo_keeps (src : Node) : KeepsNext q (execRosterNo src s) := by
  refine keepsNext_stamped (fun s t hk => ?_) hk
  split
  · exact keeps_ite hk (send_keeps _ _ _ _ (setMember_keeps _ hk))
  · exact hk

@[simp] theorem execMemberRemove_keeps (c : Cmd) (member : BitVec 10) : KeepsNext q (execMemberRemove c member s) :=
  keepsNext_mgmtWrite (fun _ _ => memberCommand_keeps _) hk

/-! ### Lands -/

@[simp] theorem execEntdaa_keeps (address : BitVec 7) : KeepsNext q (execEntdaa address s) := by
  simp [execEntdaa, hk]

@[simp] theorem execI3cPrivateWrite_keeps (bytes : List Byte) : KeepsNext q (execI3cPrivateWrite bytes s) := by
  refine keepsNext_next.2 (keeps_ite hk ?_)
  (repeat' split) <;> exact (keeps_mk ..).2 hk

@[simp] theorem execI3cPrivateRead_keeps (len : Nat) : KeepsNext q (execI3cPrivateRead len s) :=
  keepsNext_next.2 (keeps_ite hk (keeps_ite ((keeps_mk ..).2 hk) ((keeps_mk ..).2 hk)))

@[simp] theorem execI3cTimeout_keeps : KeepsNext q (execI3cTimeout s) := by
  refine keepsNext_next.2 ?_
  split
  · exact keeps_ite ((keeps_mk ..).2 hk) hk
  · exact hk

@[simp] theorem execTapInstruction_keeps (op : TapOp) : KeepsNext q (execTapInstruction op s) := by
  simp [execTapInstruction, hk]

/-! ### Registers -/

@[simp] theorem execMread_keeps (c : Cmd) (offset : W64) : KeepsNext q (execMread c offset s) :=
  keepsNext_next.2 (manage_keeps _ _ _ _ (fun _ => readReg_keeps _ _) hk)

@[simp] theorem execRcRead_keeps (c : Cmd) (offset : W64) : KeepsNext q (execRcRead c offset s) :=
  keepsNext_next.2 (manage_keeps _ _ _ _ (fun _ => readReg_keeps _ _) hk)

@[simp] theorem execLogReadData_keeps (c : Cmd) : KeepsNext q (execLogReadData c s) :=
  keepsNext_next.2 (manage_keeps _ _ _ _ (fun _ => readReg_keeps _ _) hk)

@[simp] theorem execRegisterWrite_keeps (c : Cmd) (offset data : W64) : KeepsNext q (execRegisterWrite c offset data s) :=
  keepsNext_next.2 (keeps_ite hk (mgmtWrite_keeps _ _ _ _ (fun _ _ => regWrite_keeps _ _ _ _) hk))

/-- Every command that answers a next state leaves the queue and the canonical form of the memories: each arm of
`exec` is a direct call of a meaning, and has its lemma above. -/
theorem exec_keeps (i : Instr) : KeepsNext q (exec i s) := by
  cases i <;> simp [exec, hk]

end

/-! ### Every step -/

/-- A step takes the command at the front off the queue, if there is one, and leaves the memories in canonical form. -/
theorem step_keeps {s t : State} (hw : Memory.wf s) (h : step s = .next t) : Keeps s.pending.tail t := by
  unfold step at h
  split at h
  · next e =>
    obtain rfl := Host.Outcome.next.inj h
    exact tick_keeps ⟨by simp [e], hw⟩
  · next i rest e =>
    have taken : Keeps s.pending.tail { s with pending := rest } := ⟨by simp [e], hw⟩
    exact exec_keeps taken i t h

/-- Settles O1: the queue is not empty, so the step is that of its front. -/
theorem queueFrontRuns : Obligations.QueueFrontRuns := by
  intro c rest s h
  simp only [step, h]

/-- Settles O5: the commands that still wait are among those that waited before, and the memories stay canonical. -/
theorem stepKeepsSound : Obligations.StepKeepsSound := by
  intro s t hs h
  obtain ⟨wellFormed, wf⟩ := hs
  obtain ⟨queue, wf'⟩ := step_keeps wf h
  exact ⟨fun i hi => wellFormed i (List.mem_of_mem_tail (queue ▸ hi)), wf'⟩

end Sys2Proof.Machine

/-! SUPPORT. Batch steps and the end of a job: what a job fault leaves of the job, and what ISSUE_BOUNDARY, QUEUE_SLOT_FREE and
STEP_WATCHDOG do (05 R106, R119, R123). -/

namespace Sys2Proof.Machine

/-! ### Stamped transactions -/

/-- Below the limits of R135 a stamped command acts at the next ticket, on the state that has taken it. -/
theorem stamped_ticked {s : State} (h : s.wb.seq.toNat < 0xFFF000000000) (f : State → Ticket → State) :
    stamped s f = f (ticked s) (ticketNext s) := stamped_below h f

theorem whenServing_stamped {s : State} (h : Runs s) (f : State → Ticket → State) :
    whenServing s (fun s => stamped s f) = f (ticked s) (ticketNext s) := by
  rw [whenServing_pos h.1, stamped_ticked h.2]

/-! ### What leaves a job's fields as they were -/

@[simp] theorem postAlert_job (r : Rec) (s : State) : (postAlert r s).job = s.job := by
  unfold postAlert
  (repeat' split) <;> rfl

@[simp] theorem queueRec_job (r : Rec) (s : State) : (queueRec r s).job = s.job := by
  unfold queueRec
  dsimp only
  (repeat' split) <;> simp

@[simp] theorem event_job (t : Ticket) (type : Nat) (l : Loc) (code attempts action : Nat) (aux : W64) (extra : List Byte) (s : State) :
    (event t type l code attempts action aux extra s).job = s.job := queueRec_job _ s

/-- A run of operations that each leave the job leaves the job. -/
theorem foldl_job {α : Type} {f : State → α → State} (hf : ∀ s a, (f s a).job = s.job) (l : List α) (s : State) :
    (l.foldl f s).job = s.job := by
  induction l generalizing s with
  | nil => rfl
  | cons a l ih => rw [List.foldl_cons, ih, hf]

@[simp] theorem sendEach_job (dsts : List Node) (t : Ticket) (m : Msg) (s : State) : (sendEach dsts t m s).job = s.job :=
  foldl_job (fun s d => send_job d 0 t m s) dsts s

@[simp] theorem deliverStream_job (r : Req) (recs : List (List Byte)) (s : State) : (deliverStream r recs s).job = s.job := by
  unfold deliverStream
  split
  · exact foldl_job (fun s b => send_job _ 0 r.mgr (.streamRec b) s) recs s
  · rfl

@[simp] theorem closeDecode_job (r : Req) (o : Outcome) (s : State) : (closeDecode r o s).1.job = s.job := by
  unfold closeDecode
  split
  · rfl
  · dsimp only
    split <;> simp

@[simp] theorem cancelAway_job (r : Req) (expired : Bool) (s : State) : (cancelAway r expired s).job = s.job := by
  unfold cancelAway
  split <;> simp

/-- A request that ends leaves the requests in flight, and the job is otherwise as it was. -/
theorem finish_job (r : Req) (o : Outcome) (s : State) :
    (finish r o s).job = { s.job with reqs := s.job.reqs.filter (·.ticket != r.ticket) } := by
  unfold finish
  split
  · next h =>
    have gone : s.job.reqs.filter (·.ticket != r.ticket) = s.job.reqs := by
      simpa [findReq, List.filter_eq_self] using h
    rw [gone]
  · dsimp only
    (repeat' split) <;> simp

/-- The end of one request with its job changes the requests of the job alone. -/
theorem endReq_job (status detail : Nat) (r : Req) (s : State) :
    (endReq status detail r s).job = { s.job with reqs := (endReq status detail r s).job.reqs } := by
  unfold endReq
  (repeat' split) <;> simp [finish_job]

theorem endAll_job (status detail : Nat) (s : State) :
    (endAll status detail s).job = { s.job with reqs := (endAll status detail s).job.reqs } := by
  unfold endAll
  generalize sortBy _ s.job.reqs = rs
  induction rs generalizing s with
  | nil => rfl
  | cons r rs ih => rw [List.foldl_cons, ih, endReq_job]

@[simp] theorem discardSets_job (s : State) : (discardSets s).job = { s.job with steps := [] } := by
  have e := foldl_job (f := fun s (p : PlanSet) => freeObjects p.serial s) (fun _ _ => rfl) (s.cfg.active.toList ++ s.cfg.retiring.toList) s
  simp only [discardSets, e]

/-- Teardown of an open job: its requests end, it is closed with the cause given, and no step runs (R124). -/
theorem teardown_job {s : State} (cause : Nat) (t : Ticket) (h : s.job.phase ≠ 0) :
    (teardown cause t s).job =
      { (endAll 4 cause { s with job.phase := 3, job.faultCause := BitVec.ofNat 8 cause }).job with
        phase := 0, aborting := false, steps := [] } := by
  have told (l : List Node) (s : State) : (l.foldl (fun s n => send n 0 0 (.mwrite 0x30000 3) s) s).job = s.job :=
    foldl_job (fun s n => send_job n 0 0 _ s) l s
  simp only [teardown, if_neg h, told, event_job, stopFolds, discardSets_job]
  split <;> rfl

/-- A job fault of an open job closes it with the cause given, and no step runs (R123). -/
theorem jobFault_ends {s : State} (cause : Nat) (hq : s.wb.seq.toNat < 0xFFF000000000) (h : s.job.phase ≠ 0) :
    (jobFault cause s).job.phase = 0 ∧ (jobFault cause s).job.faultCause = BitVec.ofNat 8 cause ∧ (jobFault cause s).job.steps = [] := by
  rw [jobFault, stamped_ticked hq, teardown_job (s := ticked s) cause _ h]
  exact ⟨rfl, congrArg (·.faultCause) (endAll_job ..), rfl⟩

/-! ### Batches -/

theorem mem_dedup {α : Type} [BEq α] [LawfulBEq α] (xs : List α) (a : α) : a ∈ dedup xs ↔ a ∈ xs := by
  have key (acc : List α) : a ∈ xs.foldl (fun acc x => if acc.contains x then acc else acc ++ [x]) acc ↔ a ∈ acc ∨ a ∈ xs := by
    induction xs generalizing acc with
    | nil => simp
    | cons x xs ih =>
      rw [List.foldl_cons, ih]
      split
      · next h => grind
      · simp [or_assoc]
  simpa [dedup] using key []

/-- What ISSUE_BOUNDARY of a Bench makes of a step (R119): where the step issues to the Bench, the requests of its batch that
are no longer in flight are dropped from it. -/
def markDropped (bench : Nat) (s : State) (p : Step) : Step :=
  if (issueOf s p.epoch p.stages).contains bench then
    { p with dropped := dedup (p.dropped ++ p.batch.filter fun t => (findReq s t).isNone) }
  else p

theorem exec_issueBoundary {s : State} (bench : Nat) (h : serving s = true) :
    exec (.issueBoundary bench) s = .next { s with job.steps := s.job.steps.map (markDropped bench s) } :=
  congrArg _ (whenServing_pos h _)

theorem markDropped_of_notMem {bench : Nat} {s : State} {p : Step} (h : bench ∉ issueOf s p.epoch p.stages) :
    markDropped bench s p = p := if_neg (by simpa using h)

theorem mem_markDropped {bench : Nat} {s : State} {p : Step} (h : bench ∈ issueOf s p.epoch p.stages) (t : Ticket) :
    t ∈ (markDropped bench s p).dropped ↔ t ∈ p.dropped ∨ (t ∈ p.batch ∧ findReq s t = none) := by
  rw [markDropped, if_pos (by simpa using h), mem_dedup]
  simp

theorem markDropped_keeps_step (bench : Nat) (s : State) (p : Step) :
    (markDropped bench s p).start = p.start ∧ (markDropped bench s p).batch = p.batch ∧ (markDropped bench s p).outs = p.outs := by
  unfold markDropped
  split <;> exact ⟨rfl, rfl, rfl⟩

/-- One request held for a stage enters the queue of its group where the group has room, and else stays held (R31). -/
theorem exec_queueSlotFree_one {s : State} {stage : Nat} {r : Req} {p : Plan} (h : serving s = true)
    (held : s.job.reqs.filter (fun q => q.place == .held && (q.agenda.headD []).contains stage) = [r]) (hp : r.plan s = some p) :
    exec (.queueSlotFree stage) s =
      .next (if groupRoom s p (r.agenda.headD []) then setReq { r with place := .queue } s else s) := by
  refine congrArg _ ((whenServing_pos h _).trans ?_)
  simp only [held, sortBy, insertBy, List.foldl_cons, List.foldl_nil, hp]

/-- STEP_WATCHDOG ends the job where a step of the stage has run more than 50 ms (R123). -/
theorem exec_stepWatchdog {s : State} (stage : Nat) (h : serving s = true) :
    exec (.stepWatchdog stage) s =
      .next (if s.job.steps.any fun p => p.stages.contains stage && past s (p.began + 1) 50000000 then jobFault 4 s else s) := by
  simp only [exec, execStepWatchdog, whenServing_pos h]

theorem exec_stepWatchdog_late {s : State} {stage : Nat} {k : Step} (h : serving s = true) (hk : k ∈ s.job.steps)
    (hs : stage ∈ k.stages) (late : past s (k.began + 1) 50000000 = true) : exec (.stepWatchdog stage) s = .next (jobFault 4 s) := by
  rw [exec_stepWatchdog stage h, if_pos]
  exact List.any_eq_true.2 ⟨k, hk, by simp [hs, late]⟩

theorem exec_stepWatchdog_early {s : State} {stage : Nat} (h : serving s = true)
    (early : ∀ k ∈ s.job.steps, stage ∈ k.stages → past s (k.began + 1) 50000000 = false) : exec (.stepWatchdog stage) s = .next s := by
  rw [exec_stepWatchdog stage h, if_neg]
  simpa using early

/-- Settles O23, clause by clause from what each of the three commands does. -/
theorem boundariesMaskAndSlotsFree : Obligations.BoundariesMaskAndSlotsFree := by
  refine ⟨fun bench s h => ⟨_, exec_issueBoundary bench h, rfl, List.length_map _, fun p hp hb => ?_, fun p hp hb => ?_⟩,
    fun stage r p s h held hp => exec_queueSlotFree_one h held hp,
    fun stage k s h hj hk hs late => ⟨_, exec_stepWatchdog_late h.1 hk hs late, jobFault_ends 4 h.2 hj⟩,
    fun stage s h early => exec_stepWatchdog_early h early⟩
  · exact List.mem_map.2 ⟨p, hp, markDropped_of_notMem hb⟩
  · obtain ⟨start, batch, outs⟩ := markDropped_keeps_step bench s p
    exact ⟨_, List.mem_map_of_mem hp, start, batch, outs, mem_markDropped hb⟩

end Sys2Proof.Machine

/-! SUPPORT. ANSWER: what it does with the request that waits for it, and with none (06 R147; 02 R33; 14 R352). -/

namespace Sys2Proof.Machine

/-- A request of ticket `t` at its manager stands where it takes answers. -/
def takesAnswer (t : Ticket) (r : Req) : Bool :=
  r.mgr == t && (r.place == .away || r.place == .answers false || r.place == .answers true ||
    (match r.place with
     | .prefill _ _ => true
     | _ => false))

theorem exec_answer {s : State} (h : Runs s) (src : Node) (a : Answer) :
    exec (.answer src a) s = .next (match s.job.reqs.find? (takesAnswer a.ticket) with
      | some r => takeAnswer src a r (ticked s)
      | none => dupAnswer (clearOwed a.ticket a.shard src (ticked s))) :=
  congrArg _ (whenServing_stamped h _)

/-- An answer goes to the one request there is, where that takes answers under the answer's ticket. -/
theorem exec_answer_only {s : State} {r : Req} {a : Answer} (h : Runs s) (src : Node) (only : s.job.reqs = [r])
    (takes : takesAnswer a.ticket r = true) : exec (.answer src a) s = .next (takeAnswer src a r (ticked s)) := by
  rw [exec_answer h, only, List.find?_cons_of_pos takes]

theorem takesAnswer_answers {t : Ticket} {r : Req} {rr : Bool} (m : r.mgr = t) (p : r.place = .answers rr) : takesAnswer t r = true := by
  cases rr <;> simp [takesAnswer, m, p]

theorem takesAnswer_away {t : Ticket} {r : Req} (m : r.mgr = t) (p : r.place = .away) : takesAnswer t r = true := by
  simp [takesAnswer, m, p]

theorem exec_answer_nobody {s : State} {a : Answer} (h : Runs s) (src : Node) (nobody : ∀ r ∈ s.job.reqs, r.mgr ≠ a.ticket) :
    exec (.answer src a) s = .next (dupAnswer (clearOwed a.ticket a.shard src (ticked s))) := by
  have e : s.job.reqs.find? (takesAnswer a.ticket) = none :=
    List.find?_eq_none.2 fun r hr => by simp [takesAnswer, nobody r hr]
  rw [exec_answer h, e]

/-- What an answer does for a request that waits for its members' answers (R147). -/
theorem takeAnswer_answers {s : State} {r : Req} {a : Answer} {rr : Bool} (src : Node) (p : r.place = .answers rr) (ok : a.status ≠ 4) :
    takeAnswer src a r s = if r.answers.any (·.shard == a.shard) || !(r.waitFor.any (·.1 == a.shard)) then dupAnswer s
      else whenAnswered { r with answers := r.answers ++ [a] } s := by
  unfold takeAnswer
  simp only [p, if_neg ok]

theorem takeAnswer_dup {s : State} {r : Req} {a : Answer} {rr : Bool} (src : Node) (p : r.place = .answers rr) (ok : a.status ≠ 4)
    (dup : ∃ x ∈ r.answers, x.shard = a.shard) : takeAnswer src a r s = dupAnswer s := by
  rw [takeAnswer_answers src p ok, if_pos]
  simp [dup]

theorem whenAnswered_waits {s : State} {r : Req} {x : Nat × Node} (hx : x ∈ r.waitFor) (still : ∀ a ∈ r.answers, a.shard ≠ x.1) :
    whenAnswered r s = setReq r s := by
  have waits : allAnswered r = false := List.all_eq_false.2 ⟨x, hx, by simpa using still⟩
  simp only [whenAnswered, waits, Bool.false_eq_true, if_false]

/-- An answer that is waited for is kept, and the request waits on while another shard has none (R33). -/
theorem takeAnswer_kept {s : State} {r : Req} {a : Answer} {rr : Bool} {other : Nat × Node} (src : Node) (p : r.place = .answers rr)
    (ok : a.status ≠ 4) (first : ∀ x ∈ r.answers, x.shard ≠ a.shard) (waited : ∃ x ∈ r.waitFor, x.1 = a.shard)
    (ho : other ∈ r.waitFor) (still : ∀ x ∈ r.answers ++ [a], x.shard ≠ other.1) :
    takeAnswer src a r s = setReq { r with answers := r.answers ++ [a] } s := by
  rw [takeAnswer_answers src p ok, if_neg]
  · exact whenAnswered_waits (r := { r with answers := r.answers ++ [a] }) ho still
  · have asked : r.waitFor.any (·.1 == a.shard) = true := by simpa using waited
    simpa [asked] using first

theorem setReq_only {s : State} {r r' : Req} (only : s.job.reqs = [r]) (e : r.ticket = r'.ticket) :
    setReq r' s = { s with job := { s.job with reqs := [r'] } } := by
  simp [setReq, only, e]

/-- The answer of the device that runs a DECODE ends the DECODE as the answer says (R352). -/
theorem takeAnswer_decode {s : State} {r : Req} {a : Answer} (src : Node) (p : r.place = .away) (d : r.desc.type = 6) (ok : a.status ≠ 4)
    (e : r.ending = 0) :
    takeAnswer src a r s = finish { r with degraded := r.degraded ||| a.degraded, nanSeen := r.nanSeen || a.nanSeen }
      { status := a.status, detail := a.detail, result0 := a.result0, endReason := a.endReason, result := a.bytes } s := by
  simp [takeAnswer, p, d, ok, e]

/-- A request of this device that is not a DECODE being stepped ends: it is gone, and its completion holds the outcome's
status, result0, end reason and bytes. -/
theorem finish_completes {r : Req} {s : State} (o : Outcome) (hm : (findReq s r.ticket).isNone = false) (hb : r.boss = none)
    (hd : r.dec = none) :
    findReq (finish r o s) r.ticket = none ∧
      ∃ k : Comp, (finish r o s).wb.holdback = s.wb.holdback ++ [k] ∧ k.ticket = r.ticket ∧ k.status = o.status ∧
        k.result0 = o.result0 ∧ k.endReason = o.endReason ∧ k.result = o.result := by
  unfold finish
  simp only [hm, Bool.false_eq_true, if_false, closeDecode, hd, hb]
  split <;> exact ⟨by simp [findReq], _, rfl, rfl, rfl, rfl, rfl, rfl⟩

/-- Settles O32: each clause is what ANSWER does with the request that stands there. -/
theorem answersAreTakenOnce : Obligations.AnswersAreTakenOnce := by
  refine ⟨fun src a r rr other s h only m p ok first waited ho still => ?_, fun src a r rr s h only m p ok dup => ?_,
    fun src a s h nobody => ⟨_, exec_answer_nobody h src nobody, rfl, rfl, rfl⟩,
    fun src a r s h only m p d ok e hb hd => ?_⟩
  · rw [exec_answer_only h src only (takesAnswer_answers m p), takeAnswer_kept src p ok first waited ho still]
    exact congrArg _ (setReq_only (s := ticked s) only rfl)
  · rw [exec_answer_only h src only (takesAnswer_answers m p), takeAnswer_dup src p ok dup]
    rfl
  · refine ⟨_, exec_answer_only h src only (takesAnswer_away m p), ?_⟩
    have known : (findReq (ticked s) r.ticket).isNone = false := by simp [findReq, only]
    rw [takeAnswer_decode src p d ok e]
    exact finish_completes (r := { r with degraded := _, nanSeen := _ }) _ known hb hd

end Sys2Proof.Machine

/-! SUPPORT. WORK_FWD, RERANK_FWD and PROMPT: how forwarded work is refused, or begins (02 R31; 04 R96; 14 R349; 18 R474). -/

namespace Sys2Proof.Machine

/-! ### A request enters a queue (R31) -/

theorem pickReplica_single {s : State} {p : Plan} {g : List Nat} (one : g.length = 1) : pickReplica s p g = g := by
  simp [pickReplica, one]

theorem setReq_addReq {s : State} {r r' : Req} (e : r'.ticket = r.ticket) (fresh : ∀ q ∈ s.job.reqs, q.ticket ≠ r.ticket) :
    setReq r' (addReq r s) = addReq r' s := by
  have rest : s.job.reqs.map (fun q => if q.ticket = r.ticket then r' else q) = s.job.reqs :=
    (List.map_congr_left fun q hq => if_neg (fresh q hq)).trans (List.map_id' _)
  simp [setReq, addReq, e, rest]

/-- A request that is in no queue takes no room. -/
theorem groupRoom_addReq {s : State} {r : Req} (p : Plan) (g : List Nat) (out : r.place ≠ .queue) :
    groupRoom (addReq r s) p g = groupRoom s p g := by
  simp [groupRoom, queueLen, addReq, out]

/-- A request in front of a group of one stage that has room stands in that stage's queue. -/
theorem advance_queues {s : State} {r : Req} {p : Plan} {g : List Nat} {rest : List (List Nat)} (hp : r.plan s = some p)
    (ha : r.agenda = g :: rest) (one : g.length = 1) (room : groupRoom s p g = true) :
    advance phases r s = setReq { r with place := .queue } s := by
  rw [phases, advance, if_neg (by simp [ha])]
  simp only [enqueue, hp, ha, pickReplica_single one, room, if_true]

/-- A new request whose phase begins with a group of one stage that has room stands in that stage's queue. -/
theorem advance_startPhase {s : State} {r : Req} {p : Plan} {g : List Nat} {rest : List (List Nat)} (phase : Nat)
    (hp : r.plan s = some p) (ha : agendaOf p r.desc.type phase = g :: rest) (one : g.length = 1) (room : groupRoom s p g = true)
    (out : r.place ≠ .queue) (fresh : ∀ q ∈ s.job.reqs, q.ticket ≠ r.ticket) :
    advance phases (startPhase phase r (addReq r s)) (setReq r (addReq r s)) =
      addReq { r with phase := phase, agenda := g :: rest, place := .queue } s := by
  have started : startPhase phase r (addReq r s) = { r with phase := phase, agenda := g :: rest } := by
    have : r.plan (addReq r s) = some p := hp
    simp [startPhase, this, ha]
  rw [started, setReq_addReq rfl fresh,
    advance_queues (s := addReq r s) (r := { r with phase := phase, agenda := g :: rest }) hp rfl one ((groupRoom_addReq p g out).trans room)]
  exact setReq_addReq rfl fresh

/-! ### Forwarded work (R96, R474) -/

/-- Work of a lower manager epoch of this domain is refused, and counted. -/
theorem takeWork_stale {s : State} {src : Node} {h : FwdHead} (t : Ticket) (r : Req) (own : nodeDomain src = nodeDomain (myNode s))
    (low : h.mgrEpoch < s.dom.mgrEpoch.toNat) :
    takeWork src h t r s = refuseWork src h 5 { s with dom.staleEpoch := satInc s.dom.staleEpoch } := by
  simp [takeWork, own, low]

theorem adoptManager_same {s : State} {src : Node} {e : Nat} (same : e = s.dom.mgrEpoch.toNat) : adoptManager src e s = s :=
  if_neg (by omega)

/-- A forwarded SEARCH begins with its search phase. -/
theorem beginWork_search {s : State} {r : Req} {p : Plan} {c : Coll} (hp : r.plan s = some p) (phase : r.phase = 1)
    (type : r.desc.type = 2) (worker : isManager s = false) (hc : findColl s r.desc.coll = some c) (published : c.version ≠ 0) :
    beginWork r s = advance phases (startPhase 1 r s) (setReq r s) := by
  have pub : unpublished s r = false := by simp [unpublished, hc, published]
  simp [beginWork, hp, phase, type, worker, pub]

theorem beginWork_rerank {s : State} {r : Req} {p : Plan} (hp : r.plan s = some p) (phase : r.phase = 2)
    (worker : isManager s = false) : beginWork r s = advance phases (startPhase 2 r s) (setReq r s) := by
  simp [beginWork, hp, phase, worker]

/-- A forwarded prompt that names a decode device asks it to open a cache, and its request stands in the move. -/
theorem beginWork_prompt {s : State} {r : Req} {p : Plan} (hp : r.plan s = some p) (phase : r.phase = 3) (named : r.decodeNode ≠ 0) :
    beginWork r s =
      send r.decodeNode 0 r.mgr (.cacheOpen r.tokens.length (r.tokens.getLastD 0) (cacheShape s r).1 (cacheShape s r).2)
        (setMove ⟨r.ticket, r.mgr, r.decodeNode, none, r.tokens, 0, [], [], [], none, false⟩ (setReq { r with place := .move } s)) := by
  simp only [beginWork, hp, phase, if_neg named, Option.isNone_some, Bool.false_eq_true, if_false]

section
variable {s : State} {src : Node} {h : FwdHead} (same : h.mgrEpoch = s.dom.mgrEpoch.toNat) (fresh : ∀ q ∈ s.job.reqs, q.mgr ≠ h.ticket)
  (unended : ∀ x ∈ s.dec.ended, x.1 ≠ h.ticket)
include same fresh unended

/-- Work of the device's own manager epoch that is not known here is refused with no job open, and else waits for nothing but its
plan set. -/
theorem takeWork_new (t : Ticket) (r : Req) :
    takeWork src h t r s = if s.job.phase != 1 && s.job.phase != 2 then refuseWork src h 4 s
      else
        let s := if !epochComing s h.epoch && (s.cfg.prepared.map (·.epoch)) = some h.epoch then commitPrepared h.epoch t s else s
        if epochComing s h.epoch then beginWork r (addReq r s) else refuseWork src h 4 s := by
  have known : s.job.reqs.find? (fun q => q.boss.isSome && q.mgr == h.ticket && q.shard == h.shard && q.phase == r.phase) = none :=
    List.find?_eq_none.2 fun q hq => by simp [fresh q hq]
  have ended : s.dec.ended.find? (fun x => x.1 == h.ticket) = none := List.find?_eq_none.2 fun x hx => by simp [unended x hx]
  have level : ¬ h.mgrEpoch < s.dom.mgrEpoch.toNat := by omega
  simp only [takeWork, level, decide_false, Bool.and_false, Bool.false_eq_true, if_false, adoptManager_same same, ite_self, known, ended]

theorem takeWork_noJob (t : Ticket) (r : Req) (closed : s.job.phase = 0) : takeWork src h t r s = refuseWork src h 4 s := by
  rw [takeWork_new same fresh unended, if_pos (by simp [closed])]

variable {p : Plan} (job : s.job.phase = 1 ∨ s.job.phase = 2) (hp : (planSet s h.epoch).map (·.plan) = some p)
include job hp

theorem takeWork_begins (t : Ticket) (r : Req) : takeWork src h t r s = beginWork r (addReq r s) := by
  have coming : epochComing s h.epoch = true := by
    cases e : planSet s h.epoch with
    | none => simp [e] at hp
    | some _ => simp [epochComing, e]
  have run : ¬ (s.job.phase != 1 && s.job.phase != 2) = true := by rcases job with j | j <;> simp [j]
  rw [takeWork_new same fresh unended, if_neg run]
  simp [coming]

variable (t : Ticket) {r : Req} (ticket : ∀ q ∈ s.job.reqs, q.ticket ≠ r.ticket) (epoch : r.epoch = h.epoch)
include ticket epoch

/-- New work of a phase that begins with a group of one stage that has room stands in that stage's queue. -/
theorem takeWork_queues {g : List Nat} {rest : List (List Nat)} (phase : Nat)
    (begins : beginWork r (addReq r s) = advance phases (startPhase phase r (addReq r s)) (setReq r (addReq r s)))
    (ha : agendaOf p r.desc.type phase = g :: rest) (one : g.length = 1) (room : groupRoom s p g = true) (out : r.place ≠ .queue) :
    takeWork src h t r s = addReq { r with phase := phase, agenda := g :: rest, place := .queue } s := by
  rw [takeWork_begins same fresh unended job hp, begins]
  exact advance_startPhase phase (by rw [Req.plan, epoch, hp]) ha one room out ticket

/-- A new prompt that names a decode device stands in its move, and that device is asked to open a cache (R349). -/
theorem takeWork_prompt (phase : r.phase = 3) (named : r.decodeNode ≠ 0) :
    takeWork src h t r s = send r.decodeNode 0 r.mgr
      (.cacheOpen r.tokens.length (r.tokens.getLastD 0) (cacheShape (addReq r s) r).1 (cacheShape (addReq r s) r).2)
      (setMove ⟨r.ticket, r.mgr, r.decodeNode, none, r.tokens, 0, [], [], [], none, false⟩ (addReq { r with place := .move } s)) := by
  have plan : r.plan (addReq r s) = some p := by rw [← hp, ← epoch]; rfl
  rw [takeWork_begins same fresh unended job hp, beginWork_prompt plan phase named,
    setReq_addReq (r := r) (r' := { r with place := .move }) rfl ticket]

end

theorem exec_workFwd {s : State} (run : Runs s) (src : Node) (h : FwdHead) (desc input : List Byte) :
    ∃ v, exec (.workFwd src h desc input) s = .next (takeWork src h (ticketNext s)
      { fwdReq src h (ticketNext s) desc input (if Desc.type desc = 6 then 4 else 1) (ticked s) with vector := v } (ticked s)) :=
  ⟨_, congrArg _ (whenServing_stamped run _)⟩

theorem exec_rerankFwd {s : State} (run : Runs s) (src : Node) (h : FwdHead) (desc : List Byte) (tokens : List Nat) (ids : List W64) :
    exec (.rerankFwd src h desc tokens ids) s = .next (takeWork src h (ticketNext s)
      { fwdReq src h (ticketNext s) desc [] 2 (ticked s) with tokens := tokens, merged := ids.map fun x => ⟨0, x⟩ } (ticked s)) :=
  congrArg _ (whenServing_stamped run _)

theorem exec_prompt {s : State} (run : Runs s) (src : Node) (h : FwdHead) (desc : List Byte) (d : Node) (tokens : List Nat) :
    exec (.prompt src h desc d tokens) s = .next (takeWork src h (ticketNext s)
      { fwdReq src h (ticketNext s) desc [] 3 (ticked s) with tokens := tokens, decodeNode := d } (ticked s)) :=
  congrArg _ (whenServing_stamped run _)

/-- Settles O33: each clause is what `takeWork` does with the request that the command brings. -/
theorem forwardedWorkEntersItsStage : Obligations.ForwardedWorkEntersItsStage := by
  refine ⟨fun src h desc input g rest p s run worker job same type hp fresh unended hc ha one room => ?_,
    fun src h desc tokens ids g rest p s run worker job same hp fresh unended ha one room => ?_,
    fun src d h desc tokens p s run named job same hp fresh unended => ?_,
    fun src h desc input s run own low => ?_, fun src h desc input s run same fresh unended closed => ?_⟩
  · obtain ⟨c, hc, published⟩ := hc
    obtain ⟨v, e⟩ := exec_workFwd run src h desc input
    have phase : (if Desc.type desc = 6 then 4 else 1) = 1 := by simp [type]
    have queued := takeWork_queues (s := ticked s) (src := src) same (fun q hq => (fresh q hq).2) unended job hp (ticketNext s)
      (r := { fwdReq src h (ticketNext s) desc input (if Desc.type desc = 6 then 4 else 1) (ticked s) with vector := v })
      (fun q hq => (fresh q hq).1) rfl 1 (beginWork_search hp phase type worker hc published) (type ▸ ha) one room nofun
    exact ⟨_, _, e.trans (congrArg _ queued), rfl, rfl, rfl, rfl, rfl, rfl, rfl, rfl, rfl, rfl⟩
  · have queued := takeWork_queues (s := ticked s) (src := src) same (fun q hq => (fresh q hq).2) unended job hp (ticketNext s)
      (r := { fwdReq src h (ticketNext s) desc [] 2 (ticked s) with tokens := tokens, merged := ids.map fun x => ⟨0, x⟩ })
      (fun q hq => (fresh q hq).1) rfl 2 (beginWork_rerank hp rfl worker) ha one room nofun
    refine ⟨_, _, (exec_rerankFwd run ..).trans (congrArg _ queued), rfl, rfl, rfl, rfl, rfl, ?_, rfl, rfl⟩
    simp [Function.comp_def]
  · have moved := takeWork_prompt (s := ticked s) (src := src) same (fun q hq => (fresh q hq).2) unended job hp (ticketNext s)
      (r := { fwdReq src h (ticketNext s) desc [] 3 (ticked s) with tokens := tokens, decodeNode := d })
      (fun q hq => (fresh q hq).1) rfl rfl named
    exact ⟨_, _, _, _, (exec_prompt run ..).trans (congrArg _ moved), rfl, rfl, rfl, rfl, rfl, rfl⟩
  · obtain ⟨v, e⟩ := exec_workFwd run src h desc input
    exact ⟨_, _, e.trans (congrArg _ (takeWork_stale _ _ own low)), rfl, rfl, rfl, rfl, rfl⟩
  · obtain ⟨v, e⟩ := exec_workFwd run src h desc input
    exact ⟨_, _, e.trans (congrArg _ (takeWork_noJob (s := ticked s) same fresh unended _ _ closed)), rfl, rfl, rfl, rfl⟩

end Sys2Proof.Machine

/-! SUPPORT. PLAN_LOAD and LOAD_TIMEOUT: how a load begins, how it is refused, and how it is given up (03 R69, R70, R74; 04 R94); and
the step on an empty queue, which is the tick in which a load moves on. -/

namespace Sys2Proof.Machine

/-! ### PLAN_LOAD (R69 steps 1 and 2, R74) -/

/-- No load, no firmware load and no prepared swap is in progress, and no shadow set stands. -/
structure LoadFree (s : State) : Prop where
  load : s.cfg.load = none
  firmware : s.rst.fwLoad = none
  prepared : s.cfg.prepared = none
  shadow : s.cfg.shadow = none

theorem dropShadow_none {s : State} (h : s.cfg.shadow = none) : dropShadow s = s := by
  simp only [dropShadow, h]

theorem planLoad_busy {s : State} (n : Nat) (busy : s.cfg.load.isSome ∨ s.rst.fwLoad.isSome ∨ s.cfg.prepared.isSome) :
    planLoad n s = { s with cfg.loadCode := 1 } :=
  if_pos (by simpa [or_assoc] using busy)

/-- The load results are cleared. -/
def resultsCleared (s : State) : State := { s with cfg.loadCode := 0, cfg.loadDetail := 0, cfg.rejectOffset := 0 }

/-- The staged header is read and checked, and where it passes a load stands at step 3 (R69 step 2). -/
def checkHeader (n : Nat) (s : State) : State :=
  match stagingRead s (min n 256) with
  | .error o => loadFail 0x1A 2 o s
  | .ok head =>
    match lowest (checkFormat head n) with
    | some r => loadFail r.code r.detail r.off s
    | none => { s with cfg.load := some ⟨s.now, n, 3, [], [], false⟩ }

theorem checkHeader_passes {s : State} {n : Nat} {head : List Byte} (staged : stagingRead s (min n 256) = .ok head)
    (format : lowest (checkFormat head n) = none) :
    checkHeader n s = { s with cfg.load := some ⟨s.now, n, 3, [], [], false⟩ } := by
  simp only [checkHeader, staged, format]

theorem planLoad_free {s : State} (free : LoadFree s) (n : Nat) : planLoad n s = checkHeader n (resultsCleared s) := by
  obtain ⟨load, firmware, prepared, shadow⟩ := free
  have idle : planLoad n s = checkHeader n (dropShadow (resultsCleared s)) := if_neg (by simp [load, firmware, prepared])
  rw [idle, dropShadow_none (s := resultsCleared s) shadow]

/-- The staged image is read from memory, which neither the answer to a write nor the load results are part of. -/
theorem stagingRead_taken (c : Cmd) (offset data : W64) (s : State) (n : Nat) :
    stagingRead (resultsCleared (taken c offset data s)) n = stagingRead s n := rfl

/-- A granted PLAN_LOAD is answered and stamped, and then takes effect. -/
theorem exec_planLoad {c : Cmd} {s : State} (g : Granted c s) (n : W32) :
    exec (.planLoad c n) s = .next (planLoad n.toNat (taken c rCfgLoad (hi32 n ||| 1) s)) :=
  congrArg _ (mgmtWrite_granted g (by decide) (by decide) _ _)

theorem exec_planLoad_begins {c : Cmd} {s : State} (g : Granted c s) (free : LoadFree s) {n : W32} {head : List Byte}
    (staged : stagingRead s (min n.toNat 256) = .ok head) (format : lowest (checkFormat head n.toNat) = none) :
    exec (.planLoad c n) s = .next { taken c rCfgLoad (hi32 n ||| 1) s with
      cfg := { s.cfg with load := some ⟨s.now, n.toNat, 3, [], [], false⟩, loadCode := 0, loadDetail := 0, rejectOffset := 0 } } := by
  have free' : LoadFree (taken c rCfgLoad (hi32 n ||| 1) s) := ⟨free.load, free.firmware, free.prepared, free.shadow⟩
  rw [exec_planLoad g, planLoad_free free', checkHeader_passes ((stagingRead_taken ..).trans staged) format]
  rfl

/-! ### LOAD_TIMEOUT (R70) -/

/-- What abandoning a load leaves where the code is not that of a failing signature. -/
theorem loadFail_unsigned {code : Nat} (detail off : Nat) (s : State) (h : code ≠ 3) :
    loadFail code detail off s = { s with
      cfg := { s.cfg with load := none, shadow := none, loadCode := BitVec.ofNat 8 code, loadDetail := BitVec.ofNat 16 detail,
                          rejectOffset := BitVec.ofNat 32 off } } := by
  simp only [loadFail, if_neg h]

theorem past_iff {s : State} {t bound : Nat} : past s t bound = true ↔ t + bound ≤ s.now := decide_eq_true_iff

theorem exec_loadTimeout_load {s : State} (run : serving s = true) {l : Load} (hl : s.cfg.load = some l) :
    exec .loadTimeout s = .next (if past s l.began 250000000 then loadFail 0x0E l.step 0 s else s) :=
  congrArg _ ((whenServing_pos run _).trans (by simp only [hl]))

theorem exec_loadTimeout_late {s : State} (run : serving s = true) {l : Load} (hl : s.cfg.load = some l)
    (late : past s l.began 250000000 = true) :
    exec .loadTimeout s = .next { s with
      cfg := { s.cfg with load := none, shadow := none, loadCode := 0x0E, loadDetail := BitVec.ofNat 16 l.step, rejectOffset := 0 } } := by
  rw [exec_loadTimeout_load run hl, if_pos late, loadFail_unsigned l.step 0 s (by decide : 0x0E ≠ 3)]
  rfl

theorem exec_loadTimeout_early {s : State} (run : serving s = true) {l : Load} (hl : s.cfg.load = some l)
    (early : ¬ past s l.began 250000000 = true) : exec .loadTimeout s = .next s := by
  rw [exec_loadTimeout_load run hl, if_neg early]

theorem exec_loadTimeout_none {s : State} (run : serving s = true) (hl : s.cfg.load = none) : exec .loadTimeout s = .next s :=
  congrArg _ ((whenServing_pos run _).trans (by simp only [hl]))

/-! ### An empty queue (log 3) -/

theorem step_empty {s : State} (empty : s.pending = []) : step s = .next (tick s) := by
  simp only [step, empty]

/-! ### The statements -/

/-- Settles O11: each clause is what PLAN_LOAD does where a load may begin and where one may not, and LOAD_TIMEOUT at its bound. -/
theorem planLoadBegins : Obligations.PlanLoadBegins :=
  ⟨fun _ _ _ _ g load firmware prepared shadow staged format => exec_planLoad_begins g ⟨load, firmware, prepared, shadow⟩ staged format,
    fun _ n _ g busy => (exec_planLoad g n).trans (congrArg _ (planLoad_busy _ busy)),
    fun _ _ run hl late => exec_loadTimeout_late run hl late⟩

/-- Settles O2: with no command at the front, the step is the tick. -/
theorem idleStepTicks : Obligations.IdleStepTicks := fun _ empty => step_empty empty

/-- Settles O58: the load that PLAN_LOAD begins began at the write, and LOAD_TIMEOUT acts on a load only once its bound has passed. -/
theorem lateLoadsAreAbandoned : Obligations.LateLoadsAreAbandoned := by
  refine ⟨fun c n head s g load firmware prepared shadow staged format =>
      ⟨_, exec_planLoad_begins g ⟨load, firmware, prepared, shadow⟩ staged format, _, rfl, rfl⟩,
    fun l s run hl late => exec_loadTimeout_late run hl (past_iff.2 ?_),
    fun l s run hl early => exec_loadTimeout_early run hl (mt past_iff.1 ?_),
    fun s run hl => exec_loadTimeout_none run hl⟩
  · omega
  · omega

end Sys2Proof.Machine

/-! SUPPORT. The boundary of a swap on one device and the retirement of a set (04 R82, R86), and a member's part in a domain
swap: it prepares, waits, swaps at COMMIT or drops the swap (04 R94, R95, R98). -/

namespace Sys2Proof.Machine

/-! ### What a swap's checks read -/

@[simp] theorem swapCheck_ticked (s : State) (first count : Nat) : swapCheck (ticked s) first count = swapCheck s first count := rfl

@[simp] theorem swapCheck_taken (c : Cmd) (offset data : W64) (s : State) (first count : Nat) :
    swapCheck (taken c offset data s) first count = swapCheck s first count := rfl

@[simp] theorem mySlices_ticked (s : State) : mySlices (ticked s) = mySlices s := rfl

/-! ### A swap begins (R82 steps 2 to 5) -/

/-- Where no request is in flight, none waits for an epoch. -/
theorem wakeEpoch_idle {s : State} (idle : s.job.reqs = []) : wakeEpoch s = s := by
  simp only [wakeEpoch, idle, List.filter_nil, sortBy, List.foldl_nil]

theorem swapCommand_passes {s : State} {first count : Nat} (t : Ticket) (prepared : s.cfg.prepared = none)
    (domain : s.cfg.domSwap = none) (passes : swapCheck s first count = none) :
    swapCommand t first count s = swapStart t first count none s := by
  simp [swapCommand, prepared, domain, passes]

section
variable {s : State} {b : PlanSet} (shadow : s.cfg.shadow = some b)
include shadow

/-- With no job open the boundary comes at once (R86). -/
theorem swapStart_noJob (t : Ticket) (first count : Nat) (point : Option Ticket) (noJob : s.job.phase = 0) :
    swapStart t first count point s =
      swapBoundary first count point { s with cfg.swapCode := 0, cfg.swapDetail := 0 } := by
  simp [swapStart, shadow, noJob]

/-- With a job open the swap waits for the Benches that the shadow reserves (R82 step 4). -/
theorem swapStart_waits (t : Ticket) (first count : Nat) (point : Option Ticket) (job : s.job.phase ≠ 0)
    (reserves : reservedBenches b ≠ []) :
    swapStart t first count point s =
      { s with cfg := { s.cfg with swapCode := 0, swapDetail := 0, swap := some ⟨t, s.now, first, count, [], point⟩ } } := by
  have waits : (decide (s.job.phase = 0) || (reservedBenches b).isEmpty) = false :=
    Bool.or_eq_false_iff.2 ⟨decide_eq_false job, List.isEmpty_eq_false_iff.2 reserves⟩
  simp only [swapStart, shadow, waits, Bool.false_eq_true, if_false]

/-- The boundary of a first set, with no request to wake and no page to move: the shadow is active under the epoch that follows. -/
theorem swapBoundary_firstSet {first count : Nat} (point : Option Ticket) (below : s.wb.seq.toNat < 0xFFF000000000)
    (noJob : s.job.phase = 0) (noSet : s.cfg.active = none) (idle : s.job.reqs = []) (unmoved : namedMoves b.plan first count = []) :
    swapBoundary first count point s = { ticked s with
      cfg := { s.cfg with active := some { b with epoch := (s.cfg.setEpoch.toNat + 1) % 65536 }, shadow := none, swap := none,
                          setEpoch := BitVec.ofNat 16 ((s.cfg.setEpoch.toNat + 1) % 65536), swapCode := 0x10, swapDetail := 0,
                          swapTicket := point.getD (ticketNext s) },
      haul := { s.haul with points := [] } } := by
  have noPoints : pointsOf (namedMoves b.plan first count) = [] := by rw [unmoved]; rfl
  simp only [swapBoundary, shadow, stamped_ticked below, ticked_job, ticked_cfg, noJob, noSet, noPoints, if_true, List.isEmpty_nil]
  exact wakeEpoch_idle idle

end

theorem exec_swap {c : Cmd} {s : State} (g : Granted c s) (first count : Byte) :
    exec (.swap c first count) s =
      .next (swapCommand (ticketNext s) first.toNat count.toNat (taken c rCfgSwap (swapData false first count) s)) :=
  congrArg _ (mgmtWrite_granted g (by decide) (by decide) _ _)

theorem exec_swap_passes {c : Cmd} {s : State} (g : Granted c s) {first count : Byte} (prepared : s.cfg.prepared = none)
    (domain : s.cfg.domSwap = none) (passes : swapCheck s first.toNat count.toNat = none) :
    exec (.swap c first count) s =
      .next (swapStart (ticketNext s) first.toNat count.toNat none (taken c rCfgSwap (swapData false first count) s)) := by
  rw [exec_swap g, swapCommand_passes (s := taken c rCfgSwap (swapData false first count) s) _ prepared domain passes]

/-! ### SET_RETIREMENT (R82 step 6) -/

theorem exec_setRetirement_done {s : State} {p : PlanSet} (run : Runs s) (retiring : s.cfg.retiring = some p)
    (done : epochBusy s p.epoch = false) :
    exec .setRetirement s = .next (event (ticketNext s) 0x61 devLoc p.epoch 1 0 0 []
      (ticked { freeObjects p.serial s with cfg := { s.cfg with retiring := none } })) := by
  refine congrArg _ ((whenServing_pos run.1 _).trans ?_)
  simp only [retiring, done, Bool.false_eq_true, if_false]
  exact stamped_ticked (s := { freeObjects p.serial s with cfg := { s.cfg with retiring := none } }) run.2 _

/-- Settles O13: SWAP begins a swap that reaches its boundary at once, and SET_RETIREMENT ends a set that nothing runs under. -/
theorem swapBoundaryInstallsTheShadow : Obligations.SwapBoundaryInstallsTheShadow := by
  refine ⟨fun c first count b s g below prepared domain passes shadow noJob noSet idle unmoved => ?_,
    fun p s run retiring done => exec_setRetirement_done run retiring done⟩
  have next : (taken c rCfgSwap (swapData false first count) s).wb.seq.toNat < 0xFFF000000000 := by
    rw [taken_wb, BitVec.toNat_add]
    exact Nat.lt_of_le_of_lt (Nat.mod_le _ _) below
  rw [exec_swap_passes g prepared domain passes,
    swapStart_noJob (s := taken c rCfgSwap (swapData false first count) s) shadow _ _ _ none noJob,
    swapBoundary_firstSet (s := { taken c rCfgSwap (swapData false first count) s with cfg.swapCode := 0, cfg.swapDetail := 0 })
      shadow none next noJob noSet idle unmoved]
  rfl

/-! ### PREPARE (R94 step 3) -/

section
variable {s : State} (run : Runs s)
include run

theorem exec_prepare_passes (src : Node) (e : W16) (free : s.cfg.prepared = none) (passes : swapCheck s 0 0 = none) :
    exec (.prepare src e) s = .next (send src 0 (ticketNext s) (.prepared 0x16 0 (mySlices s)) { ticked s with
      cfg := { s.cfg with prepared := some ⟨e.toNat, s.now, false⟩, swapCode := 0x16 } }) := by
  refine congrArg _ ((whenServing_stamped run _).trans ?_)
  simp only [ticked_cfg, free, Option.isSome_none, Bool.false_eq_true, if_false, swapCheck_ticked, passes, mySlices_ticked, ticked_now]

theorem exec_prepare_busy (src : Node) (e : W16) (held : s.cfg.prepared.isSome) :
    exec (.prepare src e) s = .next (send src 0 0 (.prepared 0x12 0 (mySlices s)) (ticked s)) := by
  refine congrArg _ ((whenServing_stamped run _).trans ?_)
  simp only [ticked_cfg, held, if_true, mySlices_ticked]

/-! ### ABORT and COMMIT (R94 step 6, R95, R98) -/

theorem exec_commit (src : Node) (e : W16) (point : Ticket) :
    exec (.commit src e point) s = .next (commitPrepared e.toNat point (ticked s)) :=
  congrArg _ (whenServing_stamped run _)

variable {p : PreparedSwap} (prepared : s.cfg.prepared = some p)
include prepared

theorem exec_abort (src : Node) (e : W16) :
    exec (.abort src e) s =
      .next (if p.epoch = e.toNat then { ticked s with cfg := { s.cfg with prepared := none } } else ticked s) := by
  refine congrArg _ ((whenServing_stamped run _).trans ?_)
  simp only [ticked_cfg, prepared]

/-! ### The waits of a prepared member (R98) -/

theorem exec_preparedWait_late (late : past s p.since 100000000 = true) (unrecorded : p.waited = false) :
    exec .preparedWait s = .next (event (ticketNext s) 0x55 devLoc 0 1 0 0 []
      (ticked { s with cfg := { s.cfg with prepared := some { p with waited := true } } })) := by
  refine congrArg _ ((whenServing_pos run.1 _).trans ?_)
  simp only [prepared, late, unrecorded, Bool.not_false, Bool.and_self, if_true]
  exact stamped_ticked (s := { s with cfg := { s.cfg with prepared := some { p with waited := true } } }) run.2 _

theorem exec_preparedRelease_late (late : past s p.since 1000000000 = true) :
    exec .preparedRelease s = .next (event (ticketNext s) 0x55 devLoc 1 1 0 0 []
      (ticked { s with cfg := { s.cfg with prepared := none, lateEpoch := some p.epoch } })) := by
  refine congrArg _ ((whenServing_pos run.1 _).trans ?_)
  simp only [prepared, late, if_true]
  exact stamped_ticked (s := { s with cfg := { s.cfg with prepared := none, lateEpoch := some p.epoch } }) run.2 _

end

/-- Settles O15: one clause for each way that a prepared swap begins, is refused, is dropped or waits. -/
theorem memberPreparesAndWaits : Obligations.MemberPreparesAndWaits :=
  ⟨fun src e _ run free passes => exec_prepare_passes run src e free passes,
    fun src e _ run held => exec_prepare_busy run src e held,
    fun src e _ _ run prepared => exec_abort run prepared src e,
    fun _ _ run prepared late unrecorded => exec_preparedWait_late run prepared late unrecorded,
    fun _ _ run prepared late => exec_preparedRelease_late run prepared late⟩

theorem commitPrepared_same {s : State} {p : PreparedSwap} {e : Nat} (point : Ticket) (prepared : s.cfg.prepared = some p)
    (same : p.epoch = e) : commitPrepared e point s = swapStart point 0 0 (some point) { s with cfg.prepared := none } := by
  simp only [commitPrepared, prepared, if_pos same]

/-- A device with nothing prepared leaves a COMMIT alone, unless it let that very epoch go (R98). -/
theorem commitPrepared_stray {s : State} {e : Nat} (point : Ticket) (prepared : s.cfg.prepared = none)
    (stray : s.cfg.lateEpoch ≠ some e) : commitPrepared e point s = s := by
  simp only [commitPrepared, prepared, if_neg stray]

/-- Settles O16: COMMIT starts the swap of the prepared set, and is passed over where it names no swap of this device. -/
theorem commitSwapsAMember : Obligations.CommitSwapsAMember := by
  refine ⟨fun src e point p b s run prepared same shadow job reserves => ?_, fun src e point s run free stray => ?_⟩
  · rw [exec_commit run, commitPrepared_same (s := ticked s) point prepared same,
      swapStart_waits (s := { ticked s with cfg.prepared := none }) shadow point 0 0 (some point) job reserves]
    rfl
  · rw [exec_commit run, commitPrepared_stray (s := ticked s) point free stray]

end Sys2Proof.Machine

/-! SUPPORT. Management reads and repeats: what a granted read answers, and how a repeat is answered from the record (05 R130; 17
R448; 21 R564). -/

namespace Sys2Proof.Machine

/-! ### Accesses to a live page (R447, R448) -/

/-- A granted read is answered with the value that its register gives, on the state that the read leaves. -/
theorem manage_granted {c : Cmd} {s : State} (g : Granted c s) {offset : W64} (page : regBits offset 16 8 < 0x15)
    (whole : aligned offset = true) (data : W64) (act : State → State × W64) :
    manage c offset data act s = answerMgmt c (.mresp offset (act s).2 0) (act s).1 := by
  obtain ⟨run, may, unrecorded, _⟩ := g
  simp [manage, serving_live run page, unrecorded, may, whole]

section
variable {c : Cmd} {s : State} {offset : W64} {a : Txn} (run : serving s = true) (page : regBits offset 16 8 < 0x15)
  (recorded : recordedAnswer s c = some a)
include run page recorded

/-- A repeat is answered from the record and counted, and what it asks for is not done again. -/
theorem manage_repeat (data : W64) (act : State → State × W64) :
    manage c offset data act s = send c.src c.txn 0 a.msg { s with lnk.mgmtDup := satInc s.lnk.mgmtDup } := by
  simp only [manage, serving_live run page, recorded]

theorem mgmtWrite_repeat (data : W64) (effect : Ticket → State → State) :
    mgmtWrite c offset data effect s = send c.src c.txn 0 a.msg { s with lnk.mgmtDup := satInc s.lnk.mgmtDup } := by
  simp only [mgmtWrite, serving_live run page, recorded, Option.isSome_some, Bool.true_or, if_true]
  exact manage_repeat run page recorded data _

end

/-! ### DLM_COUNTS (R130) -/

/-- The four counts stand in the four quarters of DLM_COUNTS. -/
theorem dlmCounts_fields (s : State) :
    (dlmCounts s).extractLsb' 0 16 = s.dlm.softPassed ∧ (dlmCounts s).extractLsb' 16 16 = s.dlm.hardPassed ∧
      (dlmCounts s).extractLsb' 32 16 = s.dlm.cancelMiss ∧ (dlmCounts s).extractLsb' 48 16 = s.dlm.intakeFull := by
  refine ⟨?_, ?_, ?_, ?_⟩ <;> ext i hi <;> simp [dlmCounts, atBit] <;> grind

/-- A read of DLM_COUNTS gives the counts and clears them (R564). -/
theorem readReg_dlmCounts (c : Cmd) (s : State) : readReg c 0x40000 s = ({ s with dlm := ⟨0, 0, 0, 0⟩ }, dlmCounts s) := rfl

/-- Settles O8: a granted read of DLM_COUNTS answers the counts that it clears, and a repeat runs nothing. -/
theorem countsAreReadAndCleared : Obligations.CountsAreReadAndCleared := by
  refine ⟨fun c s g => ?_, fun c o d a s run page recorded => ⟨?_, ?_, fun here => ?_⟩⟩
  · obtain ⟨soft, hard, miss, full⟩ := dlmCounts_fields s
    exact ⟨dlmCounts s, soft, hard, miss, full, congrArg _ (manage_granted g (by decide) (by decide) 0 (readReg c 0x40000))⟩
  · exact congrArg _ (manage_repeat run page recorded 0 (readReg c o))
  · exact congrArg _ (manage_repeat run page recorded 0 (readReg c o))
  · simp only [exec, execRegisterWrite, here, Bool.false_eq_true, if_false, mgmtWrite_repeat run page recorded]

end Sys2Proof.Machine

/-! SUPPORT. JOB_CMD and the end of a job: how a job opens, drains and closes, and which requests END_ABORT and a job fault leave (05
R100, R103, R123, R124, R126, R127). -/

namespace Sys2Proof.Machine

/-! ### What a run of operations leaves -/

/-- A part of the state that each operation of a run leaves is left by the run. -/
theorem foldl_leaves {α β : Type} (part : State → β) {f : State → α → State} (hf : ∀ s a, part (f s a) = part s) (l : List α)
    (s : State) : part (l.foldl f s) = part s := by
  induction l generalizing s with
  | nil => rfl
  | cons a l ih => rw [List.foldl_cons, ih, hf]

/-- A run of operations that each only send something only sends. -/
theorem foldl_out {α : Type} {f : State → α → State} (hf : ∀ s a, f s a = { s with out := (f s a).out }) (l : List α) (s : State) :
    l.foldl f s = { s with out := (l.foldl f s).out } := by
  induction l generalizing s with
  | nil => rfl
  | cons a l ih => rw [List.foldl_cons, ih, hf]

theorem sendEach_frame (dsts : List Node) (t : Ticket) (m : Msg) (s : State) :
    sendEach dsts t m s = { s with out := (sendEach dsts t m s).out } :=
  foldl_out (f := fun s d => send d 0 t m s) (fun _ _ => rfl) dsts s

@[simp] theorem sendEach_cfg (dsts : List Node) (t : Ticket) (m : Msg) (s : State) : (sendEach dsts t m s).cfg = s.cfg := by
  rw [sendEach_frame]

@[simp] theorem sendEach_dec (dsts : List Node) (t : Ticket) (m : Msg) (s : State) : (sendEach dsts t m s).dec = s.dec := by
  rw [sendEach_frame]

theorem postAlert_frame (r : Rec) (s : State) : postAlert r s = { s with out := (postAlert r s).out, flt := (postAlert r s).flt } := by
  unfold postAlert
  (repeat' split) <;> rfl

/-- A record touches the recorder, the alert ring and what is sent. -/
theorem event_frame (t : Ticket) (type : Nat) (l : Loc) (code attempts action : Nat) (aux : W64) (extra : List Byte) (s : State) :
    event t type l code attempts action aux extra s =
      { s with out := (event t type l code attempts action aux extra s).out, flt := (event t type l code attempts action aux extra s).flt,
               log := (event t type l code attempts action aux extra s).log } := by
  unfold event queueRec
  rw [postAlert_frame]
  dsimp only
  (repeat' split) <;> rfl

@[simp] theorem event_cfg (t : Ticket) (type : Nat) (l : Loc) (code attempts action : Nat) (aux : W64) (extra : List Byte) (s : State) :
    (event t type l code attempts action aux extra s).cfg = s.cfg := by rw [event_frame]

@[simp] theorem event_dec (t : Ticket) (type : Nat) (l : Loc) (code attempts action : Nat) (aux : W64) (extra : List Byte) (s : State) :
    (event t type l code attempts action aux extra s).dec = s.dec := by rw [event_frame]

/-! ### What JOB_CMD asks for (R126) -/

theorem regBits_toNat (v : W64) (lo len : Nat) : regBits v lo len = (v.extractLsb' lo len).toNat := by
  simp [regBits, bitsOf, Nat.shiftRight_eq_div_pow]

theorem jobCommand_open (id : W32) (t : Ticket) (s : State) : jobCommand (hi32 id ||| 1) t s = openJob id s := by
  have force : regBit (hi32 id ||| 1) 2 = false := by simp [regBit, hi32, atBit]
  have op : opBits (hi32 id ||| 1) 0 2 = 1 := by
    have low : (hi32 id ||| 1).extractLsb' 0 2 = 1 := by ext i hi; simp [hi32, atBit]; grind
    rw [opBits, regBits_toNat, low]; rfl
  have job : (hi32 id ||| 1).extractLsb' 32 32 = id := by ext i hi; simp [hi32, atBit]; grind
  simp only [jobCommand, force, op, job, Bool.false_eq_true, if_false, if_true]

theorem jobCommand_drain (t : Ticket) (s : State) : jobCommand 2 t s = endDrain s := rfl
theorem jobCommand_abort (t : Ticket) (s : State) : jobCommand 3 t s = endAbort s := rfl
theorem jobCommand_force (t : Ticket) (s : State) : jobCommand 4 t s = forceFault t s := rfl

section
variable {c : Cmd} {s : State} (g : Granted c s)
include g

theorem exec_jobOpen (id : W32) : exec (.jobOpen c id) s = .next (openJob id (taken c rJobCmd (hi32 id ||| 1) s)) :=
  congrArg _ ((mgmtWrite_granted g (by decide) (by decide) _ _).trans (jobCommand_open id _ _))

theorem exec_endDrain : exec (.endDrain c) s = .next (endDrain (taken c rJobCmd 2 s)) :=
  congrArg _ (mgmtWrite_granted g (by decide) (by decide) _ _)

theorem exec_endAbort : exec (.endAbort c) s = .next (endAbort (taken c rJobCmd 3 s)) :=
  congrArg _ (mgmtWrite_granted g (by decide) (by decide) _ _)

theorem exec_forceFault : exec (.forceFault c) s = .next (forceFault (ticketNext s) (taken c rJobCmd 4 s)) :=
  congrArg _ (mgmtWrite_granted g (by decide) (by decide) _ _)

end

/-! ### A job opens (R100) -/

theorem resumeWork_empty {s : State} (empty : s.wb.journal = []) : resumeWork s = s := by
  simp [resumeWork, empty]

theorem jobOpen_opens {s : State} {p : PlanSet} (id : W32) (powered : s.pwr.state < 2) (closed : s.job.phase = 0)
    (active : s.cfg.active = some p) :
    jobOpen id s = (if isManager s then openable s else []).foldl (fun s m => openMember id m s)
      { s with job := { s.job with phase := 1, aborting := false, cmdCode := 0, jobId := id } } := by
  have on : ¬ 2 ≤ s.pwr.state := by omega
  unfold jobOpen
  rw [if_neg on, if_neg (by simp [closed]), if_neg (by simp [active])]
  cases manager : isManager s
  · exact if_neg (Bool.eq_false_iff.1 manager)
  · exact if_pos manager

theorem jobOpen_noPlan {s : State} (id : W32) (powered : s.pwr.state < 2) (closed : s.job.phase = 0) (noPlan : s.cfg.active = none) :
    jobOpen id s = { s with job := { s.job with cmdCode := 1 } } := by
  have on : ¬ 2 ≤ s.pwr.state := by omega
  simp only [jobOpen, if_neg on, closed, noPlan, ne_eq, not_true, if_false, Option.isNone_none, if_true]

theorem jobOpen_alreadyOpen {s : State} (id : W32) (powered : s.pwr.state < 2) (opened : s.job.phase ≠ 0) :
    jobOpen id s = { s with job := { s.job with cmdCode := 2 } } := by
  have on : ¬ 2 ≤ s.pwr.state := by omega
  simp only [jobOpen, if_neg on, if_pos opened]

theorem openMembers_wb (id : W32) (ms : List Member) (s : State) : (ms.foldl (fun s m => openMember id m s) s).wb = s.wb :=
  foldl_leaves (·.wb) (f := fun s m => openMember id m s) (fun _ _ => rfl) ms s

theorem jobOpen_wb (id : W32) (s : State) : (jobOpen id s).wb = s.wb := by
  unfold jobOpen
  dsimp only
  (repeat' split) <;> simp [openMembers_wb]

/-- With an empty journal no work runs again when a job opens (log 33). -/
theorem openJob_empty {s : State} (id : W32) (empty : s.wb.journal = []) : openJob id s = jobOpen id s := by
  unfold openJob
  dsimp only
  rw [resumeWork_empty (by rw [jobOpen_wb, empty]), ite_self]

/-- A refused JOB_OPEN runs no work again. -/
theorem openJob_refused {s : State} (id : W32) (refused : (jobOpen id s).job.phase = s.job.phase) : openJob id s = jobOpen id s := by
  refine if_neg fun h => ?_
  simp only [refused, Bool.and_eq_true, decide_eq_true_eq] at h
  obtain ⟨⟨closed, opened⟩, _⟩ := h
  simp [closed] at opened

/-! ### A job drains, and closes once no request is in flight (R103, R87) -/

theorem endDrain_open {s : State} (h : s.job.phase = 1) :
    endDrain s = forwardEnd 2 { s with job := { s.job with phase := 2, aborting := false, cmdCode := 0 } } := if_pos h

theorem endDrain_noJob {s : State} (h : s.job.phase = 0) : endDrain s = { s with job := { s.job with cmdCode := 3 } } := by
  simp [endDrain, h]

/-- The sets go and the shadow stays; nothing is sent (R87, R101). -/
theorem discardSets_cfg (s : State) : (discardSets s).cfg = { s.cfg with active := none, retiring := none } := by
  have freed := foldl_leaves (·.cfg) (f := fun s (p : PlanSet) => freeObjects p.serial s) (fun _ _ => rfl)
    (s.cfg.active.toList ++ s.cfg.retiring.toList) s
  simp only [discardSets, freed]

@[simp] theorem discardSets_out (s : State) : (discardSets s).out = s.out :=
  foldl_leaves (·.out) (f := fun s (p : PlanSet) => freeObjects p.serial s) (fun _ _ => rfl) _ s

@[simp] theorem discardSets_caches (s : State) : (discardSets s).dec.caches = [] := rfl

theorem exec_jobClose {s : State} (run : serving s = true) (closing : s.job.phase = 2) :
    exec .jobClose s = .next (if s.job.reqs = [] then
      { discardSets s with job.phase := 0, job.aborting := false,
                           dom.members := (discardSets s).dom.members.map fun m => { m with inJob := false } }
      else s) := by
  refine congrArg _ ((whenServing_pos run _).trans ?_)
  simp only [closing, decide_true, Bool.true_and, List.isEmpty_iff]

/-- Settles O17: JOB_OPEN, END_DRAIN and JOB_CLOSE, each by the state of the job that it meets. -/
theorem jobOpensAndEnds : Obligations.JobOpensAndEnds := by
  refine ⟨fun c id p s g powered closed active empty => ?_, fun c id s g powered => ⟨fun closed noPlan => ?_, fun opened => ?_⟩,
    fun c s g => ⟨fun opened => ?_, fun closed => ?_⟩, fun s run closing => ⟨fun idle => ?_, fun busy => ?_⟩⟩
  · rw [exec_jobOpen g, openJob_empty id (by simpa using empty),
      jobOpen_opens (s := taken c rJobCmd (hi32 id ||| 1) s) (p := p) id powered closed active]
    rfl
  · have refused := jobOpen_noPlan (s := taken c rJobCmd (hi32 id ||| 1) s) id powered closed noPlan
    rw [exec_jobOpen g, openJob_refused id (by rw [refused]), refused]
    rfl
  · have refused := jobOpen_alreadyOpen (s := taken c rJobCmd (hi32 id ||| 1) s) id powered opened
    rw [exec_jobOpen g, openJob_refused id (by rw [refused]), refused]
    rfl
  · rw [exec_endDrain g, endDrain_open (s := taken c rJobCmd 2 s) opened]
    rfl
  · rw [exec_endDrain g, endDrain_noJob (s := taken c rJobCmd 2 s) closed]
    rfl
  · refine ⟨_, (exec_jobClose run closing).trans (by rw [if_pos idle]), ?_⟩
    simp [discardSets_cfg]
  · rw [exec_jobClose run closing, if_neg busy]

/-! ### The requests of a job that ends (R103, R124) -/

/-- The request's acceptance has not completed (R140). -/
def InAcceptance (r : Req) : Prop := ∃ pos src txn reject, r.place = .acceptance pos src txn reject

theorem mem_insertBy {α : Type} (le : α → α → Bool) (x a : α) (l : List α) : a ∈ insertBy le x l ↔ a = x ∨ a ∈ l := by
  induction l with
  | nil => simp [insertBy]
  | cons y ys ih =>
    rw [insertBy]
    split
    · simp [ih, or_left_comm]
    · simp

theorem mem_sortBy {α : Type} (le : α → α → Bool) (a : α) (l : List α) : a ∈ sortBy le l ↔ a ∈ l := by
  induction l with
  | nil => simp [sortBy]
  | cons x xs ih => rw [sortBy, mem_insertBy, ih, List.mem_cons]

theorem mem_setReq {r q : Req} {s : State} (h : q ∈ (setReq r s).job.reqs) : q = r ∨ (q ∈ s.job.reqs ∧ q.ticket ≠ r.ticket) := by
  obtain ⟨q', hq', rfl⟩ := List.mem_map.1 (by simpa using h)
  split
  · exact .inl rfl
  · next other => exact .inr ⟨hq', other⟩

/-- What is left in flight after a request has ended with its job is in acceptance, or was in flight under another ticket. -/
theorem endReq_leaves {status detail : Nat} {r q : Req} {s : State} (h : q ∈ (endReq status detail r s).job.reqs) :
    InAcceptance q ∨ (q ∈ s.job.reqs ∧ q.ticket ≠ r.ticket) := by
  unfold endReq at h
  split at h
  · next place => exact (mem_setReq h).imp_left fun e => ⟨_, _, _, _, (congrArg (·.place) e).trans place⟩
  · split at h <;> exact .inr (by simpa [finish_job] using h)

theorem endReqs_leave {status detail : Nat} {q : Req} (rs : List Req) {s : State}
    (h : q ∈ (rs.foldl (fun s r => endReq status detail r s) s).job.reqs) :
    InAcceptance q ∨ (q ∈ s.job.reqs ∧ ∀ r ∈ rs, q.ticket ≠ r.ticket) := by
  induction rs generalizing s with
  | nil => exact .inr ⟨h, List.forall_mem_nil _⟩
  | cons r rs ih =>
    rw [List.foldl_cons] at h
    obtain early | ⟨mem, rest⟩ := ih h
    · exact .inl early
    · exact (endReq_leaves mem).imp_right fun ⟨mem, first⟩ => ⟨mem, List.forall_mem_cons.2 ⟨first, rest⟩⟩

/-- Only requests whose acceptance has not completed are left when a job has ended its requests (R124). -/
theorem endAll_leaves {status detail : Nat} {s : State} : ∀ q ∈ (endAll status detail s).job.reqs, InAcceptance q := by
  intro q h
  obtain early | ⟨mem, other⟩ := endReqs_leave _ h
  · exact early
  · exact absurd rfl (other q ((mem_sortBy ..).2 mem))

/-! ### END_ABORT and FORCE_FAULT (R103, R126) -/

@[simp] theorem forwardEnd_job (op : W64) (s : State) : (forwardEnd op s).job = s.job := by
  unfold forwardEnd
  split
  · exact sendEach_job _ 0 (.mwrite rJobCmd op) s
  · rfl

theorem endAbort_open {s : State} (h : s.job.phase = 1) :
    (endAbort s).job.phase = 2 ∧ (endAbort s).job.aborting = true ∧ (endAbort s).job.cmdCode = 0 ∧
      ∀ q ∈ (endAbort s).job.reqs, InAcceptance q := by
  simp only [endAbort, h, decide_true, Bool.true_or, if_true, stopFolds]
  refine ⟨?_, ?_, ?_, endAll_leaves⟩ <;> rw [endAll_job] <;> simp

theorem endAbort_noJob {s : State} (h : s.job.phase = 0) : endAbort s = { s with job := { s.job with cmdCode := 3 } } := by
  simp [endAbort, h]

theorem forceFault_job {s : State} (t : Ticket) (h : s.job.phase = 1 ∨ s.job.phase = 2) :
    forceFault t s = teardown 5 t { s with job.cmdCode := 0 } := if_pos (by simpa using h)

theorem forceFault_noJob {s : State} (t : Ticket) (h : s.job.phase = 0) :
    forceFault t s = { s with job := { s.job with cmdCode := 3 } } := by
  simp [forceFault, h]

/-- Teardown of an open job discards its sets and its caches (R87, R124). -/
theorem teardown_discards {s : State} (cause : Nat) (t : Ticket) (h : s.job.phase ≠ 0) :
    (teardown cause t s).cfg.active = none ∧ (teardown cause t s).cfg.retiring = none ∧ (teardown cause t s).dec.caches = [] := by
  have told (l : List Node) (s : State) :
      (l.foldl (fun s n => send n 0 0 (.mwrite 0x30000 3) s) s) = sendEach l 0 (.mwrite 0x30000 3) s := rfl
  simp only [teardown, if_neg h, told, sendEach_cfg, sendEach_dec, event_cfg, event_dec, stopFolds, discardSets_cfg,
    discardSets_caches, and_self]

/-- Settles O18: END_ABORT and a forced fault end each request in flight as its acceptance stands. -/
theorem abortAndFaultEndRequests : Obligations.AbortAndFaultEndRequests := by
  refine ⟨fun c s g opened => ⟨_, exec_endAbort g, endAbort_open opened⟩, fun c s g job => ⟨_, exec_forceFault g, ?_⟩,
    fun c s g closed => ⟨?_, ?_⟩⟩
  · have opened : s.job.phase ≠ 0 := by rcases job with h | h <;> simp [h]
    obtain ⟨active, retiring, caches⟩ :=
      teardown_discards (s := { taken c rJobCmd 4 s with job.cmdCode := 0 }) 5 (ticketNext s) opened
    have ended := teardown_job (s := { taken c rJobCmd 4 s with job.cmdCode := 0 }) 5 (ticketNext s) opened
    rw [forceFault_job (s := taken c rJobCmd 4 s) _ job]
    refine ⟨?_, ?_, ?_, active, retiring, ?_, caches, ?_⟩ <;> rw [ended]
    · rw [endAll_job]; rfl
    · rw [endAll_job]
    · exact endAll_leaves
  · rw [exec_endAbort g, endAbort_noJob (s := taken c rJobCmd 3 s) closed]
    rfl
  · rw [exec_forceFault g, forceFault_noJob (s := taken c rJobCmd 4 s) _ closed]
    rfl

end Sys2Proof.Machine

/-! SUPPORT. Cancellations and deadlines: how a request ends CANCELLED or EXPIRED, here and for another device's manager (05 R115, R118,
R120, R121, R129; 02 R35). -/

namespace Sys2Proof.Machine

/-! ### Requests by ticket -/

theorem findReq_known {r : Req} {s : State} (h : r ∈ s.job.reqs) : (findReq s r.ticket).isNone = false := by
  simpa [findReq] using ⟨r, h, rfl⟩

/-- A request that has ended is in flight no longer. -/
theorem findReq_finish (r : Req) (o : Outcome) (s : State) : findReq (finish r o s) r.ticket = none := by
  simp [findReq, finish_job]

/-- A request of this device that is not a DECODE being stepped ends with one completion, which joins those held back (R150). -/
theorem finish_own_completes {r : Req} {s : State} (o : Outcome) (known : (findReq s r.ticket).isNone = false) (own : r.boss = none)
    (undecoded : r.dec = none) :
    (finish r o s).dlm = s.dlm ∧
      ∃ k : Comp, (finish r o s).wb.holdback = s.wb.holdback ++ [k] ∧ k.ticket = r.ticket ∧ k.tag = r.desc.tag ∧
        k.status = o.status ∧ k.result = o.result := by
  obtain ⟨k, x, hx, -, wb, -, -, -, -, -, -, -, dlm, -, -, -, -, -, ticket, tag, status, -, -, result, -⟩ :=
    finish_own o known own undecoded
  exact ⟨hx ▸ dlm, k, by rw [hx, wb], ticket, tag, status, result⟩

/-- Telling the holders of a request touches nothing but what is sent (R35). -/
theorem cancelAway_frame (r : Req) (expired : Bool) (s : State) :
    cancelAway r expired s = { s with out := (cancelAway r expired s).out } := by
  unfold cancelAway
  split
  · rfl
  · exact sendEach_frame _ _ _ s

@[simp] theorem cancelAway_wb (r : Req) (expired : Bool) (s : State) : (cancelAway r expired s).wb = s.wb := by rw [cancelAway_frame]
@[simp] theorem cancelAway_dlm (r : Req) (expired : Bool) (s : State) : (cancelAway r expired s).dlm = s.dlm := by rw [cancelAway_frame]
@[simp] theorem cancelAway_now (r : Req) (expired : Bool) (s : State) : (cancelAway r expired s).now = s.now := by rw [cancelAway_frame]
@[simp] theorem cancelAway_lnk (r : Req) (expired : Bool) (s : State) : (cancelAway r expired s).lnk = s.lnk := by rw [cancelAway_frame]

/-- None of the types 0 to 5 is a mutation. -/
theorem isMutation_plain {type : Nat} (h : type ≤ 5) : isMutation type = false := by
  have : type ≠ 7 ∧ type ≠ 8 := by omega
  simp [isMutation, this]

/-! ### CANCEL_TICKET and CANCEL_TAG (R120, R129) -/

section
variable {r : Req} (accepted : ∀ pos src txn reject, r.place ≠ .acceptance pos src txn reject) (plain : r.desc.type ≤ 5)
include accepted plain

/-- A request of one of the types 0 to 5 that is past acceptance and not ending is ended with status CANCELLED. -/
theorem cancelReq_finishes (s : State) (going : r.ending = 0) : cancelReq r s = finish r { status := 3 } (cancelAway r false s) := by
  obtain ⟨decode, fold, publish⟩ : r.desc.type ≠ 6 ∧ r.desc.type ≠ 9 ∧ r.desc.type ≠ 10 := by omega
  unfold cancelReq
  split
  · next pos src txn reject place => exact absurd place (accepted pos src txn reject)
  · simp [isMutation_plain plain, going, decode, fold, publish]

theorem cancelReq_completes {s : State} (known : r ∈ s.job.reqs) (going : r.ending = 0) (own : r.boss = none) (undecoded : r.dec = none) :
    findReq (cancelReq r s) r.ticket = none ∧
      ∃ k : Comp, (cancelReq r s).wb.holdback = s.wb.holdback ++ [k] ∧ k.ticket = r.ticket ∧ k.tag = r.desc.tag ∧ k.status = 3 ∧
        k.result = [] := by
  have known' : (findReq (cancelAway r false s) r.ticket).isNone = false := findReq_known (by simpa using known)
  rw [cancelReq_finishes accepted plain s going]
  obtain ⟨-, completion⟩ := finish_own_completes { status := 3 } known' own undecoded
  exact ⟨findReq_finish .., by simpa using completion⟩

end

theorem cancelWhere_finds {p : Req → Bool} {r : Req} {s : State} (found : s.job.reqs.find? (fun q => q.boss.isNone && p q) = some r) :
    cancelWhere p s = cancelReq r s := by
  simp only [cancelWhere, found]

theorem cancelWhere_misses {p : Req → Bool} {s : State} (nobody : ∀ q ∈ s.job.reqs, q.boss = none → p q = false) :
    cancelWhere p s = cancelMissed s := by
  have found : s.job.reqs.find? (fun q => q.boss.isNone && p q) = none :=
    List.find?_eq_none.2 fun q hq => by simpa using nobody q hq
  simp only [cancelWhere, found]

/-- What a cancellation finds is a request that this device accepted. -/
theorem cancelWhere_completes {p : Req → Bool} {r : Req} {s : State}
    (found : s.job.reqs.find? (fun q => q.boss.isNone && p q) = some r)
    (accepted : ∀ pos src txn reject, r.place ≠ .acceptance pos src txn reject) (plain : r.desc.type ≤ 5) (going : r.ending = 0)
    (undecoded : r.dec = none) :
    findReq (cancelWhere p s) r.ticket = none ∧
      ∃ k : Comp, (cancelWhere p s).wb.holdback = s.wb.holdback ++ [k] ∧ k.ticket = r.ticket ∧ k.tag = r.desc.tag ∧ k.status = 3 ∧
        k.result = [] := by
  have own : r.boss = none := by
    have := List.find?_some found
    simp only [Bool.and_eq_true, Option.isNone_iff_eq_none] at this
    exact this.1
  rw [cancelWhere_finds found]
  exact cancelReq_completes accepted plain (List.mem_of_find?_eq_some found) going own undecoded

section
variable {c : Cmd} {s : State} (g : Granted c s)
include g

theorem exec_cancelTicket (t : Ticket) :
    exec (.cancelTicket c t) s = .next (cancelWhere (·.ticket == t) (taken c rCancelTicket t s)) :=
  congrArg _ (mgmtWrite_granted g (by decide) (by decide) _ _)

/-- The tag is compared in bits 47 to 0 (R129). -/
theorem exec_cancelTag (tag : BitVec 48) :
    exec (.cancelTag c tag) s =
      .next (cancelWhere (fun r => r.desc.tag.extractLsb' 0 48 == tag) (taken c rCancelTag (tag.zeroExtend 64) s)) := by
  have low : (tag.zeroExtend 64).extractLsb' 0 48 = tag := by ext i hi; simp [show i < 64 by omega, BitVec.getLsbD_eq_getElem hi]
  refine congrArg _ ((mgmtWrite_granted g (by decide) (by decide) _ _).trans ?_)
  rw [cancelTag, low]

end

/-- Settles O19: a cancellation finds its request by ticket or by tag, and then ends it or counts a miss. -/
theorem cancellationCompletesTheRequest : Obligations.CancellationCompletesTheRequest := by
  refine ⟨fun c t r s g found accepted plain going undecoded => ⟨_, exec_cancelTicket g t, ?_⟩,
    fun c tag r s g found accepted plain going undecoded => ⟨_, exec_cancelTag g tag, ?_⟩,
    fun c t s g nobody => ?_, fun c tag s g nobody => ?_⟩
  · exact cancelWhere_completes (s := taken c rCancelTicket t s) found accepted plain going undecoded
  · exact cancelWhere_completes (s := taken c rCancelTag (tag.zeroExtend 64) s) found accepted plain going undecoded
  · rw [exec_cancelTicket g, cancelWhere_misses fun q hq own => by simpa using nobody q hq own]
    rfl
  · rw [exec_cancelTag g, cancelWhere_misses fun q hq own => by simpa using nobody q hq own]
    rfl

/-! ### A request of another device's manager ends (R473) -/

/-- Stream records are sent, or wait for the ring (R239). -/
theorem deliverStream_frame (r : Req) (recs : List (List Byte)) (s : State) :
    deliverStream r recs s = { s with out := (deliverStream r recs s).out, txt := (deliverStream r recs s).txt } := by
  unfold deliverStream
  split
  · next n _ =>
    rw [foldl_out (f := fun s b => send n 0 r.mgr (.streamRec b) s) (fun _ _ => rfl) recs s]
  · rfl

/-- A DECODE that is closed sends its held bytes and frees its cache (R241, R353). -/
theorem closeDecode_frame (r : Req) (o : Outcome) (s : State) :
    (closeDecode r o s).1 =
      { s with out := (closeDecode r o s).1.out, txt := (closeDecode r o s).1.txt, dec := (closeDecode r o s).1.dec } := by
  unfold closeDecode
  split
  · rfl
  · dsimp only
    split
    · rw [deliverStream_frame]
      rfl
    · rfl

@[simp] theorem closeDecode_now (r : Req) (o : Outcome) (s : State) : (closeDecode r o s).1.now = s.now := by rw [closeDecode_frame]
@[simp] theorem closeDecode_lnk (r : Req) (o : Outcome) (s : State) : (closeDecode r o s).1.lnk = s.lnk := by rw [closeDecode_frame]

@[simp] theorem closeDecode_status (r : Req) (o : Outcome) (s : State) : (closeDecode r o s).2.status = o.status := by
  unfold closeDecode
  split <;> rfl

/-- A request of another device's manager that ends is answered with the status that it ends with. -/
theorem finish_answers {r : Req} {s : State} {n : Node} (o : Outcome) (known : r ∈ s.job.reqs) (boss : r.boss = some n) :
    ∃ a : Answer, (s.now, (⟨n, myNode s, 0, r.mgr, .answer a⟩ : Txn)) ∈ (finish r o s).out ∧ a.ticket = r.mgr ∧
      a.status = o.status := by
  refine ⟨answerOf r (closeDecode r o s).2, ?_, rfl, closeDecode_status r o s⟩
  unfold finish
  simp only [findReq_known known, boss, Bool.false_eq_true, if_false, closeDecode_status]
  cases r.dec <;> by_cases failed : 1 < o.status <;> simp [myNode, failed]

/-! ### CANCEL_FWD (R35, R121) -/

section
variable {s : State} {t : Ticket} (run : Runs s)
include run

theorem exec_cancelFwd_one {r : Req} (src : Node) (x : Bool) (one : s.job.reqs.filter (fun q => q.boss.isSome && q.mgr == t) = [r]) :
    exec (.cancelFwd src t x) s = .next (cancelWork r x (ticked s)) := by
  refine congrArg _ ((whenServing_stamped run _).trans ?_)
  simp only [ticked_job, one, List.foldl_cons, List.foldl_nil]

variable (noWork : s.job.reqs.filter (fun q => q.boss.isSome && q.mgr == t) = [])
include noWork

theorem exec_cancelFwd_cache (src : Node) (x : Bool) (unclaimed : ∃ k ∈ s.dec.caches, k.ticket = t ∧ k.claimed = none) :
    exec (.cancelFwd src t x) s = .next (freeCaches (fun k => k.ticket == t && k.claimed.isNone) (ticked s)) := by
  have held : s.dec.caches.any (fun k => k.ticket == t && k.claimed.isNone) = true := by simpa using unclaimed
  refine congrArg _ ((whenServing_stamped run _).trans ?_)
  simp only [ticked_job, noWork, ticked_dec, held, if_true]

theorem exec_cancelFwd_miss (src : Node) (x : Bool) (claimed : ∀ k ∈ s.dec.caches, k.ticket = t → k.claimed ≠ none)
    (unprepared : ∀ b ∈ s.gth.tables, b.prepared.map (·.1) ≠ some t) :
    exec (.cancelFwd src t x) s = .next (cancelMissed (ticked s)) := by
  have noCache : s.dec.caches.any (fun k => k.ticket == t && k.claimed.isNone) = false := by simpa using claimed
  have noTable : s.gth.tables.any (fun b => (b.prepared.map (·.1)) == some t && !b.committed) = false :=
    List.any_eq_false.2 fun b hb => by simp [unprepared b hb]
  refine congrArg _ ((whenServing_stamped run _).trans ?_)
  simp only [ticked_job, noWork, ticked_dec, noCache, ticked_gth, noTable, Bool.false_eq_true, if_false]

end

/-- Cancelled work that is no fold ends with status CANCELLED. -/
theorem cancelWork_cancels {r : Req} (s : State) (other : r.desc.type ≠ 9) :
    cancelWork r false s = finish r { status := 3 } (cancelAway r false s) := by
  simp [cancelWork, other]

/-- Settles O20: the work of the ticket ends and is answered; without work an unclaimed cache goes, or a miss is counted. -/
theorem forwardedCancellationAnswersTheManager : Obligations.ForwardedCancellationAnswersTheManager := by
  refine ⟨fun src n t r s run one boss _ other => ?_, fun src t x s run noWork claimed unprepared => ?_,
    fun src t x s run noWork unclaimed => exec_cancelFwd_cache run noWork src x unclaimed⟩
  · obtain ⟨known, ofTicket⟩ : r ∈ s.job.reqs ∧ (r.boss.isSome && r.mgr == t) = true :=
      List.mem_filter.1 (one ▸ List.mem_singleton_self r)
    have mgr : r.mgr = t := by
      simp only [Bool.and_eq_true, beq_iff_eq] at ofTicket
      exact ofTicket.2
    refine ⟨_, exec_cancelFwd_one run src false one, ?_⟩
    rw [cancelWork_cancels _ other]
    obtain ⟨a, sent, ticket, status⟩ :=
      finish_answers (s := cancelAway r false (ticked s)) { status := 3 } (by simpa using known) boss
    refine ⟨findReq_finish .., a, ?_, ticket.trans mgr, status⟩
    simpa [myNode, mgr] using sent
  · rw [exec_cancelFwd_miss run noWork src x claimed unprepared]
    rfl

/-! ### A hard budget passes (R118) -/

/-- What answers report changes what the request reports, and nothing of what it is. -/
theorem foldAnswers_keeps (r : Req) :
    (foldAnswers r).ticket = r.ticket ∧ (foldAnswers r).desc = r.desc ∧ (foldAnswers r).boss = r.boss ∧
      (foldAnswers r).dec = r.dec := by
  unfold foldAnswers
  generalize r.answers = as
  induction as generalizing r with
  | nil => exact ⟨rfl, rfl, rfl, rfl⟩
  | cons a as ih => exact ih _

/-- With no answers to merge, the latest list of a request counts nothing. -/
theorem bestList_counts {r : Req} (s : State) (unasked : ∀ b, r.place ≠ .answers b) : (bestList r s).2 = {} := by
  unfold bestList
  dsimp only
  split
  · next h => exact absurd h (unasked false)
  · next h => exact absurd h (unasked true)
  · rfl

/-- A request of this device that expires with no answers to merge ends with status EXPIRED, and its end is all that happens to the
requests, the completions and the counts of deadlines. -/
theorem expire_finishes {r : Req} (s : State) (own : r.boss = none) (unasked : ∀ b, r.place ≠ .answers b) :
    ∃ (r' : Req) (s' : State) (o : Outcome), expire r s = finish r' o s' ∧ o.status = 2 ∧ r'.ticket = r.ticket ∧
      r'.desc = r.desc ∧ r'.boss = none ∧ r'.dec = r.dec ∧ s'.job = s.job ∧ s'.wb = s.wb ∧ s'.dlm = s.dlm := by
  obtain ⟨ticket, desc, boss, dec⟩ := foldAnswers_keeps r
  have own' : (withNan {} (foldAnswers r)).boss = none := boss.trans own
  unfold expire
  simp only [bestList_counts s unasked, own']
  split
  · refine ⟨_, _, _, rfl, rfl, ticket, desc, own', dec, ?_⟩
    split <;> simp [mergeCounted, countMerge]
  · refine ⟨_, _, _, rfl, rfl, ticket, desc, own', dec, ?_⟩
    split <;> simp [mergeCounted, countMerge]

theorem expire_completes {r : Req} {s : State} (known : (findReq s r.ticket).isNone = false) (own : r.boss = none)
    (unasked : ∀ b, r.place ≠ .answers b) (undecoded : r.dec = none) :
    findReq (expire r s) r.ticket = none ∧ (expire r s).dlm = s.dlm ∧
      ∃ k : Comp, (expire r s).wb.holdback = s.wb.holdback ++ [k] ∧ k.ticket = r.ticket ∧ k.tag = r.desc.tag ∧ k.status = 2 := by
  obtain ⟨r', s', o, e, expired, ticket', desc', own', dec', job', wb', dlm'⟩ := expire_finishes s own unasked
  have known' : (findReq s' r'.ticket).isNone = false := by
    rw [findReq, job', ticket']
    exact known
  obtain ⟨dlm, k, wb, ticket, tag, status, -⟩ := finish_own_completes o known' own' (dec'.trans undecoded)
  rw [e]
  exact ⟨ticket' ▸ findReq_finish r' o s', dlm.trans dlm', k, wb.trans (by rw [wb']), ticket.trans ticket', tag.trans (by rw [desc']),
    status.trans expired⟩

theorem hardPassed_expires {r : Req} (s : State) (accepted : ∀ pos src txn reject, r.place ≠ .acceptance pos src txn reject)
    (plain : r.desc.type ≤ 5) (free : r.heldForReplica = false) : hardPassed r s = expire { r with hardPassed := true } s := by
  obtain ⟨decode, fold, publish⟩ : r.desc.type ≠ 6 ∧ r.desc.type ≠ 9 ∧ r.desc.type ≠ 10 := by omega
  unfold hardPassed
  dsimp only
  split
  · next pos src txn reject place => exact absurd place (accepted pos src txn reject)
  · simp [isMutation_plain plain, free, decode, fold, publish]

/-! ### SOFT_PASS and HARD_PASS (R115) -/

section
variable {s : State} {t : Ticket}

theorem exec_softPass_late {r : Req} (run : Runs s) (found : findReq s t = some r) (unmarked : r.softPassed = false)
    (late : r.soft ≤ usSince s r.start) :
    exec (.softPass t) s =
      .next (setReq { r with softPassed := true } { ticked s with dlm.softPassed := satInc s.dlm.softPassed }) := by
  refine congrArg _ ((whenServing_pos run.1 _).trans ?_)
  have passed : ¬ usSince s r.start < r.soft := by omega
  simp only [found, unmarked, passed, decide_false, Bool.or_self, Bool.false_eq_true, if_false]
  exact stamped_ticked run.2 _

theorem exec_hardPass_late {r : Req} (run : Runs s) (found : findReq s t = some r) (unmarked : r.hardPassed = false)
    (late : r.hard ≤ usSince s r.start) :
    exec (.hardPass t) s = .next (hardPassed r { ticked s with dlm.hardPassed := satInc s.dlm.hardPassed }) := by
  refine congrArg _ ((whenServing_pos run.1 _).trans ?_)
  have passed : ¬ usSince s r.start < r.hard := by omega
  simp only [found, unmarked, passed, decide_false, Bool.or_self, Bool.false_eq_true, if_false]
  exact stamped_ticked run.2 _

theorem exec_softPass_early (run : serving s = true) (early : ∀ r, findReq s t = some r → usSince s r.start < r.soft) :
    exec (.softPass t) s = .next s := by
  refine congrArg _ ((whenServing_pos run _).trans ?_)
  split
  · next r found => exact if_pos (by simp [early r found])
  · rfl

theorem exec_hardPass_early (run : serving s = true) (early : ∀ r, findReq s t = some r → usSince s r.start < r.hard) :
    exec (.hardPass t) s = .next s := by
  refine congrArg _ ((whenServing_pos run _).trans ?_)
  split
  · next r found => exact if_pos (by simp [early r found])
  · rfl

end

/-- Settles O21: a passed budget is marked or ends its request, and one that has not passed does neither. -/
theorem deadlinesAreStamped : Obligations.DeadlinesAreStamped := by
  refine ⟨fun t r s run found unmarked late => exec_softPass_late run found unmarked late,
    fun t r s run found unmarked late own accepted unasked plain free undecoded => ⟨_, exec_hardPass_late run found unmarked late, ?_⟩,
    fun t s run early =>
      ⟨exec_softPass_early run fun r found => (early r found).1, exec_hardPass_early run fun r found => (early r found).2⟩⟩
  have known : (findReq s r.ticket).isNone = false := findReq_known (List.mem_of_find?_eq_some found)
  have ticket : r.ticket = t := by simpa using List.find?_some found
  rw [hardPassed_expires _ accepted plain free, ← ticket]
  obtain ⟨gone, dlm, completion⟩ := expire_completes (r := { r with hardPassed := true })
    (s := { ticked s with dlm.hardPassed := satInc s.dlm.hardPassed }) known own unasked undecoded
  exact ⟨gone, congrArg (·.hardPassed) dlm, completion⟩

end Sys2Proof.Machine

/-! SUPPORT. STEP_START and STEP_END: how a batch begins its step, and what a step's end leaves and delivers (05 R104, R105, R119). -/

namespace Sys2Proof.Machine

/-! ### A step begins (R104, R105) -/

/-- The requests of a batch run. -/
def startRunning (ws : List (Req × Work)) (s : State) : State :=
  ws.foldl (fun s x => setReq { x.1 with place := .running, begun := true } s) s

theorem startRunning_steps (ws : List (Req × Work)) (s : State) : (startRunning ws s).job.steps = s.job.steps :=
  foldl_leaves (·.job.steps) (f := fun s (x : Req × Work) => setReq { x.1 with place := .running, begun := true } s) (fun _ _ => rfl) ws s

theorem startRunning_runs {q : Req} (ws : List (Req × Work)) {s : State} (h : q ∈ (startRunning ws s).job.reqs) :
    q.place = .running ∨ ∀ w ∈ ws, q.ticket ≠ w.1.ticket := by
  suffices q.place = .running ∨ (q ∈ s.job.reqs ∧ ∀ w ∈ ws, q.ticket ≠ w.1.ticket) from this.imp_right And.right
  unfold startRunning at h
  induction ws generalizing s with
  | nil => exact .inr ⟨h, List.forall_mem_nil _⟩
  | cons w ws ih =>
    rw [List.foldl_cons] at h
    obtain runs | ⟨mem, rest⟩ := ih h
    · exact .inl runs
    · obtain e | ⟨mem, first⟩ := mem_setReq mem
      · exact .inl (congrArg (·.place) e)
      · exact .inr ⟨mem, List.forall_mem_cons.2 ⟨first, rest⟩⟩

/-- The step that begins with these works at a start ticket, of a group that reads no table. -/
def stepOf (epoch : Nat) (g : List Nat) (t : Ticket) (began : Nat) (ws : List (Req × Work)) : Step :=
  { stages := g, epoch := epoch, start := t, began := began, batch := ws.map (·.1.ticket), outs := ws.map (·.2.out), dropped := [],
    pins := dedup (ws.filterMap fun x => if x.2.out.indexVersion = 0 then none else some (x.1.desc.coll, x.2.out.indexVersion)),
    tablePins := [], rows := [], counts := [] }

/-- Where no table is read, no request is turned away and none met poison, the whole batch runs in one step. -/
theorem beginStep_runs {epoch : Nat} {g : List Nat} {rs : List Req} {p : Plan} {t : Ticket} {s s2 : State} {ws : List (Req × Work)}
    (noTable : groupTable p g = none) (works : batchWorks p t g rs s = (s2, ws)) (occupied : ws ≠ [])
    (fine : ∀ w ∈ ws, w.2.reject = none ∧ w.2.poisoned = false) :
    beginStep epoch g rs p t s =
      { startRunning ws s2 with job.steps := (startRunning ws s2).job.steps ++ [stepOf epoch g t s2.now ws] } := by
  have good : ws.filter (·.2.reject.isNone) = ws := List.filter_eq_self.2 fun w hw => by simp [(fine w hw).1]
  have bad : ws.filter (·.2.reject.isSome) = [] := List.filter_eq_nil_iff.2 fun w hw => by simp [(fine w hw).1]
  have clean : ws.any (·.2.poisoned) = false := List.any_eq_false.2 fun w hw => by simp [(fine w hw).2]
  have nonempty : ws.isEmpty = false := List.isEmpty_eq_false_iff.2 occupied
  simp only [beginStep, works, noTable, Option.bind_none, checkIndices, good, bad, clean, nonempty, List.foldl_nil, Bool.or_false,
    Bool.false_eq_true, if_false]
  rfl

theorem exec_stepStart {stage e cap : Nat} {g : List Nat} {batch : List Req} {q : PlanSet} {s s1 : State} (run : serving s = true)
    (issues : stepsRun s = true) (idle : ∀ p ∈ s.job.steps, stage ∉ p.stages)
    (forms : formBatch stage s = (s1, ⟨some (e, g, cap), batch⟩)) (run1 : Runs s1) (plan : planSet s1 e = some q) :
    exec (.stepStart stage) s = .next (beginStep e g batch q.plan (ticketNext s1) (ticked s1)) := by
  have free : s.job.steps.any (fun p => p.stages.contains stage) = false := by simpa using idle
  refine congrArg _ ((whenServing_pos run _).trans ?_)
  simp only [issues, free, forms, plan, Bool.not_true, Bool.or_self, Bool.false_eq_true, if_false, stamped_ticked run1.2]

/-! ### A step ends (R104, R119) -/

/-- A step is over. -/
def withoutStep (k : Step) (s : State) : State := { s with job := { s.job with steps := s.job.steps.filter (·.start != k.start) } }

/-- A step that waits for no gather ends at a ticket of its own. -/
theorem exec_stepEnd {stage : Nat} {k : Step} {q : PlanSet} {s : State} (run : Runs s)
    (found : s.job.steps.find? (fun p => p.stages.contains stage) = some k) (plan : planSet s k.epoch = some q)
    (ungathered : ∀ g ∈ s.gth.gathers, g.step ≠ k.start) :
    exec (.stepEnd stage) s =
      .next (retirePubs (k.outs.foldl (fun s o => deliver q.plan k o s) (stepCounts k (withoutStep k (ticked s))))) := by
  have unmoved : s.gth.gathers.filter (·.step != k.start) = s.gth.gathers :=
    List.filter_eq_self.2 fun g hg => by simpa using ungathered g hg
  have ready : gatherPending s k = false := by
    rw [gatherPending, List.any_eq_false.2 fun g hg => by simpa using ungathered g hg, Bool.false_and]
  refine congrArg _ ((whenServing_pos run.1 _).trans ?_)
  simp only [found, ready, Bool.false_eq_true, if_false, unmoved]
  split
  · next planless => cases plan.symm.trans planless
  · next q' plan' =>
    obtain rfl : q = q' := Option.some.inj (plan.symm.trans plan')
    exact stamped_ticked (s := withoutStep k s) run.2 _

/-- A step that pins no table counts nothing (R261). -/
theorem stepCounts_unpinned {k : Step} (s : State) (unpinned : k.tablePins = []) : stepCounts k s = s := by
  simp [stepCounts, unpinned]

theorem retirePubs_none {s : State} (unpublished : s.gth.pubs = []) : retirePubs s = s := by
  simp only [retirePubs, unpublished, List.filter_nil, List.foldl_nil]
  rw [← unpublished]

/-- A request that is masked or gone gets nothing of a step (R119). -/
theorem deliver_masked {p : Plan} {k : Step} {o : StepOut} {s : State} (masked : o.ticket ∈ k.dropped ∨ findReq s o.ticket = none) :
    deliver p k o s = s := by
  unfold deliver
  split
  · rfl
  · next r found =>
    have dropped : o.ticket ∈ k.dropped := by simpa [found] using masked
    exact if_pos (by simp [dropped])

theorem deliver_allMasked {p : Plan} {k : Step} {s : State} (outs : List StepOut)
    (masked : ∀ o ∈ outs, o.ticket ∈ k.dropped ∨ findReq s o.ticket = none) :
    outs.foldl (fun s o => deliver p k o s) s = s := by
  induction outs with
  | nil => rfl
  | cons o outs ih =>
    obtain ⟨first, rest⟩ := List.forall_mem_cons.1 masked
    rw [List.foldl_cons, deliver_masked first, ih rest]

/-- Without a generation model a running request of the step takes what the stages deliver, and goes on. -/
theorem deliver_running {p : Plan} {k : Step} {o : StepOut} {r : Req} {s : State} (found : findReq s o.ticket = some r)
    (unmasked : o.ticket ∉ k.dropped) (running : r.place = .running) (noGen : genOfPlan p = none) :
    deliver p k o s = deliver.onward p k o r s := by
  simp [deliver, found, unmasked, running, noGen]

/-- Settles O22: a batch that forms runs in one step, and a step's end delivers to the requests that still run. -/
theorem stepRunsItsBatch : Obligations.StepRunsItsBatch := by
  refine ⟨fun stage e cap g batch q s s1 s2 ws run issues idle forms run1 plan noTable works occupied fine =>
      ⟨_, stepOf e g (ticketNext s1) s2.now ws, exec_stepStart run issues idle forms run1 plan, ?_⟩,
    fun stage k q s run found plan ungathered masked unpinned unpublished => ?_,
    fun stage k o r q s run found plan ungathered one unmasked known running noGen unpinned => ?_⟩
  · rw [beginStep_runs noTable works occupied fine]
    refine ⟨congrArg (· ++ _) (startRunning_steps ws s2), rfl, rfl, rfl, rfl, rfl, rfl, fun r hr batched => ?_⟩
    obtain ⟨w, hw, ticket⟩ := List.mem_map.1 batched
    exact (startRunning_runs ws hr).resolve_right fun other => other w hw ticket.symm
  · rw [exec_stepEnd run found plan ungathered, stepCounts_unpinned _ unpinned,
      deliver_allMasked (s := withoutStep k (ticked s)) k.outs masked,
      retirePubs_none (s := withoutStep k (ticked s)) unpublished]
    rfl
  · rw [exec_stepEnd run found plan ungathered, stepCounts_unpinned _ unpinned, one, List.foldl_cons, List.foldl_nil,
      deliver_running (s := withoutStep k (ticked s)) known unmasked running noGen]
    rfl

end Sys2Proof.Machine

/-! SUPPORT. The intake journal and SUBMIT: what a journaled entry changes, and how a whole submission is answered or stands in
acceptance (06 R138 to R143; 17 R449). -/

namespace Sys2Proof.Machine

/-! ### The journal (R140 steps 2 and 3, R143) -/

/-- The Weighbridge once an entry stands at the end of its journal; where acknowledgements wait for the mirror, its position is
waited for from now. -/
def entryAppended (e : JEntry) (s : State) : Wb :=
  { s.wb with journal := s.wb.journal ++ [e], journalPos := s.wb.journalPos + 1, tail := s.wb.tail + entryLen e,
              mirrorWait := if mirrored s then s.wb.mirrorWait ++ [(e.pos, s.now, false)] else s.wb.mirrorWait }

/-- Whether acknowledgements wait for the mirror turns, in the Weighbridge, on `solo` alone. -/
theorem mirrored_wb {s : State} {w : Wb} (same : w.solo = s.wb.solo) : mirrored { s with wb := w } = mirrored s :=
  congrArg (fun solo => isManager s && !solo) same

theorem accepts_manager {s : State} (manager : isManager s = true) : accepts s = true := Bool.or_eq_true_iff.2 (.inl manager)

theorem mirrored_manager {s : State} (manager : isManager s = true) (paired : s.wb.solo = false) : mirrored s = true := by
  simp [mirrored, manager, paired]

section
variable (kind : Nat) (t : Ticket) (tag : W64) (body : List Byte) (s : State)

/-- An entry that is journaled touches the Weighbridge and what is sent. -/
theorem journal_frame :
    (journal kind t tag body s).1 =
      { s with wb := entryAppended ⟨kind, t, tag, s.wb.journalPos, body⟩ s, out := (journal kind t tag body s).1.out } := by
  simp only [journal, entryAppended, mirrored_wb]
  split
  · split <;> rfl
  · rfl

/-- Where acknowledgements wait for a mirror, the entry is sent to it. -/
theorem journal_sends {m : Node} (waits : mirrored s = true) (mirror : s.dom.mirrorNode = some m) :
    (journal kind t tag body s).1.out =
      s.out ++ [(s.now, ⟨m, myNode s, 0, t, .mirrorEntry ⟨kind, t, tag, s.wb.journalPos, body⟩⟩)] := by
  simp only [journal, mirrored_wb, waits, if_true, mirror]
  rfl

@[simp] theorem journal_pos : (journal kind t tag body s).2 = s.wb.journalPos := rfl

@[simp] theorem journal_wb : (journal kind t tag body s).1.wb = entryAppended ⟨kind, t, tag, s.wb.journalPos, body⟩ s := by
  rw [journal_frame]

@[simp] theorem journal_job : (journal kind t tag body s).1.job = s.job := by rw [journal_frame]

@[simp] theorem journal_mirrored : mirrored (journal kind t tag body s).1 = mirrored s := by rw [journal_frame]; rfl

end

/-! ### A whole submission (R449) -/

/-- A submission whose one segment holds its whole payload is taken in at its own ticket. -/
theorem exec_submit_whole {s : State} {desc data : List Byte} (run : Runs s) (stamping : s.wb.seqStop = false) (src : Node) (txn : W16)
    (desc128 : desc.length = 128) (whole : data.length = Desc.payloadLen desc) (segment : data.length ≤ 65536) :
    exec (.submit src txn desc data) s = .next (intake src txn desc data (ticketNext s) (ticked s)) := by
  have short : ¬ 1048576 < Desc.payloadLen desc := by omega
  have first : min (Desc.payloadLen desc) 65536 = data.length := by omega
  have stamps : stampSubmission src txn desc data s = intake src txn desc data (ticketNext s) (ticked s) :=
    (stamped_ticked run.2 _).trans (if_neg (Bool.eq_false_iff.1 stamping))
  refine congrArg _ ((whenServing_pos run.1 _).trans ?_)
  simp only [desc128, short, first, whole, bne_self_eq_false, Bool.false_eq_true, if_false, if_true, stamps]

/-! ### Intake (R139) -/

section
variable {s : State} {desc : Desc} (src : Node) (txn : W16) (data : List Byte) (t : Ticket)

/-- The tag is held already (R139 row 1). -/
theorem intake_duplicate {h : Ticket} (held : s.wb.held.find? (·.1 == desc.tag) = some (desc.tag, h)) :
    intake src txn desc data t s =
      send src txn h (.intakeAck desc.tag 1) { s with wb.dupSubmit := satInc s.wb.dupSubmit } := by
  simp only [intake, held]

variable (fresh : ∀ h ∈ s.wb.held, h.1 ≠ desc.tag) (current : s.dom.superseded = false)
include fresh

theorem find_fresh : s.wb.held.find? (·.1 == desc.tag) = none := List.find?_eq_none.2 fun h hh => by simpa using fresh h hh

include current

/-- No job is open (R139 row 2). -/
theorem intake_noJob (closed : s.job.phase ≠ 1) :
    intake src txn desc data t s = send src txn 0 (.intakeAck desc.tag 3) s := by
  have refused : (!accepts s || s.job.phase != 1 || s.wb.seqWarn) = true := by
    rw [bne_iff_ne.2 closed, Bool.or_true, Bool.true_or]
  simp only [intake, find_fresh fresh, current, refused, Bool.false_eq_true, if_false, if_true]

/-- A submission of a new tag that its stream's order admits, with a job open and room, reaches the last row of R139. -/
theorem intake_admits (takes : accepts s = true) (opened : s.job.phase = 1) (unwarned : s.wb.seqWarn = false)
    (queue : intakeQueued s < 65536) (tags : s.wb.held.length < 4194304) (room : journalFull s = false)
    (order : ∀ h, highSeq s desc.stream = some h → h < desc.seq) :
    intake src txn desc data t s = intake.row5 src txn desc data t s := by
  have noRefusal : (!accepts s || s.job.phase != 1 || s.wb.seqWarn) = false := by simp [takes, opened, unwarned]
  have roomy : (decide (65536 ≤ intakeQueued s) || decide (4194304 ≤ s.wb.held.length) || journalFull s) = false := by
    simp [queue, tags, room]
  simp only [intake, find_fresh fresh, current, noRefusal, roomy, Bool.false_eq_true, if_false]
  split
  · next h high => exact if_neg (Nat.not_le.2 (order h high))
  · rfl

end

/-- On a manager that waits for its mirror a descriptor is journaled, and its request stands in acceptance (R140, R141). -/
theorem accept_waits {s : State} (waits : mirrored s = true) (src : Node) (txn : W16) (t : Ticket) (d : Desc) (payload : List Byte)
    (reject : Option Nat) :
    ∃ r : Req, accept src txn t d payload reject s = addReq r (journal 1 t d.tag (d ++ payload) s).1 ∧ r.ticket = t ∧ r.desc = d ∧
      r.payload = payload ∧ r.boss = none ∧ r.place = .acceptance s.wb.journalPos src txn reject := by
  have waits' (r : Req) : mirrored (addReq r (journal 1 t d.tag (d ++ payload) s).1) = true := (journal_mirrored ..).trans waits
  exact ⟨_, if_pos (waits' _), rfl, rfl, rfl, rfl, rfl⟩

theorem find?_upsert {α : Type} {same : α → Bool} {x : α} (self : same x = true) (l : List α) :
    (upsert same x l).find? same = some x := by
  induction l with
  | nil => exact List.find?_cons_of_pos self
  | cons y ys ih =>
    cases here : same y
    · rw [upsert, if_neg (by simp [here]), List.find?_cons_of_neg (by simp [here]), ih]
    · rw [upsert, if_pos here, List.find?_cons_of_pos self]

/-- Settles O26: an admitted submission is journaled and waits for the mirror, and the rows before it are answered at once. -/
theorem submissionsAreJournaledBeforeTheyAreAccepted : Obligations.SubmissionsAreJournaledBeforeTheyAreAccepted := by
  refine ⟨fun src m txn desc data s run len whole segment fresh current manager opened unwarned stamping queue tags room order paired
      mirror => ?_,
    fun src txn desc data t s run stamping len whole segment held => ?_,
    fun src txn desc data s run stamping len whole segment fresh current closed => ?_⟩
  · have waits := mirrored_manager manager paired
    have admitted := intake_admits (s := ticked s) src txn data (ticketNext s) fresh current (accepts_manager manager) opened unwarned
      queue tags room order
    obtain ⟨r, accepted, ticket, rdesc, payload, boss, place⟩ :=
      accept_waits (s := { ticked s with wb.streams := upsert (·.1 == Desc.stream desc) (Desc.stream desc, Desc.seq desc) s.wb.streams })
        waits src txn (ticketNext s) desc data ((intakePlan (ticked s)).bind fun p => rangeCheck (ticked s) p desc data)
    refine ⟨_, r, (exec_submit_whole run stamping src txn len whole segment).trans (congrArg _ (admitted.trans accepted)),
      ?_, ?_, ?_, ticket, rdesc, payload, boss, ⟨_, place⟩, ?_, ?_, ?_⟩
    · simp [addReq, entryAppended]
    · exact journal_sends _ _ _ _ _ waits mirror
    · simp [addReq]
    · simp [addReq, entryAppended, highSeq, find?_upsert]
    · simp [addReq, entryAppended]
    · simp [addReq, entryAppended]
  · rw [exec_submit_whole run stamping src txn len whole segment, intake_duplicate (s := ticked s) src txn data _ held]
    rfl
  · rw [exec_submit_whole run stamping src txn len whole segment, intake_noJob (s := ticked s) src txn data _ fresh current closed]

end Sys2Proof.Machine

/-! SUPPORT. The mirror manager: what MIRROR_ENTRY keeps, and what the mirror's answer or its silence brings about (06 R140, R142,
R143; 18 R475, R476). -/

namespace Sys2Proof.Machine

/-! ### MIRROR_ENTRY (R140 step 3, R475) -/

/-- Without a RELEASE entry nothing is reclaimed (R143). -/
theorem reclaim_unreleased {s : State} (unreleased : ∀ e ∈ s.wb.journal, e.kind ≠ 3) : reclaim s = s := by
  have released (t : Ticket) : s.wb.journal.any (fun e => e.kind == 3 && e.ticket == t) = false :=
    List.any_eq_false.2 fun e he => by simp [unreleased e he]
  have kept : s.wb.journal.filter (fun _ => true) = s.wb.journal := List.filter_eq_self.2 fun _ _ => rfl
  simp only [reclaim, released, Bool.not_false, Bool.true_or, ite_self, kept]

/-- A COMPLETE entry changes nothing on the mirror beside its journal. -/
theorem mirrorTrack_complete {e : JEntry} (complete : e.kind = 2) (s : State) : mirrorTrack e s = s := by
  simp only [mirrorTrack, complete]

theorem exec_mirrorEntry_mirror {s : State} {e : JEntry} (run : Runs s) (mirror : role s = 1) (complete : e.kind = 2)
    (new : ∀ x ∈ s.wb.journal, x.pos ≠ e.pos) (unreleased : ∀ x ∈ s.wb.journal, x.kind ≠ 3) (src : Node) (epoch : W32) :
    exec (.mirrorEntry src epoch e) s = .next (send src 0 e.ticket (.mirrorAck e.pos false)
      { ticked s with wb := { (ticked s).wb with journal := s.wb.journal ++ [e], journalPos := e.pos + 1,
                                                 tail := s.wb.tail + entryLen e } }) := by
  have acts : role (ticked s) = 1 := mirror
  have other : isManager (ticked s) = false := by simp [isManager, acts]
  have absent : (ticked s).wb.journal.any (·.pos == e.pos) = false := List.any_eq_false.2 fun x hx => by simpa using new x hx
  refine congrArg _ ((whenServing_stamped run _).trans ?_)
  simp only [other, acts, absent, Bool.false_eq_true, if_false, if_true, mirrorTrack_complete complete]
  rw [reclaim_unreleased]
  · rfl
  · simpa [or_imp, forall_and, complete] using unreleased

theorem exec_mirrorEntry_manager {s : State} {epoch : W32} (run : Runs s) (manager : isManager s = true)
    (low : epoch.ult s.dom.mgrEpoch = true) (src : Node) (e : JEntry) :
    exec (.mirrorEntry src epoch e) s = .next (send src 0 e.ticket (.mirrorAck e.pos true) (ticked s)) :=
  congrArg _ ((whenServing_stamped run _).trans ((if_pos manager).trans (if_pos low)))

/-! ### MIRROR_ACK (R140, R142, R475) -/

/-- The request's acceptance waits for the entry at a position. -/
def acceptsAt (pos : W64) (r : Req) : Bool :=
  match r.place with
  | .acceptance p _ _ _ => p == pos
  | _ => false

/-- The requests whose acceptance waits for an entry are accepted. -/
def acceptAt (pos : W64) (s : State) : State := (s.job.reqs.filter (acceptsAt pos)).foldl (fun s r => acceptDone r s) s

theorem acceptAt_none {s : State} {pos : W64} (unasked : ∀ r ∈ s.job.reqs, ∀ a b c, r.place ≠ .acceptance pos a b c) :
    acceptAt pos s = s := by
  have nobody : s.job.reqs.filter (acceptsAt pos) = [] := List.filter_eq_nil_iff.2 fun r hr => by
    unfold acceptsAt
    split
    · next p a b c place => simpa using fun same : p = pos => unasked r hr a b c (same ▸ place)
    · exact Bool.false_ne_true
  rw [acceptAt, nobody, List.foldl_nil]

theorem acceptAt_only {s : State} {pos : W64} {r : Req} {src : Node} {txn : W16} {reject : Option Nat} (only : s.job.reqs = [r])
    (place : r.place = .acceptance pos src txn reject) : acceptAt pos s = acceptDone r s := by
  have asks : acceptsAt pos r = true := by simp [acceptsAt, place]
  rw [acceptAt, only, List.filter_cons_of_pos asks, List.filter_nil, List.foldl_cons, List.foldl_nil]

/-- Where no publication and no swap point waits for the entry, only requests do. -/
theorem entryDone_accepts {s : State} {pos : W64} (unpublished : ∀ b ∈ (acceptAt pos s).gth.pubs, b.pos ≠ some pos)
    (unswapped : (acceptAt pos s).cfg.domSwap = none) : entryDone pos s = acceptAt pos s := by
  have nothing : (acceptAt pos s).gth.pubs.find? (·.pos == some pos) = none :=
    List.find?_eq_none.2 fun b hb => by simpa using unpublished b hb
  unfold entryDone
  generalize accepted : (s.job.reqs.filter _).foldl _ s = x
  obtain rfl : x = acceptAt pos s := accepted.symm
  simp only [nothing, unswapped]

/-- An entry that no request, no publication and no swap point waits for brings nothing about. -/
theorem entryDone_unasked {s : State} {pos : W64} (unasked : ∀ r ∈ s.job.reqs, ∀ a b c, r.place ≠ .acceptance pos a b c)
    (unpublished : ∀ b ∈ s.gth.pubs, b.pos ≠ some pos) (unswapped : s.cfg.domSwap = none) : entryDone pos s = s := by
  have same := acceptAt_none unasked
  exact (entryDone_accepts (by rwa [same]) (by rwa [same])).trans same

/-- The mirror's answer changes no more than `mirrorWait`, `mirrorOk` and `solo`. -/
theorem mirrorHolds_frame (pos : W64) (s : State) : ∃ ok alone,
    mirrorHolds pos s = { s with wb := { s.wb with
      mirrorWait := s.wb.mirrorWait.filter (·.1 != pos), mirrorOk := ok, solo := alone } } := by
  unfold mirrorHolds
  dsimp only
  split
  · exact ⟨_, _, rfl⟩
  · exact ⟨_, _, rfl⟩

theorem mirrorHolds_others {s : State} {pos other : W64} {w : Nat × Bool} (waits : (other, w) ∈ s.wb.mirrorWait) (ne : other ≠ pos) :
    mirrorHolds pos s = { s with wb := { s.wb with mirrorWait := s.wb.mirrorWait.filter (·.1 != pos) } } := by
  have left : (s.wb.mirrorWait.filter (·.1 != pos)).isEmpty = false :=
    List.isEmpty_eq_false_iff.2 (List.ne_nil_of_mem (List.mem_filter.2 ⟨waits, bne_iff_ne.2 ne⟩))
  exact if_neg (Bool.eq_false_iff.1 left)

theorem exec_mirrorAck {s : State} {src : Node} {pos : W64} (run : Runs s) (manager : isManager s = true)
    (mirror : s.dom.mirrorNode = some src) (waited : s.wb.mirrorWait.any (·.1 == pos) = true) :
    exec (.mirrorAck src pos false) s = .next (entryDone pos (mirrorHolds pos (ticked s))) := by
  have manager : isManager (ticked s) = true := manager
  refine congrArg _ ((whenServing_stamped run _).trans ?_)
  simp [manager, mirror, waited]

/-- A request that the range check rejected completes once its acceptance does (R139, R140 step 4). -/
theorem acceptDone_rejected {r : Req} {pos : W64} {src : Node} {txn : W16} {off : Nat}
    (place : r.place = .acceptance pos src txn (some off)) (s : State) :
    acceptDone r s = finish r (rejected off)
      (send src txn r.ticket (.intakeAck r.desc.tag 0) { s with wb.held := s.wb.held ++ [(r.desc.tag, r.ticket)] }) := by
  simp only [acceptDone, place]

/-- The one request in flight here, which the range check rejected, waits for the entry: its tag is held, ACCEPTED goes back, and its
one completion is held back (R109, R139, R140 step 4). -/
theorem entryDone_rejected {s : State} {r : Req} {pos : W64} {src : Node} {txn : W16} {off : Nat} (only : s.job.reqs = [r])
    (place : r.place = .acceptance pos src txn (some off)) (own : r.boss = none) (undecoded : r.dec = none)
    (unpublished : s.gth.pubs = []) (unswapped : s.cfg.domSwap = none) :
    findReq (entryDone pos s) r.ticket = none ∧
      (entryDone pos s).out = s.out ++ [(s.now, ⟨src, myNode s, txn, r.ticket, .intakeAck r.desc.tag 0⟩)] ∧
      ∃ k : Comp, k.ticket = r.ticket ∧ k.status = 5 ∧ k.detail = off ∧
        (entryDone pos s).wb =
          { s.wb with held := s.wb.held ++ [(r.desc.tag, r.ticket)], holdback := s.wb.holdback ++ [k] } := by
  have accepted := (acceptAt_only only place).trans (acceptDone_rejected place s)
  obtain ⟨k, u, finished, -, wb, -, gth, -, cfg, -, out, -, -, -, -, -, -, -, ticket, -, status, detail, -⟩ :=
    finish_own (s := send src txn r.ticket (.intakeAck r.desc.tag 0) { s with wb.held := s.wb.held ++ [(r.desc.tag, r.ticket)] })
      (rejected off) (findReq_known (by simp [only])) own undecoded
  have ended : acceptAt pos s = u := accepted.trans finished
  have done : entryDone pos s = u :=
    (entryDone_accepts (by simp [ended, gth, unpublished]) (by simp [ended, cfg, unswapped])).trans ended
  have gone : findReq u r.ticket = none := finished ▸ findReq_finish ..
  exact done ▸ ⟨gone, out, k, ticket, status, detail, wb⟩

/-! ### MIRROR_ACK_TIMEOUT (R140 step 3, R142) -/

section
variable {s : State} {pos : W64} {since : Nat}

theorem exec_mirrorAckTimeout {again : Bool} (run : serving s = true) (manager : isManager s = true) (current : s.dom.superseded = false)
    (paired : s.wb.solo = false) (waits : s.wb.mirrorWait = [(pos, since, again)]) (late : past s since 100000 = true) {m : Node}
    (mirror : s.dom.mirrorNode = some m) {e : JEntry} (entry : s.wb.journal.find? (fun e => e.pos == pos) = some e) :
    exec (.mirrorAckTimeout pos) s = .next (if again then goSolo s
      else send m 0 e.ticket (.mirrorEntry e) { s with wb := { s.wb with mirrorWait := [(pos, s.now, true)] } }) := by
  refine congrArg _ ((whenServing_pos run _).trans ?_)
  simp [waits, late, manager, current, paired, mirror, entry]

/-- The manager waits for no mirror any more (R142). -/
def unpaired (s : State) : State := { s with wb := { s.wb with solo := true, mirrorOk := false, mirrorWait := [] } }

/-- A manager whose one entry stays unanswered goes on alone; where nothing waits for the entry, nothing else comes of it (R142). -/
theorem goSolo_unasked {x : Nat × Bool} (room : s.wb.seq.toNat < 0xFFF000000000) (waits : s.wb.mirrorWait = [(pos, x)])
    (idle : s.job.reqs = []) (unpublished : s.gth.pubs = []) (unswapped : s.cfg.domSwap = none) :
    goSolo s = event (ticketNext s) 0x53 devLoc 0 2 0 0 [] (unpaired (ticked s)) := by
  have alone : goSolo s = entryDone pos (event (ticketNext s) 0x53 devLoc 0 2 0 0 [] (unpaired (ticked s))) := by
    simp only [goSolo, waits, List.map_cons, List.map_nil, List.foldl_cons, List.foldl_nil]
    exact congrArg (entryDone pos) (stamped_ticked (s := unpaired s) room _)
  rw [alone]
  refine entryDone_unasked ?_ ?_ ?_ <;> rw [event_frame]
  · simp [unpaired, idle]
  · simp [unpaired, unpublished]
  · exact unswapped

end

/-- Settles O28: MIRROR_ENTRY as the role of the device has it, and MIRROR_ACK or its absence as what waits for the entry has it. -/
theorem theMirrorKeepsTheJournal : Obligations.TheMirrorKeepsTheJournal := by
  refine ⟨fun src ep e s run mirror complete new unreleased => exec_mirrorEntry_mirror run mirror complete new unreleased src ep,
    fun src ep e s run manager low => exec_mirrorEntry_manager run manager low src e,
    fun src pos other w s run manager mirror waited waits ne unasked unpublished unswapped => ?_,
    fun src src' txn pos off r s run manager mirror waited only place own undecoded unpublished unswapped => ?_,
    fun pos since m e again s run manager current paired waits late mirror entry => ⟨fun first => ?_,
      fun second idle unpublished unswapped => ?_⟩⟩
  · have held := mirrorHolds_others (s := ticked s) waits ne
    rw [exec_mirrorAck run manager mirror waited, held]
    exact congrArg _ (entryDone_unasked unasked unpublished unswapped)
  · obtain ⟨ok, alone, held⟩ := mirrorHolds_frame pos (ticked s)
    rw [exec_mirrorAck run manager mirror waited, held]
    obtain ⟨gone, out, k, ticket, status, detail, wb⟩ :=
      entryDone_rejected (s := { ticked s with wb := { (ticked s).wb with
        mirrorWait := s.wb.mirrorWait.filter (·.1 != pos), mirrorOk := ok, solo := alone } })
        only place own undecoded unpublished unswapped
    refine ⟨_, rfl, ?_, ?_, gone, k, congrArg (·.holdback) wb, ticket, status, detail⟩
    · exact congrArg (·.held) wb ▸ List.mem_append_right _ (List.mem_singleton_self _)
    · exact out ▸ List.mem_append_right _ (List.mem_singleton_self _)
  · rw [exec_mirrorAckTimeout run.1 manager current paired waits late mirror entry, first]
    rfl
  · rw [exec_mirrorAckTimeout run.1 manager current paired waits late mirror entry, second, if_pos rfl,
      goSolo_unasked run.2 waits idle unpublished unswapped]
    rfl

end Sys2Proof.Machine

/-! SUPPORT. COMPLETION_POST and CQ_STALLED: when a completion is held back, journaled or posted, and a ring that stays full (06 R150 to
R152). -/

namespace Sys2Proof.Machine

/-! ### COMPLETION_POST (R150, R151) -/

section
variable {s : State} {t : Ticket} {k : Comp} (run : serving s = true) (found : s.wb.holdback.find? (·.ticket == t) = some k)
include run found

/-- Out of its stream's turn, or with the ring full or disabled, a completion stays held back. -/
theorem exec_completionPost_held (held : streamTurn s k = false ∨ s.wb.cq.open = false) : exec (.completionPost t) s = .next s := by
  refine congrArg _ ((whenServing_pos run _).trans ?_)
  simp only [found]
  exact if_pos (by rcases held with h | h <;> simp [h])

variable (takes : accepts s = true) (turn : streamTurn s k = true) (room : s.wb.cq.open = true)
include takes turn room

/-- Once its COMPLETE entry is not waited for, a completion is posted. -/
theorem exec_completionPost_posts {p : W64} (entry : k.pos = some p) (taken : ∀ w ∈ s.wb.mirrorWait, w.1 ≠ p) :
    exec (.completionPost t) s = .next (postRecord k s) := by
  have unwaited : s.wb.mirrorWait.any (·.1 == p) = false := List.any_eq_false.2 fun w hw => by simpa using taken w hw
  refine congrArg _ ((whenServing_pos run _).trans ?_)
  simp [found, takes, turn, room, entry, unwaited]

/-- Where acknowledgements wait for the mirror, a completion without an entry is journaled, and no more. -/
theorem exec_completionPost_journals (unentered : k.pos = none) (fits : completeFits s k = true) (waits : mirrored s = true) :
    exec (.completionPost t) s = .next (journaled k.ticket s.wb.journalPos (journal 2 k.ticket k.tag (k.bytes false ++ k.result) s).1) := by
  have waits' : mirrored (journaled k.ticket s.wb.journalPos (journal 2 k.ticket k.tag (k.bytes false ++ k.result) s).1) = true :=
    (journal_mirrored ..).trans waits
  refine congrArg _ ((whenServing_pos run _).trans ?_)
  simp [found, takes, turn, room, unentered, fits, waits']

end

/-! ### CQ_STALLED (R152) -/

theorem exec_cqStalled {s : State} {since : Nat} (run : Runs s) (full : s.wb.cq.fullSince = some since)
    (late : past s since 1000000000 = true) (unstalled : s.wb.cqStalled = false) :
    exec .cqStalled s = .next (event (ticketNext s) 0x64 devLoc 0 1 0 0 [] (ticked { s with wb := { s.wb with cqStalled := true } })) := by
  refine congrArg _ ((whenServing_pos run.1 _).trans ?_)
  simp only [full, late, unstalled, Bool.not_false, Bool.and_self, if_true]
  exact stamped_ticked (s := { s with wb := { s.wb with cqStalled := true } }) run.2 _

/-- Settles O29: a completion is held back, journaled or posted, and a ring that stays full is recorded. -/
theorem completionsArePostedInOrder : Obligations.CompletionsArePostedInOrder := by
  refine ⟨fun t k p s run found takes turn room entry taken => ?_,
    fun t k s run found held => exec_completionPost_held run found held,
    fun t k s run found manager paired turn room unentered fits => ?_,
    fun since s run full late unstalled => exec_cqStalled run full late unstalled⟩
  · rw [exec_completionPost_posts run found takes turn room entry taken]
    rfl
  · refine ⟨_, exec_completionPost_journals run found (accepts_manager manager) turn room unentered fits
      (mirrored_manager manager paired), ?_⟩
    simp [journaled, entryAppended]

end Sys2Proof.Machine

/-! SUPPORT. Fences: what INTEGRATED_VOLTAGE_REGULATOR_FAULT does to a Bench (08 R201; 20 R541). -/

namespace Sys2Proof.Machine

/-! ### A fence (R201) -/

/-- The Bench `b` of this number is marked as fenced and counted (R201, R204). -/
def fenceMarked (bench : Nat) (b : Bench) (s : State) : State :=
  { s with flt := { s.flt with benches := s.flt.benches.set bench { b with fenced := true }, benchFenced := satInc s.flt.benchFenced } }

theorem stageOfBench_noSet {s : State} (noActive : s.cfg.active = none) (noRetiring : s.cfg.retiring = none) (bench : Nat) :
    stageOfBench s bench = 0xFFFF := by
  simp [stageOfBench, noActive, noRetiring]

theorem loadFenced_noLoad {s : State} (noLoad : s.cfg.load = none) : loadFenced s = s := by
  simp only [loadFenced, noLoad]

theorem fenceBench_fenced {s : State} {bench : Nat} (fenced : (s.flt.benches.getD bench {}).fenced = true) (attempts : Nat) :
    fenceBench bench attempts s = s := if_pos fenced

/-- With no set no binding changes, with no step nothing is repeated, and with no tile to run again on the Bench none is given up: of
the fence there remain the mark, the count and the record (R201, R506). -/
theorem fenceBench_unused {s : State} {bench : Nat} {b : Bench} (known : s.flt.benches[bench]? = some b) (inService : b.fenced = false)
    (noActive : s.cfg.active = none) (noRetiring : s.cfg.retiring = none) (noLoad : s.cfg.load = none) (noStep : s.job.steps = [])
    (settled : ∀ x ∈ s.flt.retrying, x.1 ≠ bench) (below : s.wb.seq.toNat < 0xFFF000000000) (attempts : Nat) :
    fenceBench bench attempts s =
      event (ticketNext s) 0x03 (benchLoc bench 0xFFFF) 0xFFFF attempts 3 0 [] (ticked (fenceMarked bench b s)) := by
  have here : s.flt.benches.getD bench {} = b := by rw [List.getD_eq_getElem?_getD, known, Option.getD_some]
  have unrepeated (f : Step → Step) : s.job.steps.map f = s.job.steps := by rw [noStep, List.map_nil]
  have kept : s.flt.retrying.filter (·.1 != bench) = s.flt.retrying :=
    List.filter_eq_self.2 fun x hx => bne_iff_ne.2 (settled x hx)
  have unbound : { s.cfg with active := none, retiring := none } = s.cfg :=
    congr (congrArg (fun a r => { s.cfg with active := a, retiring := r }) noActive.symm) noRetiring.symm
  have unloaded : loadFenced (fenceMarked bench b s) = fenceMarked bench b s := loadFenced_noLoad noLoad
  simp only [fenceBench, here, inService, unrepeated, kept, noActive, noRetiring, stageOfBench_noSet noActive noRetiring, setBench,
    Option.map_none, Option.getD_none, Bool.and_self, unbound, Bool.false_eq_true, if_false, if_true]
  exact (congrArg (stamped · _) unloaded).trans (stamped_ticked (s := fenceMarked bench b s) below _)

/-! ### INTEGRATED_VOLTAGE_REGULATOR_FAULT (R541) -/

section
variable {s : State} {bench : Nat} (run : serving s = true)
include run

theorem exec_regulatorFault (isBench : bench < 96) :
    exec (.integratedVoltageRegulatorFault bench) s = .next (fenceBench bench 1 s) :=
  congrArg _ ((whenServing_pos run _).trans (if_pos isBench))

theorem exec_regulatorFault_noBench (noBench : 96 ≤ bench) : exec (.integratedVoltageRegulatorFault bench) s = .next s :=
  congrArg _ ((whenServing_pos run _).trans (if_neg (Nat.not_lt.2 noBench)))

/-- A Bench that is fenced already, or no Bench at all: nothing happens (R201, R541). -/
theorem exec_regulatorFault_idle (idle : 96 ≤ bench ∨ (s.flt.benches.getD bench {}).fenced = true) :
    exec (.integratedVoltageRegulatorFault bench) s = .next s := by
  obtain isBench | noBench := Nat.lt_or_ge bench 96
  · rw [exec_regulatorFault run isBench, fenceBench_fenced (idle.resolve_left (Nat.not_le.2 isBench))]
  · exact exec_regulatorFault_noBench run noBench

end

/-- Settles O25: a Bench in service that no set, load, step or tile to run again concerns is marked, counted and recorded; for a fenced
Bench and for no Bench nothing happens. -/
theorem benchesAreFenced : Obligations.BenchesAreFenced := by
  refine ⟨fun bench b s run known isBench inService noActive noRetiring noLoad noStep settled => ?_,
    fun bench s run idle => exec_regulatorFault_idle run idle⟩
  rw [exec_regulatorFault run.1 isBench,
    fenceBench_unused known inService noActive noRetiring noLoad noStep settled run.2]
  rfl

end Sys2Proof.Machine

/-! SUPPORT. STREAM_REC: a decode device's stream record is written to the ring, or waits for it (10 R239, R250). -/

namespace Sys2Proof.Machine

/-! ### Waiting stream records (R239, R250) -/

theorem pumpStream_closed {s : State} (closed : s.txt.sr.open = false) (n : Nat) : pumpStream n s = s := by
  cases n with
  | zero => rfl
  | succ n =>
    simp only [pumpStream, closed, Bool.false_eq_true, if_false]
    split <;> rfl

theorem pumpStreams_closed {s : State} (closed : s.txt.sr.open = false) : pumpStreams s = s := pumpStream_closed closed _

/-- The one record that waits is written at the tail of a ring with room, with the phase of the ring's pass in its flags. -/
theorem pumpStreams_one {s : State} {b : List Byte} (one : s.txt.srWaiting = [b]) (room : s.txt.sr.open = true) :
    pumpStreams s =
      { ringWrite s.txt.srBase s.txt.sr (b.set 26 (b.getD 26 0 ||| (if s.txt.sr.pass then 1 else 0))) s with
        txt := { s.txt with sr := s.txt.sr.next, srWaiting := [] } } := by
  simp only [pumpStreams, one, List.length_cons, List.length_nil, pumpStream, room, if_true]
  rfl

/-- What STREAM_REC does with a record at a device that accepts work. -/
theorem exec_streamRec {s : State} (run : Runs s) (takes : accepts s = true) (src : Node) (b : List Byte) :
    exec (.streamRec src b) s =
      .next (if b.length != 64 then badTxn (ticked s) else pumpStreams { ticked s with txt.srWaiting := s.txt.srWaiting ++ [b] }) := by
  have takes : accepts (ticked s) = true := takes
  refine congrArg _ ((whenServing_stamped run _).trans ?_)
  rw [takes, Bool.not_true, if_neg Bool.false_ne_true]
  rfl

/-- Settles O34: a record of 64 bytes joins those that wait, and an open ring with none waiting takes it at once. -/
theorem streamRecordsReachTheRing : Obligations.StreamRecordsReachTheRing := by
  refine fun src b s run takes => ⟨fun whole room none => ?_, fun whole closed => ?_, fun other => ?_⟩ <;>
    rw [exec_streamRec run takes]
  · have one : s.txt.srWaiting ++ [b] = [b] := by rw [none, List.nil_append]
    rw [if_neg (by simp [whole]), pumpStreams_one (s := { ticked s with txt.srWaiting := s.txt.srWaiting ++ [b] }) one room, ← none]
    rfl
  · rw [if_neg (by simp [whole]), pumpStreams_closed (s := { ticked s with txt.srWaiting := s.txt.srWaiting ++ [b] }) closed]
    rfl
  · rw [if_pos (by simpa using other)]
    rfl

end Sys2Proof.Machine

/-! SUPPORT. TOKENIZE and PACK: what a text and a prompt become, and what they end with (10 R226 to R246; 02 R31, R36). -/

namespace Sys2Proof.Machine

/-! ### Requests by ticket -/

theorem findReq_ticket {s : State} {t : Ticket} {r : Req} (found : findReq s t = some r) : r.ticket = t := by
  simpa using List.find?_some found

theorem findReq_found {s : State} {t : Ticket} {r : Req} (found : findReq s t = some r) : (findReq s r.ticket).isNone = false :=
  findReq_known (List.mem_of_find?_eq_some found)

/-- The end of a request that is not a DECODE being stepped leaves the text engine as it is. -/
theorem finish_txt {r : Req} (o : Outcome) (s : State) (undecoded : r.dec = none) : (finish r o s).txt = s.txt := by
  unfold finish
  simp only [closeDecode, undecoded]
  (repeat' split) <;> simp

/-- A request of this device that is rejected is in flight no longer, and completes REJECTED_RANGE with the offset (R109). -/
theorem finish_rejected {r : Req} {s : State} (detail : Nat) (known : (findReq s r.ticket).isNone = false) (own : r.boss = none)
    (undecoded : r.dec = none) :
    findReq (finish r (rejected detail) s) r.ticket = none ∧
      ∃ k : Comp, (finish r (rejected detail) s).wb.holdback = s.wb.holdback ++ [k] ∧ k.ticket = r.ticket ∧ k.status = 5 ∧
        k.detail = detail := by
  obtain ⟨k, x, hx, -, wb, -, -, -, -, -, -, -, -, -, -, -, -, -, ticket, -, status, detail', -⟩ :=
    finish_own (rejected detail) known own undecoded
  exact ⟨findReq_finish .., k, by rw [hx, wb], ticket, status, detail'⟩

/-- The only request in flight is the one that was added to none. -/
theorem addReq_only {s : State} {r : Req} (only : s.job.reqs = [r]) : addReq r { s with job := { s.job with reqs := [] } } = s := by
  simp only [addReq, List.nil_append, ← only]

/-! ### TOKENIZE (R226, R235, R248) -/

section
variable {s : State} {t : Ticket} {r : Req} {p : Plan} {nt : NormTables} {l : LatticeParams} {k : TokResult} (run : serving s = true)
  (found : findReq s t = some r) (waits : r.place = .text) (plan : r.plan s = some p) (tables : p.normTables = some nt)
  (lattice : p.lattice = some l) (reads : tokenizeText nt l p.vocab (queryText r) = k)
include run found waits plan tables lattice reads

/-- A text that waits is tokenized and counted; a refused one ends its request, and the tokens of another go on with it. -/
theorem exec_tokenize :
    exec (.tokenize t) s = .next
      (if k.refused then finish r (rejected 0x20) (countText k s) else afterText { r with tokens := k.tokens } (countText k s)) := by
  refine congrArg _ ((whenServing_pos run _).trans ?_)
  simp only [found, waits, plan, tables, lattice, reads, Option.bind_some, Option.map_some, bne_self_eq_false, Bool.false_eq_true,
    if_false]

theorem exec_tokenize_refused (own : r.boss = none) (undecoded : r.dec = none) (refused : k.refused = true) :
    ∃ u, exec (.tokenize t) s = .next u ∧ findReq u t = none ∧ u.txt.textTooLong = satInc s.txt.textTooLong ∧
      ∃ k : Comp, u.wb.holdback = s.wb.holdback ++ [k] ∧ k.ticket = t ∧ k.status = 5 ∧ k.detail = 0x20 := by
  have ended := finish_rejected (s := countText k s) 0x20 (findReq_found found) own undecoded
  rw [findReq_ticket found] at ended
  have counted : (finish r (rejected 0x20) (countText k s)).txt.textTooLong = satInc s.txt.textTooLong := by
    rw [finish_txt _ _ undecoded]
    exact if_pos refused
  exact ⟨_, (exec_tokenize run found waits plan tables lattice reads).trans (congrArg _ (if_pos refused)), ended.1, counted, ended.2⟩

end

/-- An EMBED or a QUERY whose tokens are there enters the queue of its first encode stage, where that has room (R31, R36). -/
theorem afterText_queues {s : State} {r r' : Req} {p : Plan} {g : List Nat} {rest : List (List Nat)} (ticket : r'.ticket = r.ticket)
    (fresh : ∀ q ∈ s.job.reqs, q.ticket ≠ r.ticket) (out : r'.place ≠ .queue) (type : r'.desc.type ≤ 1) (plan : r'.plan s = some p)
    (ha : agendaOf p r'.desc.type 0 = g :: rest) (one : g.length = 1) (room : groupRoom s p g = true) :
    afterText r' (addReq r s) = addReq { r' with phase := 0, agenda := g :: rest, place := .queue } s := by
  have fresh' : ∀ q ∈ s.job.reqs, q.ticket ≠ r'.ticket := ticket ▸ fresh
  rw [← advance_startPhase 0 plan ha one room out fresh', setReq_addReq rfl fresh', ← setReq_addReq ticket fresh]
  exact if_neg (by omega)

/-! ### PACK (R245, R246) -/

/-- The request with its packed prompt. -/
def withPrompt (k : PackResult) (r : Req) : Req := { r with packed := k.tokens, placed := k.placed }

/-- TXT_COUNTS for one packed prompt (R248). -/
def countPack (k : PackResult) (s : State) : State :=
  { s with txt := { s.txt with packSkip := satAdd s.txt.packSkip k.packSkip, tokMismatch := satAdd s.txt.tokMismatch k.tokMismatch } }

/-- A PACK whose prompt is accepted ends with the prompt (R246). -/
theorem packNow_accepted {s : State} {r : Req} {tm : Template} {t : Ticket} {k : PackResult} (type : r.desc.type = 4)
    (named : (r.plan s).bind (·.template? r.desc.template) = some tm) (packs : packPrompt tm r.desc.budget [] (packList r t s) = k)
    (accepted : k.refused = false) :
    packNow r t s =
      finish (withPrompt k r) { status := okStatus r, result := packedBytes k, nValid := k.placed.length } (countPack k s) := by
  simp only [packNow, named, type, if_true, packs, accepted, Bool.false_eq_true, if_false]
  rfl

theorem packNow_noTemplate {s : State} {r : Req} {t : Ticket} (unnamed : (r.plan s).bind (·.template? r.desc.template) = none) :
    packNow r t s = finish r (rejected 3) s := by
  simp only [packNow, unnamed]

section
variable {s : State} {t : Ticket} {r : Req} (run : Runs s) (found : findReq s t = some r) (waits : r.place = .pack)
  (unpacked : r.packed = []) (type : r.desc.type = 4) (worker : isManager s = false)
include run found waits unpacked type worker

/-- A PACK of a device that is no manager is packed at a ticket of its own, with what the device itself fetches. -/
theorem exec_pack : exec (.pack t) s = .next (packNow r (ticketNext s) (ticked s)) := by
  refine congrArg _ ((whenServing_pos run.1 _).trans ?_)
  simp only [found, waits, unpacked, type, worker, bne_self_eq_false, List.isEmpty_nil, Bool.not_true, Bool.not_false, decide_true,
    Bool.and_self, Bool.false_eq_true, if_false, if_true]
  exact stamped_ticked run.2 _

variable (own : r.boss = none) (undecoded : r.dec = none)
include own undecoded

theorem exec_pack_completes {tm : Template} {k : PackResult} (named : (r.plan s).bind (·.template? r.desc.template) = some tm)
    (packs : packPrompt tm r.desc.budget [] (packList r (ticketNext s) (ticked s)) = k) (accepted : k.refused = false) :
    ∃ u, exec (.pack t) s = .next u ∧ findReq u t = none ∧ u.wb.seq = s.wb.seq + 1 ∧
      ∃ c : Comp, u.wb.holdback = s.wb.holdback ++ [c] ∧ c.ticket = t ∧ c.status = okStatus r ∧ c.result = packedBytes k := by
  have known : (findReq s r.ticket).isNone = false := findReq_found found
  obtain rfl : r.ticket = t := findReq_ticket found
  obtain ⟨c, u, finished, -, wb, -, -, -, -, -, -, -, -, -, -, -, -, -, ticket, -, status, -, -, result, -⟩ :=
    finish_own (r := withPrompt k r) (s := countPack k (ticked s))
      { status := okStatus r, result := packedBytes k, nValid := k.placed.length } known own undecoded
  have packed : packNow r (ticketNext s) (ticked s) = u := (packNow_accepted (s := ticked s) type named packs accepted).trans finished
  have gone : findReq u r.ticket = none := finished ▸ findReq_finish ..
  exact ⟨u, (exec_pack run found waits unpacked type worker).trans (congrArg _ packed), gone, congrArg (·.seq) wb, c,
    congrArg (·.holdback) wb, ticket, status, result⟩

theorem exec_pack_noTemplate (unnamed : (r.plan s).bind (·.template? r.desc.template) = none) :
    ∃ u, exec (.pack t) s = .next u ∧ findReq u t = none ∧
      ∃ k : Comp, u.wb.holdback = s.wb.holdback ++ [k] ∧ k.ticket = t ∧ k.status = 5 ∧ k.detail = 3 := by
  have rejects : packNow r (ticketNext s) (ticked s) = finish r (rejected 3) (ticked s) := packNow_noTemplate unnamed
  have ended := finish_rejected (s := ticked s) 3 (findReq_found found) own undecoded
  rw [findReq_ticket found] at ended
  exact ⟨_, (exec_pack run found waits unpacked type worker).trans (congrArg _ rejects), ended⟩

end

/-- Neither command acts on a request that does not wait for it. -/
theorem exec_tokenize_pack_idle {s : State} {t : Ticket} (run : serving s = true)
    (elsewhere : ∀ r, findReq s t = some r → r.place ≠ .text ∧ r.place ≠ .pack) :
    exec (.tokenize t) s = .next s ∧ exec (.pack t) s = .next s := by
  refine ⟨congrArg _ ((whenServing_pos run _).trans ?_), congrArg _ ((whenServing_pos run _).trans ?_)⟩ <;> split
  · rfl
  · next r found => exact if_pos (by simpa using (elsewhere r found).1)
  · rfl
  · next r found => exact if_pos (by simpa using (elsewhere r found).2)

/-- Settles O35: a refused text (R235) and a template that the plan does not hold (R109) reject the request, tokens take it to its queue,
and a packed prompt completes it; a request elsewhere stays. -/
theorem textIsTokenizedAndPacked : Obligations.TextIsTokenizedAndPacked := by
  refine ⟨fun t r p nt l s run found waits own undecoded plan tables lattice refused =>
      exec_tokenize_refused run found waits plan tables lattice rfl own undecoded refused,
    fun t r p nt l g rest s run only ticket waits type plan tables lattice accepted ha one room => ?_,
    fun t r s run found waits unpacked type worker own undecoded => ⟨fun p tm plan template accepted => ?_, fun unnamed => ?_⟩,
    fun t s run elsewhere => exec_tokenize_pack_idle run elsewhere⟩
  · have found : findReq s t = some r := by simp [findReq, only, ticket]
    have out : r.place ≠ .queue := by simp [waits]
    rw [exec_tokenize run found waits plan tables lattice rfl, if_neg (by simp [accepted])]
    generalize tokenizeText nt l p.vocab (queryText r) = k
    have counted : countText k s = addReq r (countText k { s with job := { s.job with reqs := [] } }) :=
      congrArg (countText k) (addReq_only only).symm
    rw [← addReq_only only, groupRoom_addReq p g out] at room
    rw [counted]
    exact congrArg _ (afterText_queues (r' := { r with tokens := k.tokens }) rfl (List.forall_mem_nil _) out type plan ha one room)
  · have named : (r.plan s).bind (·.template? r.desc.template) = some tm := by rw [plan, Option.bind_some, template]
    exact exec_pack_completes run found waits unpacked type worker own undecoded named rfl accepted
  · exact exec_pack_noTemplate run found waits unpacked type worker own undecoded unnamed

end Sys2Proof.Machine

/-! SUPPORT. GATHER_REQ and GATHER_ANS: the rows of a slice that a device sends for another's gather, and the slices that come for a
gather of its own (11 R258, R261, R263, R264). -/

namespace Sys2Proof.Machine

/-! ### Rows and their counts (R255, R261) -/

/-- A count added to a region touches the memory cells and `cnt_sat` alone. -/
theorem addCount_frame (t : TableSpec) (r i n : Nat) (s : State) :
    addCount t r i n s = { s with mem.cells := (addCount t r i n s).mem.cells, gth.cntSat := (addCount t r i n s).gth.cntSat } := by
  unfold addCount
  dsimp only
  rw [objPut_frame]
  split <;> rfl

theorem addCounts_frame (t : TableSpec) (v : Nat) (idx : List Nat) (s : State) :
    addCounts t v idx s = { s with mem.cells := (addCounts t v idx s).mem.cells, gth.cntSat := (addCounts t v idx s).gth.cntSat } := by
  unfold addCounts
  induction dedup (idx.filter (· != padIndex)) generalizing s with
  | nil => rfl
  | cons i is ih => rw [List.foldl_cons, ih, addCount_frame]

/-- What a send adds after counting is what it adds without. -/
theorem send_addCounts_out (dst : Node) (txn : W16) (tk : Ticket) (m : Msg) (t : TableSpec) (v : Nat) (idx : List Nat) (s : State) :
    (send dst txn tk m (addCounts t v idx s)).out = (send dst txn tk m s).out := by
  rw [addCounts_frame]
  rfl

/-! ### GATHER_REQ (R263, R264) -/

/-- The answer to a gather of a version that is here: the rows of the indices in range, in index order (log 36). -/
def gatherAnswer (t : Table) (version : Nat) (index : List Nat) (s : State) : Msg :=
  let idx := index.filter (· < t.spec.rows)
  .gatherAns t.spec.table version idx.length t.spec.sliceFirst t.spec.sliceWidth
    (idx.flatMap fun i => (decodeRow s t.spec version i).elems.flatMap (outBytes t.spec.outFormat))

theorem serveGather_out {t : Table} {version : Nat} {index : List Nat} {s : State} (src : Node) (tk : Ticket)
    (clean : ∀ i ∈ index, i < t.spec.rows → (decodeRow s t.spec version i).poisoned = false) :
    (serveGather src tk t version index s).out = s.out ++ [(s.now, ⟨src, myNode s, 0, tk, gatherAnswer t version index s⟩)] := by
  have unpoisoned : ((index.filter (· < t.spec.rows)).map fun i => decodeRow s t.spec version i).any (·.poisoned) = false := by
    simpa using clean
  simp only [serveGather, unpoisoned, Bool.false_eq_true, if_false, send_addCounts_out, List.flatMap_map]
  rfl

theorem gatherCommits_unprepared {t : Table} (unprepared : t.prepared = none) (version : Nat) : gatherCommits t version = t := by
  simp [gatherCommits, unprepared]

section
variable {s : State} {x : W32} (run : Runs s)
include run

theorem exec_gatherReq_here {t : Table} {v : W32} (found : findTable s x.toNat = some t) (sliced : t.spec.remote = false)
    (unprepared : t.prepared = none) (here : versionHere t v.toNat = true) (src : Node) (txn : W16) (tk : Ticket) (hard : W32)
    (index : List Nat) :
    exec (.gatherReq src txn tk x v hard index) s = .next (serveGather src tk t v.toNat index (setTable t (ticked s))) := by
  have found : findTable (ticked s) x.toNat = some t := found
  refine congrArg _ ((whenServing_stamped run _).trans ?_)
  simp only [found, sliced, gatherCommits_unprepared unprepared, here, Bool.false_eq_true, if_false, if_true]

theorem exec_gatherReq_noTable (unknown : findTable s x.toNat = none) (src : Node) (txn : W16) (tk : Ticket) (v hard : W32)
    (index : List Nat) : exec (.gatherReq src txn tk x v hard index) s = .next (ticked s) := by
  have unknown : findTable (ticked s) x.toNat = none := unknown
  refine congrArg _ ((whenServing_stamped run _).trans ?_)
  simp only [unknown]

end

/-! ### GATHER_ANS (R263, R264) -/

/-- The gather with one more slice. -/
def Gather.withSlice (g : Gather) (first width : Nat) (rows : List Byte) : Gather := { g with slices := g.slices ++ [(first, width, rows)] }

theorem setGather_only {s : State} {g g' : Gather} (only : s.gth.gathers = [g]) (step : g.step = g'.step) (table : g.table = g'.table) :
    setGather g' s = { s with gth.gathers := [g'] } := by
  simp [setGather, only, step, table]

section
variable {s : State} {tk : Ticket} {x v : W32} {first width : Nat} {rows : List Byte} (run : Runs s) (src : Node)
include run

/-- A slice of columns that had not come is kept, and nothing follows from it while columns are missing. -/
theorem exec_gatherAns_partial {g : Gather} {t : Table} (only : s.gth.gathers = [g]) (ticket : g.ticket = tk) (table : g.table = x.toNat)
    (version : g.version = v.toNat) (found : findTable s x.toNat = some t) (fresh : ∀ y ∈ g.slices, y.1 ≠ first)
    (missing : slicesCover t.spec.dims (g.withSlice first width rows).slices = false) :
    exec (.gatherAns src tk x v first width rows) s =
      .next { ticked s with gth.gathers := [g.withSlice first width rows] } := by
  have only : (ticked s).gth.gathers = [g] := only
  have found : findTable (ticked s) x.toNat = some t := found
  have waited : [g].find? (fun g => g.ticket == tk && g.table == x.toNat && g.version == v.toNat) = some g := by
    simp [ticket, table, version]
  have fresh : g.slices.any (·.1 == first) = false := List.any_eq_false.2 fun y hy => by simpa using fresh y hy
  have kept : setGather (g.withSlice first width rows) (ticked s) = { ticked s with gth.gathers := [g.withSlice first width rows] } :=
    setGather_only only rfl rfl
  refine congrArg _ ((whenServing_stamped run _).trans ?_)
  simp only [only, waited, found, fresh, Bool.false_eq_true, if_false]
  rw [← kept]
  split
  · exact if_neg (Bool.eq_false_iff.1 missing)
  · rfl

/-- Columns that have come already, or that no gather waits for, are discarded. -/
theorem exec_gatherAns_discarded (held : ∀ g ∈ s.gth.gathers, g.ticket = tk → ∃ y ∈ g.slices, y.1 = first) :
    exec (.gatherAns src tk x v first width rows) s = .next (ticked s) := by
  refine congrArg _ ((whenServing_stamped run _).trans ?_)
  split
  · next g t waited _ =>
    have named : g.ticket = tk := by
      have := List.find?_some waited
      simp only [Bool.and_eq_true, beq_iff_eq] at this
      exact this.1.1
    obtain ⟨y, hy, same⟩ := held g (List.mem_of_find?_eq_some waited) named
    exact if_pos (List.any_eq_true.2 ⟨y, hy, by simpa using same⟩)
  · rfl

end

/-- Settles O40: a gather of a version that is here is answered with the rows in range (R263, log 36), one of a table that is not here
only takes its ticket, and a slice that comes joins its gather, or is discarded (R264). -/
theorem gathersAreServedAndCollected : Obligations.GathersAreServedAndCollected := by
  refine ⟨fun src txn tk x v hard index t s run found named sliced unprepared here clean =>
      ⟨_, exec_gatherReq_here run found sliced unprepared here src txn tk hard index, ?_⟩,
    fun src txn tk x v hard index s run unknown => exec_gatherReq_noTable run unknown src txn tk v hard index,
    fun src tk x v first width rows g t s run only ticket table version found fresh missing =>
      exec_gatherAns_partial run src only ticket table version found fresh missing,
    fun src tk x v first width rows s run held => exec_gatherAns_discarded run src held⟩
  -- The row decoder reads memory alone, which neither the ticket nor the table's entry touches.
  have answered := serveGather_out (s := setTable t (ticked s)) src tk clean
  rw [gatherAnswer, named] at answered
  exact answered

end Sys2Proof.Machine

/-! SUPPORT. Folds and index versions: how a fold starts, commits a unit and is published (12 R303 to R307, R311; 16 R411), and what
retirement, compaction, a checkpoint and a restoration leave of a collection (12 R306, R307; 16 R404, R409, R410). -/

namespace Sys2Proof.Machine

/-! ### A collection by its number -/

theorem findColl_id {s : State} {id : Nat} {c : Coll} (found : findColl s id = some c) : c.id = id := by
  simpa using List.find?_some found

/-- The collection that is set stands where the one of its number stood. -/
theorem findColl_setColl {s : State} {id : Nat} {c d : Coll} (found : findColl s id = some c) (same : d.id = c.id) :
    findColl (setColl d s) id = some d := by
  obtain rfl : d.id = id := same.trans (findColl_id found)
  have keys : (fun x : Coll => x.id == d.id) ∘ (fun x => if x.id = d.id then d else x) = fun x => x.id == d.id := by
    funext x
    by_cases h : x.id = d.id <;> simp [h]
  rw [findColl, setColl, List.find?_map, keys]
  exact (congrArg (Option.map _) found).trans (congrArg some (if_pos same.symm))

theorem collReady_found {s : State} {id : Nat} {c : Coll} (ready : collReady s id = some c) : findColl s id = some c :=
  (Option.filter_eq_some_iff.1 ready).1

/-- A request of this device that is not a DECODE being stepped ends: it is in flight no longer, the collections stay, and its completion
says what the outcome says (R150). -/
theorem finish_own_ends {r : Req} {s : State} (o : Outcome) (found : findReq s r.ticket = some r) (own : r.boss = none)
    (undecoded : r.dec = none) :
    findReq (finish r o s) r.ticket = none ∧ (finish r o s).srch = s.srch ∧
      ∃ k : Comp, (finish r o s).wb.holdback = s.wb.holdback ++ [k] ∧ k.ticket = r.ticket ∧ k.status = o.status ∧
        k.detail = o.detail ∧ k.result0 = o.result0 := by
  obtain ⟨k, x, hx, -, wb, srch, -, -, -, -, -, -, -, -, -, -, -, -, ticket, -, status, detail, result0, -⟩ :=
    finish_own o (findReq_found found) own undecoded
  exact ⟨findReq_finish .., hx ▸ srch, k, by rw [hx, wb], ticket, status, detail, result0⟩

/-! ### FOLD_START (R303 steps 1 to 3, R307) -/

/-- A fold as it takes its ticket, before its repair set and its end are known. -/
def freshFold (s : State) (c : Coll) (r : Req) : Fold :=
  { ticket := ticketNext s, request := r.ticket, eEnd := c.screeTail, step := 4, next := 0, units := 0, repair := [],
    deleted := deletedAt s c (ticketNext s), records := [], running := true, committed := false }

/-- The fold that `beginFold` begins is the collection's. -/
theorem findColl_beginFold {s : State} {id : Nat} {c d : Coll} (found : findColl s id = some c) (same : d.id = c.id) (f : Fold) :
    findColl (beginFold d f s) id = some { d with fold := some f } := findColl_setColl found same

theorem foldEnd_none {room repair : Nat} (full : room < repair) (c : Coll) (e : Nat) : foldEnd c room repair e = none := if_pos full

section
variable {s : State} {id : Nat} {c : Coll} {r : Req} (run : Runs s)
include run

/-- A collection without a graph has no units to run: its fold stands at the publication (R307). -/
theorem newFold_degreeZero (plain : c.par.degree = 0) :
    newFold c r s = beginFold { c with folded := true } { freshFold s c r with step := 7, eEnd := 0 } (ticked s) :=
  (stamped_ticked run.2 _).trans (if_pos plain)

/-- A graph's repair set is that of the fold's ticket, and says where the fold ends (R303 step 3). -/
theorem newFold_graph (graph : c.par.degree ≠ 0) :
    newFold c r s =
      fitFold { c with folded := true } r { freshFold s c r with repair := repairSet s c (freshFold s c r) }
        (foldEnd c (overlayRecords s c) (repairSet s c (freshFold s c r)).length c.screeTail) (ticked s) :=
  (stamped_ticked run.2 _).trans (if_neg graph)

theorem exec_foldStart_quiet (quiet : ∀ c, findColl s id = some c → foldRuns c = true ∨ nextFold s id = none) :
    exec (.foldStart id) s = .next s := by
  refine congrArg _ ((whenServing_pos run.1 _).trans ?_)
  split
  · next c r ready asked =>
    obtain runs | unasked := quiet c (collReady_found ready)
    · exact if_pos runs
    · simp [unasked] at asked
  · rfl

variable (ready : collReady s id = some c) (asked : nextFold s id = some r) (fresh : recordedOutcome c r.mgr = none)
  (single : c.old = none) (settled : c.compacting = false) (idle : c.fold = none)
include ready asked fresh single settled idle

/-- Step 1 of R303 for a request whose outcome is not recorded yet. -/
theorem exec_foldStart :
    exec (.foldStart id) s = .next
      (if nothingToFold s c then finish r { status := 0, result0 := BitVec.ofNat 64 c.version } s else newFold c r s) := by
  refine congrArg _ ((whenServing_pos run.1 _).trans ?_)
  simp only [ready, asked, foldRuns, startFold, fresh, single, settled, idle, Option.map_none, Option.getD_none, Option.isSome_none,
    Bool.or_self, Bool.false_eq_true, if_false]

theorem exec_foldStart_new (work : nothingToFold s c = false) : exec (.foldStart id) s = .next (newFold c r s) := by
  simp only [exec_foldStart run ready asked fresh single settled idle, work, Bool.false_eq_true, if_false]

theorem exec_foldStart_degreeZero (inFlight : findReq s r.ticket = some r) (work : nothingToFold s c = false)
    (plain : c.par.degree = 0) :
    ∃ u, exec (.foldStart id) s = .next u ∧ findReq u r.ticket = some r ∧
      findColl u id = some { c with folded := true, fold := some { freshFold s c r with eEnd := 0, step := 7 } } := by
  have found := collReady_found ready
  refine ⟨_, exec_foldStart_new run ready asked fresh single settled idle work, ?_⟩
  rw [newFold_degreeZero run plain]
  refine ⟨inFlight, ?_⟩
  rw [findColl_beginFold (s := ticked s) (d := { c with folded := true }) found rfl]

theorem exec_foldStart_fits (inFlight : findReq s r.ticket = some r) (work : nothingToFold s c = false) (graph : c.par.degree ≠ 0)
    {e : Nat} (fits : foldEnd c (overlayRecords s c) (repairSet s c (freshFold s c r)).length c.screeTail = some e) :
    ∃ u g, exec (.foldStart id) s = .next u ∧ findReq u r.ticket = some r ∧ (findColl u id).map (·.fold) = some (some g) ∧
      g = { freshFold s c r with repair := repairSet s c (freshFold s c r), eEnd := e,
                                 step := if repairSet s c (freshFold s c r) = [] then 5 else 4 } := by
  have found := collReady_found ready
  refine ⟨_, _, exec_foldStart_new run ready asked fresh single settled idle work, ?_, ?_, rfl⟩
  all_goals rw [newFold_graph run graph, fits, fitFold]
  · exact inFlight
  · rw [findColl_beginFold (s := ticked s) (d := { c with folded := true }) found rfl]
    simp

theorem exec_foldStart_noRoom (inFlight : findReq s r.ticket = some r) (own : r.boss = none) (undecoded : r.dec = none)
    (work : nothingToFold s c = false) (graph : c.par.degree ≠ 0)
    (full : overlayRecords s c < (repairSet s c (freshFold s c r)).length) :
    ∃ u, exec (.foldStart id) s = .next u ∧ findReq u r.ticket = none ∧
      ∃ k : Comp, u.wb.holdback = s.wb.holdback ++ [k] ∧ k.ticket = r.ticket ∧ k.status = 5 ∧ k.detail = 6 := by
  have ended := finish_rejected (s := setColl { c with folded := true } (ticked s)) 6 (findReq_found inFlight) own undecoded
  refine ⟨_, exec_foldStart_new run ready asked fresh single settled idle work, ?_⟩
  rw [newFold_graph run graph, foldEnd_none full]
  exact ended

theorem exec_foldStart_nothing (inFlight : findReq s r.ticket = some r) (own : r.boss = none) (undecoded : r.dec = none)
    (done : nothingToFold s c = true) :
    ∃ u, exec (.foldStart id) s = .next u ∧ findReq u r.ticket = none ∧ findColl u id = some c ∧
      ∃ k : Comp, u.wb.holdback = s.wb.holdback ++ [k] ∧ k.ticket = r.ticket ∧ k.status = 0 ∧
        k.result0 = BitVec.ofNat 64 c.version := by
  obtain ⟨gone, srch, k, held, ticket, status, -, result0⟩ :=
    finish_own_ends { status := 0, result0 := BitVec.ofNat 64 c.version } inFlight own undecoded
  refine ⟨_, (exec_foldStart run ready asked fresh single settled idle).trans (congrArg _ (if_pos done)), gone, ?_, k, held, ticket,
    status, result0⟩
  rw [findColl, srch]
  exact collReady_found ready

end

/-! ### FOLD_UNIT_COMMIT (R303 steps 4 to 6, R305) -/

/-- Which step comes next changes the fold's step and its place in it alone. -/
theorem foldNext_frame (c : Coll) (f : Fold) :
    foldNext c f = { f with step := (foldNext c f).step, next := (foldNext c f).next } := by
  unfold foldNext
  (repeat' split) <;> rfl

section
variable {s : State} {id : Nat} {c : Coll} {f : Fold} (run : Runs s) (ready : collReady s id = some c) (held : c.fold = some f)
  (running : f.running = true)
include run ready held running

theorem exec_foldUnitCommit (unit : f.step < 7) (room : bufferRoom s (sysCtrl s) 64 = true) :
    exec (.foldUnitCommit id) s = .next (commitUnit c f s) := by
  refine congrArg _ ((whenServing_pos run.1 _).trans ?_)
  simp only [ready, held, running, unit, room, decide_true, Bool.and_self, if_true]

/-! ### FOLD_PUBLISH (R303 step 7, R306) -/

/-- A fold past its units whose publication is committed is switched as soon as no SEARCH step runs. -/
theorem exec_foldPublish (passed : f.step = 7) (committed : f.committed = true) :
    exec (.foldPublish id) s = .next (if searchRunning s then s else publishFold c f s) := by
  refine congrArg _ ((whenServing_pos run.1 _).trans ?_)
  simp only [ready, held, running, passed, committed, collReady_found ready, Bool.not_true, bne_self_eq_false, Bool.or_self,
    Bool.false_eq_true, if_false, if_true]

end

/-- The switch puts the new version in the old one's place, and ends the FOLD that waits for it. -/
theorem publishFold_switches {s : State} {id : Nat} {c : Coll} {f : Fold} {r : Req} (run : Runs s) (found : findColl s id = some c)
    (asked : findReq s f.request = some r) (own : r.boss = none) (undecoded : r.dec = none) :
    findReq (publishFold c f s) r.ticket = none ∧ findColl (publishFold c f s) id = some (switched (ticked s) c f [r.mgr]) ∧
      ∃ k : Comp, (publishFold c f s).wb.holdback = s.wb.holdback ++ [k] ∧ k.ticket = r.ticket ∧ k.status = 0 ∧
        k.result0 = BitVec.ofNat 64 (c.version + 1) := by
  have waits : findReq (ticked s) f.request = some r := asked
  have ends : publishFold c f s =
      finish r { status := 0, result0 := BitVec.ofNat 64 (c.version + 1) } (setColl (switched (ticked s) c f [r.mgr]) (ticked s)) := by
    refine (stamped_ticked run.2 _).trans ?_
    simp only [waits, Option.toList_some, List.map_cons, List.map_nil]
  have inFlight : findReq (setColl (switched (ticked s) c f [r.mgr]) (ticked s)) r.ticket = some r := (findReq_ticket asked).symm ▸ asked
  obtain ⟨gone, srch, k, held, ticket, status, -, result0⟩ :=
    finish_own_ends { status := 0, result0 := BitVec.ofNat 64 (c.version + 1) } inFlight own undecoded
  rw [ends]
  refine ⟨gone, ?_, k, held, ticket, status, result0⟩
  rw [findColl, srch]
  exact findColl_setColl (s := ticked s) found rfl

/-- Settles O42: a fold starts at its ticket with the end that the overlay has room for (R303, R411), or ends at once; a unit is one
entry of the journal (R305); and the switch waits for the SEARCH steps (R306). -/
theorem foldsRunByUnitsAndPublish : Obligations.FoldsRunByUnitsAndPublish := by
  refine ⟨fun id c r s run ready asked inFlight fresh single settled idle own undecoded => ⟨fun done =>
        exec_foldStart_nothing run ready asked fresh single settled idle inFlight own undecoded done, fun work f isFresh => ?_⟩,
    fun id s run quiet => exec_foldStart_quiet run quiet,
    fun id c f s run ready held running unit room => ?_,
    fun id c f r s run ready held running passed committed asked own undecoded => ?_⟩
  · obtain rfl : f = freshFold s c r := isFresh
    exact ⟨fun plain => exec_foldStart_degreeZero run ready asked fresh single settled idle inFlight work plain, fun graph =>
      ⟨fun e fits => exec_foldStart_fits run ready asked fresh single settled idle inFlight work graph fits,
        fun full => exec_foldStart_noRoom run ready asked fresh single settled idle inFlight own undecoded work graph full⟩⟩
  · have found := collReady_found ready
    refine ⟨_, _, _, exec_foldUnitCommit run ready held running unit room, rfl, rfl, rfl, rfl, rfl,
      findColl_setColl found rfl, ?_, ?_, ?_, rfl, rfl⟩
    all_goals rw [foldNext_frame]
  · have published := exec_foldPublish run ready held running passed committed
    refine ⟨fun searching => published.trans (congrArg _ (if_pos searching)), fun quiet => ?_⟩
    obtain ⟨gone, switches, completes⟩ := publishFold_switches run (collReady_found ready) asked own undecoded
    exact ⟨_, _, published.trans (congrArg _ (if_neg (by simp [quiet]))), gone, switches, rfl, rfl, rfl, rfl, rfl, rfl, rfl, completes⟩

/-! ### VERSION_RETIRE (R306 step 2, R407, R408) -/

@[simp] theorem writeSlot_srch (c : Coll) (n : Nat) (st : SlotState) (s : State) : (writeSlot c n st s).srch = s.srch := by
  rw [writeSlot_frame]

@[simp] theorem writeSlot_stk (c : Coll) (n : Nat) (st : SlotState) (s : State) : (writeSlot c n st s).stk = s.stk := by
  rw [writeSlot_frame]

/-- A slot that is freed leaves the collections. -/
@[simp] theorem releaseSlot_srch (c : Coll) (t : Ticket) (n : Nat) (s : State) : (releaseSlot c t n s).srch = s.srch :=
  writeSlot_srch c n (freedSlot (slotNow s c n)) s

/-- A slot that is freed takes its passage record with it. -/
theorem releaseSlot_records (c : Coll) (t : Ticket) (n : Nat) (s : State) :
    (releaseSlot c t n s).stk.records = s.stk.records.filter fun r => !(r.coll == c.id && r.slot == n) :=
  (congrArg (fun k : Stk => k.records.filter fun r => !(r.coll == c.id && r.slot == n))
    (writeSlot_stk c n (freedSlot (slotNow s c n)) s) :)

/-- The slots of a deleted set are freed one after another. -/
def releaseSlots (c : Coll) (t : Ticket) (ns : List Nat) (s : State) : State := ns.foldl (fun s n => releaseSlot c t n s) s

theorem releaseSlots_srch (c : Coll) (t : Ticket) (ns : List Nat) (s : State) : (releaseSlots c t ns s).srch = s.srch :=
  foldl_leaves (·.srch) (fun s n => releaseSlot_srch c t n s) ns s

theorem mem_releaseSlots_records {c : Coll} {t : Ticket} {ns : List Nat} {s : State} {r : PassRec} :
    r ∈ (releaseSlots c t ns s).stk.records ↔ r ∈ s.stk.records ∧ (r.coll = c.id → r.slot ∉ ns) := by
  induction ns generalizing s with
  | nil => simp [releaseSlots]
  | cons n ns ih =>
    rw [releaseSlots, List.foldl_cons, ← releaseSlots, ih, releaseSlot_records]
    simp only [List.mem_filter, Bool.not_eq_true', ← Bool.not_eq_true, Bool.and_eq_true, beq_iff_eq, not_and, List.mem_cons, not_or,
      imp_and, and_assoc]

/-- The collection once its old version is retired: what still waits for a freed slot is gone, and compaction begins. -/
def Coll.retired (c : Coll) (o : OldVersion) : Coll :=
  { c with pending := c.pending.filter fun p => !o.deleted.contains p.slot, old := some { o with deleted := [] }, compacting := true }

/-! ### COMPACTION_DONE (R306 step 3, R409, R411) -/

/-- The overlay's records are written into the base array. -/
def writeNodes (c : Coll) (s : State) : State := c.overlay.foldl (fun s r => writeNode c r.1 r.2 s) s

theorem writeNodes_frame (c : Coll) (s : State) : writeNodes c s = { s with mem.cells := (writeNodes c s).mem.cells } :=
  foldl_cells _ (fun s _ => objPut_frame _ _ _ s) c.overlay s

/-- The collection after compaction: the base array holds its one version. -/
def Coll.compacted (c : Coll) : Coll := { c with overlay := [], compacting := false, old := none }

/-- The checkpoint that begins at a ticket. -/
def freshCheckpoint (c : Coll) (t : Ticket) : Checkpoint :=
  ⟨c.id, t, c.version, false, [], c.screeBase, c.screeTail, c.entry, c.recorded⟩

/-- The journal entry that ends the old version's fold. -/
def doneEntry (c : Coll) (o : OldVersion) (s : State) : FoldEnt :=
  ⟨c.id, 4, 0, o.fold, 0, [], 0, 0, c.version,
    (s.stk.logs.filter fun e => e.coll == c.id && e.kind == 2 && ticketLt o.fold e.stamped).length, 0⟩

@[simp] theorem writeNodes_wb (c : Coll) (s : State) : (writeNodes c s).wb = s.wb := by rw [writeNodes_frame]
@[simp] theorem writeNodes_srch (c : Coll) (s : State) : (writeNodes c s).srch = s.srch := by rw [writeNodes_frame]
@[simp] theorem writeNodes_stk (c : Coll) (s : State) : (writeNodes c s).stk = s.stk := by rw [writeNodes_frame]

/-- The collection is compacted, and its fold is done. -/
def closeFold (c : Coll) (o : OldVersion) (s : State) : State := foldJournal c (doneEntry c o s) (setColl c.compacted s)

/-- A checkpoint begins in place of one that was not committed. -/
def beginCheckpoint (c : Coll) (s : State) (t : Ticket) : State :=
  { s with stk.checkpoints := (s.stk.checkpoints.filter fun k => k.coll != c.id || k.committed) ++ [freshCheckpoint c t] }

theorem compact_eq (c : Coll) (o : OldVersion) (s : State) :
    compact c o s = stamped (closeFold c o (writeNodes c s)) (beginCheckpoint c) := rfl

section
variable {s : State} {id : Nat} {c : Coll} {o : OldVersion} (run : Runs s)
include run

theorem retireVersion_ticked :
    retireVersion c o s = setColl (c.retired o) (releaseSlots c (ticketNext s) o.deleted (ticked s)) := stamped_ticked run.2 _

/-- Retirement frees the slots of the deleted set: their records go, and every other record stays. -/
theorem retireVersion_frees (found : findColl s id = some c) :
    findColl (retireVersion c o s) id = some (c.retired o) ∧
      ∀ r, r ∈ (retireVersion c o s).stk.records ↔ r ∈ s.stk.records ∧ (r.coll = c.id → r.slot ∉ o.deleted) := by
  have released : findColl (releaseSlots c (ticketNext s) o.deleted (ticked s)) id = some c := by
    rw [findColl, releaseSlots_srch]
    exact found
  rw [retireVersion_ticked run]
  exact ⟨findColl_setColl released rfl, fun r => mem_releaseSlots_records⟩

theorem compact_ticked :
    compact c o s = beginCheckpoint c (ticked (closeFold c o (writeNodes c s))) (ticketNext s) := by
  have wb : (closeFold c o (writeNodes c s)).wb = s.wb := writeNodes_wb c s
  have below : (closeFold c o (writeNodes c s)).wb.seq.toNat < 0xFFF000000000 := wb ▸ run.2
  have ticket : ticketNext (closeFold c o (writeNodes c s)) = ticketNext s := by rw [ticketNext, wb]; rfl
  rw [compact_eq, stamped_ticked below, ticket]

/-- Compaction leaves one version, the end of its fold in the journal, and a checkpoint that is not committed. -/
theorem compact_leaves (found : findColl s id = some c) :
    findColl (compact c o s) id = some c.compacted ∧
      (compact c o s).stk.foldJournal = s.stk.foldJournal ++ [doneEntry c o (writeNodes c s)] ∧
      freshCheckpoint c (ticketNext s) ∈ (compact c o s).stk.checkpoints := by
  have written : findColl (writeNodes c s) id = some c := by
    rw [findColl, writeNodes_srch]
    exact found
  rw [compact_ticked run]
  exact ⟨findColl_setColl written rfl, congrArg (fun k : Stk => k.foldJournal ++ [_]) (writeNodes_stk c s),
    List.mem_append_right _ (List.mem_singleton_self _)⟩

variable (ready : collReady s id = some c) (retires : c.old = some o)
include ready retires

theorem exec_versionRetire :
    exec (.versionRetire id) s = .next (if c.compacting || versionHeld s id o.version then s else retireVersion c o s) := by
  refine congrArg _ ((whenServing_pos run.1 _).trans ?_)
  simp only [ready, retires]

theorem exec_compactionDone (compacting : c.compacting = true) : exec (.compactionDone id) s = .next (compact c o s) := by
  refine congrArg _ ((whenServing_pos run.1 _).trans ?_)
  simp only [ready, retires, compacting, if_true]

end

/-! ### CHECKPOINT_COMMIT (R404, R409) -/

section
variable {s : State} {id : Nat} {c : Coll} {k : Checkpoint} (run : Runs s) (ready : collReady s id = some c)
  (begun : s.stk.checkpoints.find? (fun k => k.coll == id && !k.committed) = some k)
include run ready begun

theorem exec_checkpointCommit (free : anyFreeBlock s = true) (room : bufferRoom s (sysCtrl s) 64 = true) :
    exec (.checkpointCommit id) s = .next (commitCheckpoint c k s) := by
  refine congrArg _ ((whenServing_pos run.1 _).trans ?_)
  simp only [ready, begun, free, room, if_true]

theorem exec_checkpointCommit_noBlock (full : anyFreeBlock s = false) :
    exec (.checkpointCommit id) s = .next (event (ticketNext s) 0x33 devLoc id 1 0 0 []
      { ticked s with stk.checkpoints := s.stk.checkpoints.filter fun x => x.coll != id || x.committed }) := by
  refine congrArg _ ((whenServing_pos run.1 _).trans ?_)
  simp only [ready, begun, full, Bool.false_eq_true, if_false]
  refine stamped_ticked ?_ _
  exact run.2

end

/-- The checkpoint with the copies that its commitment makes. -/
def committedCheckpoint (c : Coll) (k : Checkpoint) (s : State) : Checkpoint :=
  { k with committed := true, objects := (checkpointObjects c).map fun id => (id, objCells s id) }

/-- The committed checkpoint is the collection's only one. -/
theorem commitCheckpoint_only {c : Coll} {k : Checkpoint} (named : k.coll = c.id) (s : State) :
    ((commitCheckpoint c k s).stk.checkpoints.filter fun x => x.coll = c.id) = [committedCheckpoint c k s] := by
  have kept : (commitCheckpoint c k s).stk.checkpoints =
      (s.stk.checkpoints.filter fun x => x.coll != c.id) ++ [committedCheckpoint c k s] := rfl
  have mine : (committedCheckpoint c k s).coll = c.id := named
  simp [kept, List.filter_append, List.filter_filter, mine]

/-- No log entry of the collection is left from before the checkpoint's start. -/
theorem commitCheckpoint_logs {c : Coll} {k : Checkpoint} {s : State} {e : CollLog} (left : e ∈ (commitCheckpoint c k s).stk.logs)
    (mine : e.coll = c.id) : ticketLt e.stamped k.start = false := by
  have kept : (commitCheckpoint c k s).stk.logs = s.stk.logs.filter fun e => e.coll != c.id || !ticketLt e.stamped k.start := rfl
  rw [kept, List.mem_filter] at left
  simpa [mine] using left.2

/-! ### COLLECTION_RESTORE (R410) -/

theorem loadObjects_frame (k : Checkpoint) (s : State) : loadObjects k s = { s with mem.cells := (loadObjects k s).mem.cells } := by
  refine foldl_cells _ (fun s x => ?_) k.objects s
  split
  · exact objPut_frame _ _ _ _
  · rfl

/-- What belongs to other collections is nothing of this one's. -/
theorem filter_others {α : Type} {key : α → Nat} {id : Nat} {xs : List α} (others : ∀ x ∈ xs, key x ≠ id) (p : α → Bool) :
    (xs.filter fun x => key x == id && p x) = [] := by
  simpa using fun x hx mine => absurd mine (others x hx)

/-- The collection as its last committed checkpoint has it. -/
def Coll.fromCheckpoint (c : Coll) (k : Checkpoint) : Coll :=
  { c with version := k.version, entry := k.entry, screeBase := k.screeBase, screeTail := k.screeTail, recorded := k.recorded,
           old := none, overlay := [], compacting := false, fold := none, pending := [], restoring := false }

/-- The collection before anything was inserted. -/
def Coll.emptied (c : Coll) : Coll :=
  { c with version := 0, entry := none, screeBase := 0, screeTail := 0, recorded := [], old := none, overlay := [],
           compacting := false, fold := none, pending := [], restoring := false }

section
variable {s : State} {c : Coll} (noLog : ∀ e ∈ s.stk.logs, e.coll ≠ c.id) (noFold : ∀ e ∈ s.stk.foldJournal, e.coll ≠ c.id)
include noLog noFold

/-- With nothing to replay, the checkpoint is the collection. -/
theorem restoreColl_checkpoint {k : Checkpoint}
    (last : (s.stk.checkpoints.filter fun x => x.coll == c.id && x.committed).getLast? = some k) :
    restoreColl c s = setColl (c.fromCheckpoint k) (loadObjects k s) := by
  have stk : (loadObjects k s).stk = s.stk := by rw [loadObjects_frame]
  simp only [restoreColl, last, stk, filter_others (key := CollLog.coll) noLog, filter_others (key := FoldEnt.coll) noFold,
    List.foldl_nil]
  rfl

/-- With nothing to replay and no checkpoint, the collection is empty. -/
theorem restoreColl_none (bare : (s.stk.checkpoints.filter fun x => x.coll == c.id && x.committed) = []) :
    restoreColl c s = setColl c.emptied s := by
  simp only [restoreColl, bare, List.getLast?_nil, filter_others (key := CollLog.coll) noLog,
    filter_others (key := FoldEnt.coll) noFold, List.foldl_nil]
  rfl

end

section
variable {s : State} {id : Nat} {c : Coll} (run : Runs s) (found : findColl s id = some c) (waits : c.restoring = true)
  (mounted : s.stk.ready = true)
include run found waits mounted

/-- Collections are restored in ascending order. -/
theorem exec_collectionRestore :
    exec (.collectionRestore id) s =
      .next (if s.srch.colls.any (fun d => d.restoring && decide (d.id < id)) then s else restoreColl c s) := by
  refine congrArg _ ((whenServing_pos run.1 _).trans ?_)
  simp only [found, waits, mounted, Bool.true_and, Bool.not_eq_true', ← Bool.not_eq_true, ite_not]

end

/-- Settles O43: an old version that nobody holds gives its slots up and is compacted (R306), a checkpoint is committed where a block is
left (R404, R409), and a collection is restored from its last one (R410). -/
theorem versionsRetireAndAreRestored : Obligations.VersionsRetireAndAreRestored := by
  refine ⟨fun id c o s run ready retires => ⟨fun settled => ?_, fun compacting => ?_⟩,
    fun id c k s run ready begun => ⟨fun free room => ?_, fun full => exec_checkpointCommit_noBlock run ready begun full⟩,
    fun id c s run found waits mounted => ⟨fun ⟨d, mem, waiting, below⟩ => ?_, fun lowest noLog noFold => ?_⟩⟩
  · have retire := exec_versionRetire run ready retires
    refine ⟨fun used => retire.trans (congrArg _ (if_pos (by simp [used]))), fun unused => ?_⟩
    obtain ⟨retired, records⟩ := retireVersion_frees (o := o) run (collReady_found ready)
    exact ⟨_, retire.trans (congrArg _ (if_neg (by simp [settled, unused]))), retired, fun r left => ((records r).1 left).2,
      fun r held others => (records r).2 ⟨held, fun mine => others.resolve_left (· mine)⟩⟩
  · obtain ⟨compacted, journal, begun⟩ := compact_leaves (o := o) run (collReady_found ready)
    exact ⟨(exec_versionRetire run ready retires).trans (congrArg _ (if_pos (by simp [compacting]))), _, _, _,
      exec_compactionDone run ready retires compacting, compacted, journal, rfl, rfl, rfl, begun, rfl, rfl, rfl, rfl, rfl, rfl, rfl, rfl⟩
  · obtain rfl : c.id = id := findColl_id (collReady_found ready)
    obtain ⟨named, -⟩ : k.coll = c.id ∧ k.committed = false := by simpa using List.find?_some begun
    exact ⟨_, committedCheckpoint c k s, exec_checkpointCommit run ready begun free room, commitCheckpoint_only named s, rfl, rfl, rfl,
      rfl, rfl, rfl, rfl, fun e left mine => commitCheckpoint_logs left mine, rfl⟩
  · refine (exec_collectionRestore run found waits mounted).trans (congrArg _ (if_pos ?_))
    exact List.any_eq_true.2 ⟨d, mem, by simp [waiting, below]⟩
  · obtain rfl : c.id = id := findColl_id found
    have first : ¬ s.srch.colls.any (fun d => d.restoring && decide (d.id < c.id)) = true := by
      simpa using lowest
    have restores := (exec_collectionRestore run found waits mounted).trans (congrArg _ (if_neg first))
    refine ⟨fun k last => ⟨_, restores, ?_⟩, fun bare => ⟨_, restores, ?_⟩⟩
    · have found : findColl (loadObjects k s) c.id = some c := by
        rw [loadObjects_frame]
        exact found
      rw [restoreColl_checkpoint noLog noFold last]
      exact findColl_setColl found rfl
    · rw [restoreColl_none noLog noFold (by simpa using bare)]
      exact ⟨rfl, findColl_setColl found rfl⟩

end Sys2Proof.Machine

/-! SUPPORT. The invariant of the memories and the queue: every command keeps it, and it holds at reset (15 R375, 19 R502). -/

namespace Sys2Proof.Machine

/-- Settles O4: each arm of `exec` keeps the queue and the canonical form of the memories (R375, R502). -/
theorem execKeepsQueueAndMemory : Obligations.ExecKeepsQueueAndMemory :=
  fun i s t canonical next => exec_keeps (q := s.pending) ⟨rfl, canonical⟩ i t next

/-- Settles O6: at reset the queue is empty, and no memory lists a cell (R375, R544). -/
theorem resetSound : Obligations.ResetSound := ⟨nofun, rfl, rfl, rfl, rfl⟩

end Sys2Proof.Machine

/-! SUPPORT. The W40 code is linear: the syndrome and the parity of a word with bits inverted are those of the word exclusive-ORed with
those of the inverted bits. So a read depends on the pattern of errors alone (15 R373 to R375). -/

namespace Sys2Proof.Machine

/-! ### Lists of bits -/

theorem xorAll_cons (b : Bool) (bs : List Bool) : xorAll (b :: bs) = (b ^^ xorAll bs) := by
  have start (c : Bool) : bs.foldl xor c = (c ^^ bs.foldl xor false) := by
    induction bs generalizing c with
    | nil => simp
    | cons d ds ih => rw [List.foldl_cons, ih, List.foldl_cons, ih (false ^^ d)]; simp
  simpa [xorAll] using start b

theorem xorAll_singleton (b : Bool) : xorAll [b] = b := Bool.false_xor b

theorem xorAll_append (as bs : List Bool) : xorAll (as ++ bs) = (xorAll as ^^ xorAll bs) := by
  induction as with
  | nil => simp [xorAll]
  | cons a as ih => simp [xorAll_cons, ih]

theorem xorAll_map_xor {α : Type} (f g : α → Bool) (l : List α) :
    xorAll (l.map fun x => f x ^^ g x) = (xorAll (l.map f) ^^ xorAll (l.map g)) := by
  induction l with
  | nil => rfl
  | cons x l ih =>
    simp only [List.map_cons, xorAll_cons, ih, Bool.xor_assoc, Bool.xor_left_comm]

/-- Bit `i` of the number that bits spell is the bit at place `i`. -/
theorem testBit_bitsNat (bs : List Bool) (i : Nat) : (bitsNat bs).testBit i = bs.getD i false := by
  induction bs generalizing i with
  | nil => simp [bitsNat]
  | cons b bs ih =>
    cases i with
    | zero =>
      rw [bitsNat, Nat.testBit_zero, Nat.add_mul_mod_self_left]
      cases b <;> rfl
    | succ i =>
      have half : bitsNat (b :: bs) / 2 = bitsNat bs := by rw [bitsNat]; split <;> omega
      rw [Nat.testBit_succ, half, ih, List.getD_cons_succ]

theorem bitsNat_map_xor {α : Type} (f g : α → Bool) (l : List α) :
    bitsNat (l.map fun x => f x ^^ g x) = bitsNat (l.map f) ^^^ bitsNat (l.map g) := by
  refine Nat.eq_of_testBit_eq fun i => ?_
  simp only [Nat.testBit_xor, testBit_bitsNat, List.getD_eq_getElem?_getD, List.getElem?_map]
  cases l[i]? <;> rfl

/-! ### Syndrome and parity -/

/-- The syndrome of R375: c0 to c5 recomputed, exclusive-ORed with those stored. -/
def syndrome (w : W40) : Nat := bitsNat (eccLow (W40.data w) (W40.poison w)) ^^^ (w.extractLsb' 32 6).toNat

/-- The parity of R375. -/
def parity (w : W40) : Bool := xorAll ((List.range 40).map w.getLsbD)

/-- A protected bit, as R374 numbers them. -/
def protectedBit (d : W32) (p : Bool) (j : Nat) : Bool := if j = 32 then p else d.getLsbD j

theorem eccProtected_eq (d : W32) (p : Bool) : eccProtected d p = (List.range 33).map (protectedBit d p) := rfl

theorem eccLow_eq (d : W32) (p : Bool) :
    eccLow d p = (List.range 6).map fun i =>
      xorAll (((List.range 33).zip eccCodes).map fun x => protectedBit d p x.1 && x.2.testBit i) := by
  simp only [eccLow, eccProtected_eq, List.zip_map_left, List.map_map]
  rfl

theorem bitsNat_eccLow_xor (d e : W32) (p q : Bool) :
    bitsNat (eccLow (d ^^^ e) (p ^^ q)) = bitsNat (eccLow d p) ^^^ bitsNat (eccLow e q) := by
  have bit (j : Nat) : protectedBit (d ^^^ e) (p ^^ q) j = (protectedBit d p j ^^ protectedBit e q j) := by
    unfold protectedBit; split <;> simp
  simp only [eccLow_eq, bit, Bool.and_xor_distrib_right, xorAll_map_xor, bitsNat_map_xor]

theorem data_xor (v w : W40) : W40.data (v ^^^ w) = W40.data v ^^^ W40.data w := BitVec.extractLsb'_xor

theorem poison_xor (v w : W40) : W40.poison (v ^^^ w) = (W40.poison v ^^ W40.poison w) := BitVec.getLsbD_xor

theorem syndrome_xor (v w : W40) : syndrome (v ^^^ w) = syndrome v ^^^ syndrome w := by
  have swap (a b c d : Nat) : a ^^^ b ^^^ (c ^^^ d) = a ^^^ c ^^^ (b ^^^ d) := by
    rw [Nat.xor_assoc, ← Nat.xor_assoc b, Nat.xor_comm b, Nat.xor_assoc, ← Nat.xor_assoc]
  rw [syndrome, data_xor, poison_xor, bitsNat_eccLow_xor, BitVec.extractLsb'_xor, BitVec.toNat_xor, swap]
  rfl

theorem parity_xor (v w : W40) : parity (v ^^^ w) = (parity v ^^ parity w) := by
  have bits : (v ^^^ w).getLsbD = fun i => v.getLsbD i ^^ w.getLsbD i := funext fun _ => BitVec.getLsbD_xor
  rw [parity, bits, xorAll_map_xor]
  rfl

/-! ### The stored word -/

/-- The fields of a stored word: data, check bits, poison (R373). -/
theorem getLsbD_w40 (d : W32) (p : Bool) (i : Nat) : (w40 d p).getLsbD i =
    if i < 32 then d.getLsbD i else if i < 39 then (eccCheck d p).getLsbD (i - 32) else decide (i = 39) && p := by
  refine (BitVec.getLsbD_append (x := BitVec.ofBool p ++ eccCheck d p) (y := d)).trans ?_
  rw [BitVec.getLsbD_append, BitVec.getLsbD_ofBool]
  have last (check : ¬ i < 39) : (i - 32 - 7 = 0) ↔ i = 39 := by omega
  have check : i - 32 < 7 ↔ i < 39 := by omega
  split
  · rfl
  · simp only [check]
    split
    · rfl
    · rw [decide_eq_decide.2 (last ‹_›)]

@[simp] theorem data_w40 (d : W32) (p : Bool) : W40.data (w40 d p) = d := by
  refine BitVec.eq_of_getLsbD_eq fun i hi => ?_
  rw [W40.data, BitVec.getLsbD_extractLsb', Nat.zero_add, getLsbD_w40, if_pos hi]
  simp [hi]

@[simp] theorem poison_w40 (d : W32) (p : Bool) : W40.poison (w40 d p) = p := by
  rw [W40.poison, getLsbD_w40]; rfl

theorem eccLow_length (d : W32) (p : Bool) : (eccLow d p).length = 6 := by simp [eccLow]

/-- The check bits c0 to c6, in order. -/
theorem getLsbD_eccCheck (d : W32) (p : Bool) {i : Nat} (hi : i < 7) :
    (eccCheck d p).getLsbD i = (eccLow d p ++ [xorAll (eccProtected d p ++ eccLow d p)]).getD i false := by
  simp only [eccCheck, BitVec.getLsbD_ofNat, testBit_bitsNat, hi, decide_true, Bool.true_and]

/-- The stored check bits are those recomputed: a stored word has no syndrome. -/
theorem syndrome_w40 (d : W32) (p : Bool) : syndrome (w40 d p) = 0 := by
  have stored : ((w40 d p).extractLsb' 32 6).toNat = bitsNat (eccLow d p) := by
    refine Nat.eq_of_testBit_eq fun i => ?_
    rw [BitVec.testBit_toNat, BitVec.getLsbD_extractLsb', testBit_bitsNat]
    rw [List.getD_eq_getElem?_getD]
    by_cases hi : i < 6
    · rw [getLsbD_w40, if_neg (by omega), if_pos (by omega), Nat.add_sub_cancel_left, getLsbD_eccCheck d p (by omega),
        List.getD_eq_getElem?_getD, List.getElem?_append_left (by rwa [eccLow_length]), decide_eq_true hi, Bool.true_and]
    · rw [List.getElem?_eq_none (by rw [eccLow_length]; omega), decide_eq_false hi]; rfl
  rw [syndrome, data_w40, poison_w40, stored, Nat.xor_self]

/-- The check bits in order. -/
theorem bits_eccCheck (d : W32) (p : Bool) :
    (List.range 7).map (eccCheck d p).getLsbD = eccLow d p ++ [xorAll (eccProtected d p ++ eccLow d p)] := by
  refine List.ext_getElem (by simp [eccLow_length]) fun i hi _ => ?_
  rw [List.length_map, List.length_range] at hi
  rw [List.getElem_map, List.getElem_range, getLsbD_eccCheck d p hi, List.getD_eq_getElem?_getD,
    List.getElem?_eq_getElem, Option.getD_some]

/-- The bits of a stored word in order. -/
theorem bits_w40 (d : W32) (p : Bool) :
    (List.range 40).map (w40 d p).getLsbD = (List.range 32).map d.getLsbD ++ (List.range 7).map (eccCheck d p).getLsbD ++ [p] := by
  have split : List.range 40 = List.range 32 ++ (List.range 7).map (32 + ·) ++ [39] := rfl
  have data : (List.range 32).map (w40 d p).getLsbD = (List.range 32).map d.getLsbD :=
    List.map_congr_left fun i hi => by rw [getLsbD_w40, if_pos (List.mem_range.1 hi)]
  have check : (List.range 7).map ((w40 d p).getLsbD ∘ (32 + ·)) = (List.range 7).map (eccCheck d p).getLsbD :=
    List.map_congr_left fun i hi => by
      have := List.mem_range.1 hi
      rw [Function.comp_apply, getLsbD_w40, if_neg (by omega), if_pos (by omega), Nat.add_sub_cancel_left]
  rw [split, List.map_append, List.map_append, List.map_map, data, check, List.map_singleton, getLsbD_w40]
  simp

/-- c6 makes the parity of a stored word even. -/
theorem parity_w40 (d : W32) (p : Bool) : parity (w40 d p) = false := by
  rw [parity, bits_w40, bits_eccCheck]
  have even (x y : Bool) : (x ^^ (y ^^ ((x ^^ p) ^^ y)) ^^ p) = false := by
    cases x <;> cases y <;> cases p <;> rfl
  simp only [xorAll_append, xorAll_singleton, eccProtected]
  exact even (xorAll ((List.range 32).map d.getLsbD)) (xorAll (eccLow d p))

/-! ### Reads of words with bits inverted -/

/-- One bit inverted. -/
def oneBit (i : Nat) : W40 := 1#40 <<< i

/-- What a read at odd parity exclusive-ORs into data and poison, by the syndrome; none where it corrects nothing. -/
def correction (s : Nat) : Option (W32 × Bool) :=
  if s = 0 then some (0, false)
  else ((eccCodes.findIdx? (· == s)).map fun j => if j = 32 then ((0 : W32), true) else (1#32 <<< j, false)).or
    (if popCount6 s = 1 then some (0, false) else none)

/-- The table of R375: even parity reads clean or uncorrectable, odd parity is corrected as the syndrome says. -/
theorem eccRead_eq (w : W40) : eccRead w =
    if parity w then (correction (syndrome w)).elim .uncorrectable fun x => .corrected (W40.data w ^^^ x.1) (W40.poison w ^^ x.2)
    else if syndrome w = 0 then .clean (W40.data w) (W40.poison w) else .uncorrectable := by
  simp only [eccRead, ← syndrome.eq_1, ← parity.eq_1]
  cases parity w with
  | false => simp
  | true =>
    simp only [correction, if_true, Bool.not_true, Bool.false_eq_true, if_false]
    split
    · simp
    · split
      next found => simp [found]
      next j other found => simp [found, show ¬ j = 32 from other]
      next found => simp only [found, Option.map_none, Option.none_or]; split <;> simp

/-- Each of the 40 bits, inverted alone, is of odd parity, and its syndrome tells the data and poison to invert. -/
theorem correction_oneBit : ∀ i < 40, parity (oneBit i) = true ∧
    correction (syndrome (oneBit i)) = some (W40.data (oneBit i), W40.poison (oneBit i)) := by decide +kernel

/-- Two different bits have different syndromes. -/
theorem syndrome_oneBit_injective : ∀ i < 40, ∀ j < i, syndrome (oneBit i) ≠ syndrome (oneBit j) := by decide +kernel

/-- A stored word reads clean (R375). -/
theorem eccRead_w40 (d : W32) (p : Bool) : eccRead (w40 d p) = .clean d p := by
  rw [eccRead_eq, parity_w40, syndrome_w40, data_w40, poison_w40]
  rfl

theorem eccRead_w40_oneBit (d : W32) (p : Bool) {i : Nat} (hi : i < 40) : eccRead (w40 d p ^^^ oneBit i) = .corrected d p := by
  obtain ⟨odd, corrects⟩ := correction_oneBit i hi
  rw [eccRead_eq, parity_xor, parity_w40, odd, syndrome_xor, syndrome_w40, Nat.zero_xor, corrects, data_xor, poison_xor, data_w40, poison_w40]
  simp [BitVec.xor_assoc]

theorem eccRead_w40_twoBits (d : W32) (p : Bool) {i j : Nat} (hi : i < 40) (hj : j < i) :
    eccRead (w40 d p ^^^ oneBit i ^^^ oneBit j) = .uncorrectable := by
  obtain ⟨oddI, -⟩ := correction_oneBit i hi
  obtain ⟨oddJ, -⟩ := correction_oneBit j (Nat.lt_trans hj hi)
  have seen : syndrome (oneBit i) ^^^ syndrome (oneBit j) ≠ 0 := fun none => syndrome_oneBit_injective i hi j hj (by
    rw [← Nat.xor_zero (syndrome (oneBit i)), ← Nat.xor_self (syndrome (oneBit j)), ← Nat.xor_assoc, none, Nat.zero_xor])
  rw [eccRead_eq, parity_xor, parity_xor, parity_w40, oddI, oddJ, syndrome_xor, syndrome_xor, syndrome_w40, Nat.zero_xor, if_neg seen]
  rfl

/-- Settles O46: the code is linear, so a read sees the pattern of inverted bits alone: one bit's syndrome names it, and two bits have
even parity and a syndrome that is not 0 (R374, R375). -/
theorem singleErrorsAreCorrected : Obligations.SingleErrorsAreCorrected := fun d p =>
  ⟨eccRead_w40 d p, fun _ hi => eccRead_w40_oneBit d p hi, fun _ hi _ hj => eccRead_w40_twoBits d p hi hj⟩

end Sys2Proof.Machine

/-! SUPPORT. The Haul engines: what starts, switches and abandons the move of a page (15 R378 to R380). -/

namespace Sys2Proof.Machine

/-! ### Parts that a record leaves -/

@[simp] theorem event_haul (t : Ticket) (type : Nat) (l : Loc) (code attempts action : Nat) (aux : W64) (extra : List Byte) (s : State) :
    (event t type l code attempts action aux extra s).haul = s.haul := by rw [event_frame]

/-! ### Moves -/

/-- Stamping changes no memory, so a page copied after it is the page copied before it. -/
theorem copyFrame_ticked (p : Page) (m : Move) (n : Nat) (s : State) : copyFrame p m n (ticked s) = ticked (copyFrame p m n s) :=
  List.foldl_hom ticked fun _ _ => rfl

theorem copyFrame_frame (p : Page) (m : Move) (n : Nat) (s : State) :
    copyFrame p m n s = { s with mem.cells := (copyFrame p m n s).mem.cells } :=
  foldl_cells _ (fun _ _ => rfl) _ s

/-- Where nothing waits for a page, nothing is served. -/
theorem serveWaiting_none {m : Move} (none : m.waiting = []) (s : State) : serveWaiting m s = s := by
  rw [serveWaiting, none]; rfl

/-- A point with pages still to move goes on. -/
theorem pointNext_more {s : State} (more : s.haul.todo ≠ []) : pointNext s = s := by
  simp [pointNext, more]

section
variable {s : State} (run : Runs s)
include run

/-- A page that finds a frame at its destination starts its move there, at its motion-start ticket. -/
theorem exec_pageMoveStart_starts {engine : Nat} {x : Nat × Nat × Nat} {f : Nat} (point : s.haul.running ≠ none)
    (room : (s.haul.moves.filter (·.engine == engine)).length < 8) (next : nextMove s engine = some x)
    (free : lowestFrame s x.2.1 x.2.2 = some f) :
    exec (.pageMoveStart engine) s = .next { ticked s with
      haul.todo := s.haul.todo.filter (·.1 != x.1)
      haul.moves := s.haul.moves ++ [⟨engine, x.1, x.2.1, x.2.2, f, s.now, []⟩]
      mem.pages := s.mem.pages.map fun p => if p.page = x.1 then { p with motion := true } else p } := by
  have frame : lowestFrame { ticked s with haul.todo := s.haul.todo.filter (·.1 != x.1) } x.2.1 x.2.2 = some f := free
  refine congrArg _ ((whenServing_pos run.1 _).trans ?_)
  rw [if_neg (by simp [point, room]), next]
  refine (stamped_ticked run.2 _).trans ?_
  dsimp only [ticked] at frame ⊢
  simp only [frame]

theorem exec_pageMoveStart_idle {engine : Nat}
    (idle : s.haul.running = none ∨ 8 ≤ (s.haul.moves.filter (·.engine == engine)).length ∨ nextMove s engine = none) :
    exec (.pageMoveStart engine) s = .next s := by
  refine congrArg _ ((whenServing_pos run.1 _).trans ?_)
  rcases idle with none | full | nothing
  · rw [if_pos (by simp [none])]
  · rw [if_pos (by simp [full])]
  · rw [nothing]; exact ite_self s

variable {page : Nat} {m : Move}

theorem exec_pageSwitch (moves : s.haul.moves.find? (·.page == page) = some m) :
    exec (.pageSwitch page) s = .next (if past s m.since 50000 then s else switchPage m s) := by
  refine congrArg _ ((whenServing_pos run.1 _).trans ?_)
  rw [moves]

theorem exec_haulAbort (moves : s.haul.moves.find? (·.page == page) = some m) :
    exec (.haulAbort page) s = .next (if past s m.since 50000 then abandonMove m s else s) := by
  refine congrArg _ ((whenServing_pos run.1 _).trans ?_)
  rw [moves]

/-- Steps 3 and 4 of R379: the page's words stand at its destination, which is its home. -/
theorem switchPage_lands {p : Page} (inMotion : s.mem.pages.find? (fun p => p.page == m.page && p.motion) = some p)
    (nobody : m.waiting = []) (more : s.haul.todo ≠ []) :
    switchPage m s = { ticked s with
      haul.moves := s.haul.moves.filter (·.page != m.page)
      mem.cells := (copyFrame p m (pageBytes / 4) s).mem.cells
      mem.pages := s.mem.pages.map fun q =>
        if q.page = m.page then { q with tier := m.tier, unit := m.unit, frame := m.frame, motion := false } else q } := by
  have land : landed m (ticked s) = landPage p m (ticked s) := by
    unfold landed
    dsimp only [ticked]
    simp only [inMotion]
  refine (stamped_ticked run.2 _).trans ?_
  dsimp only
  obtain ⟨cells, copied⟩ : ∃ cells, copyFrame p m (pageBytes / 4) s = { s with mem.cells := cells } := ⟨_, copyFrame_frame _ _ _ s⟩
  rw [land, serveWaiting_none nobody, landPage, copyFrame_ticked, copied]
  exact pointNext_more more

/-- A move given up: the page keeps its home, and a record names it (R380). -/
theorem abandonMove_drops (nobody : m.waiting = []) (more : s.haul.todo ≠ []) :
    abandonMove m s = event (ticketNext s) 0x15 devLoc s.haul.pointId.toNat 1 0 (BitVec.ofNat 64 m.page) [] { ticked s with
      haul.moves := s.haul.moves.filter (·.page != m.page)
      mem.haulAbort := satInc s.mem.haulAbort
      mem.pages := s.mem.pages.map fun p => if p.page = m.page then { p with motion := false } else p } := by
  have drop := stamped_ticked (s := { s with
    haul.moves := s.haul.moves.filter (·.page != m.page)
    mem.pages := s.mem.pages.map fun (p : Page) => if p.page = m.page then { p with motion := false } else p
    mem.haulAbort := satInc s.mem.haulAbort }) run.2
    fun s t => event t 0x15 devLoc s.haul.pointId.toNat 1 0 (BitVec.ofNat 64 m.page) [] s
  rw [abandonMove, serveWaiting_none nobody, dropMove, drop]
  exact pointNext_more (by simpa [ticked] using more)

end

/-- Settles O44: a move starts in the lowest free frame (R378, R379), lands within its bound (R379), and past it is abandoned (R380). -/
theorem pagesMove : Obligations.PagesMove := by
  refine ⟨fun engine s run => ⟨fun x f point room next free => exec_pageMoveStart_starts run point room next free,
    fun idle => exec_pageMoveStart_idle run idle⟩, fun page m p s run moves => ?_, fun page s run still => ?_⟩
  · obtain rfl : m.page = page := by simpa using List.find?_some moves
    refine ⟨fun early => ⟨?_, fun inMotion nobody more => ?_⟩, fun late => ⟨?_, fun nobody more => ?_⟩⟩
    · rw [exec_haulAbort run moves, early]; rfl
    · rw [exec_pageSwitch run moves, early, ← switchPage_lands run inMotion nobody more]; rfl
    · rw [exec_pageSwitch run moves, late]; rfl
    · rw [exec_haulAbort run moves, late, ← abandonMove_drops run nobody more]; rfl
  · have notMoving : s.haul.moves.find? (·.page == page) = none := List.find?_eq_none.2 fun m hm => by simpa using still m hm
    constructor <;>
    · refine congrArg _ ((whenServing_pos run.1 _).trans ?_)
      rw [notMoving]

end Sys2Proof.Machine

/-! SUPPORT. Words and bytes of memory: what is read back after a write, and what a write leaves (15 R365, R373, R376). -/

namespace Sys2Proof.Machine

/-! ### Bytes of numbers -/

theorem toLe_eq_map (n v : Nat) : toLe n v = (List.range n).map fun i => BitVec.ofNat 8 (v / 256 ^ i) := by
  induction n generalizing v with
  | zero => rfl
  | succ n ih =>
    rw [toLe, ih, List.range_succ_eq_map, List.map_cons, List.map_map, Nat.pow_zero, Nat.div_one]
    simp only [Function.comp_def, Nat.pow_succ', Nat.div_div_eq_div_mul]

/-- A number spelled by bytes has these bytes. -/
theorem toLe_leNat (bs : List Byte) : toLe bs.length (leNat bs) = bs := by
  induction bs with
  | nil => rfl
  | cons b bs ih =>
    have low : BitVec.ofNat 8 (b.toNat + 256 * leNat bs) = b := BitVec.eq_of_toNat_eq (by simp [Nat.mod_eq_of_lt b.isLt])
    have high : (b.toNat + 256 * leNat bs) / 256 = leNat bs := by have := b.isLt; omega
    rw [List.length_cons, leNat, toLe, low, high, ih]

theorem leNat_lt (bs : List Byte) : leNat bs < 256 ^ bs.length := by
  rw [← toLe_leNat bs, leNat_toLe, toLe_length]
  exact Nat.mod_lt _ (Nat.pow_pos (by decide))

/-! ### Cells -/

/-- A run of bytes leaves every cell outside it. -/
theorem cellGet_puts_outside {d : Byte} {a b : Nat} {bs : List Byte} {cs : List Host.Cell} (wf : cellsWf d cs = true)
    (outside : b < a ∨ a + bs.length ≤ b) : cellGet d (cellsPut d a bs cs) b = cellGet d cs b := by
  induction bs generalizing a cs with
  | nil => rfl
  | cons v bs ih =>
    rw [List.length_cons] at outside
    rw [cellsPut, ih (cellPut_wf a v wf) (by omega), cellGet_put a b v wf, if_neg (by omega)]

/-- A run of bytes is read back as it was written. -/
theorem cellsGet_puts {d : Byte} (a : Nat) (bs : List Byte) {cs : List Host.Cell} (wf : cellsWf d cs = true) :
    cellsGet d (cellsPut d a bs cs) a bs.length = bs := by
  induction bs generalizing a cs with
  | nil => rfl
  | cons v bs ih =>
    have rest := ih (a + 1) (cellPut_wf a v wf)
    have first : cellGet d (cellsPut d (a + 1) bs (cellPut d a v cs)) a = v := by
      rw [cellGet_puts_outside (cellPut_wf a v wf) (by omega), cellGet_put a a v wf, if_pos rfl]
    rw [cellsGet] at rest ⊢
    rw [List.length_cons, List.range_succ_eq_map, List.map_cons, List.map_map, cellsPut]
    refine congr (congrArg List.cons first) (Eq.trans ?_ rest)
    simp only [Function.comp_def, Nat.add_succ, Nat.succ_add, Nat.add_zero]

/-! ### Words -/

/-- The cells of a word: four of data, and one of check bits (R369, R370). -/
def inWord (s : State) (p : Nat × Nat × Nat) (a : Nat) : Prop :=
  let c := wordCells s p.1 p.2.1 p.2.2
  (c.1 ≤ a ∧ a < c.1 + 4) ∨ a = c.2

/-- Below the check bytes of its unit, a word's check byte lies past its data. -/
theorem wordCells_apart (s : State) (tier unit : Nat) {off : Nat} (inData : off < 0xC00000000) :
    (wordCells s tier unit off).1 + 4 ≤ (wordCells s tier unit off).2 := by
  unfold wordCells
  split
  · split <;> (dsimp only; omega)
  · dsimp only; omega

theorem cellGet_putWord_outside {s : State} {p : Nat × Nat × Nat} {a : Nat} (w : W40) (wf : Memory.wf s) (outside : ¬ inWord s p a) :
    cellGet unwritten (putWord p.1 p.2.1 p.2.2 w s).mem.cells a = cellGet unwritten s.mem.cells a := by
  obtain ⟨data, check⟩ := not_or.1 outside
  have puts := cellGet_puts_outside (b := a) (bs := toLe 4 (W40.data w).toNat) wf.1
    (a := (wordCells s p.1 p.2.1 p.2.2).1) (by rw [toLe_length]; omega)
  exact (cellGet_put _ _ _ (cellsPut_wf _ _ wf.1)).trans ((if_neg (Ne.symm check)).trans puts)

theorem check_append_data (w : W40) : (w.extractLsb' 32 8 ++ W40.data w : W40) = w := by
  refine BitVec.eq_of_getLsbD_eq fun i hi => ?_
  rw [W40.data, BitVec.getLsbD_append]
  split
  · simp [*]
  · rw [BitVec.getLsbD_extractLsb']
    simp only [Nat.add_sub_cancel' (Nat.le_of_not_lt ‹_›), show i - 32 < 8 by omega, decide_true, Bool.true_and]

/-- A stored word is the word that is read (R373). -/
theorem rawWord_putWord {s : State} {tier unit off : Nat} (w : W40) (wf : Memory.wf s) (inData : off < 0xC00000000) :
    rawWord (putWord tier unit off w s) tier unit off = w := by
  have apart := wordCells_apart s tier unit inData
  have cells : cellsWf unwritten (cellsPut unwritten (wordCells s tier unit off).1 (toLe 4 (W40.data w).toNat) s.mem.cells) = true :=
    cellsPut_wf _ _ wf.1
  have data : cellsGet unwritten (putWord tier unit off w s).mem.cells (wordCells s tier unit off).1 4 = toLe 4 (W40.data w).toNat := by
    have whole := cellsGet_puts (wordCells s tier unit off).1 (toLe 4 (W40.data w).toNat) wf.1
    rw [toLe_length] at whole
    refine Eq.trans (List.map_congr_left fun i hi => ?_) whole
    have := List.mem_range.1 hi
    exact (cellGet_put _ _ _ cells).trans (if_neg (by omega))
  have check : cellGet unwritten (putWord tier unit off w s).mem.cells (wordCells s tier unit off).2 = w.extractLsb' 32 8 :=
    (cellGet_put _ _ _ cells).trans (if_pos rfl)
  have number : BitVec.ofNat 32 (leNat (toLe 4 (W40.data w).toNat)) = W40.data w := by
    rw [leNat_toLe]
    exact BitVec.eq_of_toNat_eq (by simp [Nat.mod_eq_of_lt (W40.data w).isLt])
  change cellGet unwritten (putWord tier unit off w s).mem.cells (wordCells s tier unit off).2 ++
    BitVec.ofNat 32 (leNat (cellsGet unwritten (putWord tier unit off w s).mem.cells (wordCells s tier unit off).1 4)) = w
  rw [data, check, number]
  exact check_append_data w

/-- A word stored with valid check bits delivers its data and poison. -/
theorem peekWord_putWord {s : State} {tier unit off : Nat} (d : W32) (q : Bool) (wf : Memory.wf s) (up : unitUp s tier unit = true)
    (inData : off < 0xC00000000) : peekWord (putWord tier unit off (w40 d q) s) tier unit off = (d, q) := by
  have up' : unitUp (putWord tier unit off (w40 d q) s) tier unit = true := up
  rw [peekWord, if_pos up', rawWord_putWord _ wf inData, eccRead_w40]

/-! ### Bytes at device addresses -/

theorem locate_pokeByte (addr : Nat) (v : Byte) (s : State) : locate (pokeByte addr v s) = locate s := by rw [pokeByte_frame]; rfl

theorem unitUp_pokeByte (addr : Nat) (v : Byte) (s : State) : unitUp (pokeByte addr v s) = unitUp s := by rw [pokeByte_frame]; rfl

theorem inWord_pokeByte (addr : Nat) (v : Byte) (s : State) : inWord (pokeByte addr v s) = inWord s := by rw [pokeByte_frame]; rfl

theorem pokeByte_wf {s : State} (addr : Nat) (v : Byte) (wf : Memory.wf s) : Memory.wf (pokeByte addr v s) :=
  (pokeByte_keeps (q := s.pending) addr v ⟨rfl, wf⟩).2

theorem pokeByte_located {s : State} {addr : Nat} {p : Nat × Nat × Nat} (located : locate s (addr / 4 * 4) = some p) (v : Byte) :
    pokeByte addr v s = putWord p.1 p.2.1 p.2.2
      (w40 (BitVec.ofNat 32 (leNat ((toLe 4 (peekWord s p.1 p.2.1 p.2.2).1.toNat).set (addr % 4) v))) false) s := by
  simp only [pokeByte, located]

theorem cellGet_pokeByte {s : State} {addr a : Nat} (v : Byte) (wf : Memory.wf s)
    (outside : ∀ p, locate s (addr / 4 * 4) = some p → ¬ inWord s p a) :
    cellGet unwritten (pokeByte addr v s).mem.cells a = cellGet unwritten s.mem.cells a := by
  cases h : locate s (addr / 4 * 4) with
  | none => simp only [pokeByte, h]
  | some p => rw [pokeByte_located h, cellGet_putWord_outside _ wf (outside p h)]

/-- A write changes no cell outside the words of its range. -/
theorem cellGet_pokeBytes {s : State} {addr a : Nat} {bs : List Byte} (wf : Memory.wf s)
    (outside : ∀ b < bs.length, ∀ p, locate s ((addr + b) / 4 * 4) = some p → ¬ inWord s p a) :
    cellGet unwritten (pokeBytes addr bs s).mem.cells a = cellGet unwritten s.mem.cells a := by
  induction bs generalizing addr s with
  | nil => rfl
  | cons v bs ih =>
    rw [pokeBytes, ih (pokeByte_wf addr v wf), cellGet_pokeByte v wf]
    · exact outside 0 (by simp)
    · intro b hb p hp
      rw [locate_pokeByte, Nat.add_right_comm, Nat.add_assoc] at hp
      rw [inWord_pokeByte]
      exact outside (b + 1) (by simpa using hb) p hp

/-- A byte written into a word whose unit is up is set among its bytes, and clears its poison (R376). -/
theorem peekWord_pokeByte {s : State} {addr : Nat} {p : Nat × Nat × Nat} (v : Byte) (wf : Memory.wf s)
    (located : locate s (addr / 4 * 4) = some p) (up : unitUp s p.1 p.2.1 = true) (inData : p.2.2 < 0xC00000000) :
    toLe 4 (peekWord (pokeByte addr v s) p.1 p.2.1 p.2.2).1.toNat = (toLe 4 (peekWord s p.1 p.2.1 p.2.2).1.toNat).set (addr % 4) v ∧
      (peekWord (pokeByte addr v s) p.1 p.2.1 p.2.2).2 = false := by
  rw [pokeByte_located located, peekWord_putWord _ _ wf up inData]
  refine ⟨?_, rfl⟩
  generalize hb : (toLe 4 (peekWord s p.1 p.2.1 p.2.2).1.toNat).set (addr % 4) v = b
  have four : b.length = 4 := by rw [← hb, List.length_set, toLe_length]
  have fits : leNat b < 2 ^ 32 := by simpa [four] using leNat_lt b
  rw [BitVec.toNat_ofNat, Nat.mod_eq_of_lt fits, ← four, toLe_leNat]

/-- Four bytes at a word's address are the bytes of the word. -/
theorem peekBytes_word {s : State} {addr : Nat} {p : Nat × Nat × Nat} (aligned : addr % 4 = 0) (located : locate s addr = some p) :
    peekBytes s addr 4 = (toLe 4 (peekWord s p.1 p.2.1 p.2.2).1.toNat, (peekWord s p.1 p.2.1 p.2.2).2) := by
  have byte (i : Nat) (hi : i < 4) : peekByte s (addr + i) =
      (BitVec.ofNat 8 ((peekWord s p.1 p.2.1 p.2.2).1.toNat / 256 ^ i), (peekWord s p.1 p.2.1 p.2.2).2) := by
    have word : (addr + i) / 4 * 4 = addr := by omega
    have place : (addr + i) % 4 = i := by omega
    simp only [peekByte, word, place, located]
  have bytes : ((List.range 4).map fun i => peekByte s (addr + i)) = (List.range 4).map fun i =>
      (BitVec.ofNat 8 ((peekWord s p.1 p.2.1 p.2.2).1.toNat / 256 ^ i), (peekWord s p.1 p.2.1 p.2.2).2) :=
    List.map_congr_left fun i hi => byte i (List.mem_range.1 hi)
  rw [peekBytes, bytes, toLe_eq_map]
  simp [List.range_succ]

/-- The last bytes of a word, written one after the other, stand behind those before them, and the word's poison is cleared. -/
theorem peekWord_pokeBytes {s : State} {addr k : Nat} {p : Nat × Nat × Nat} {bs : List Byte} (last : k + bs.length = 4)
    (clears : bs ≠ [] ∨ (peekWord s p.1 p.2.1 p.2.2).2 = false) (wf : Memory.wf s) (aligned : addr % 4 = 0)
    (located : locate s addr = some p) (up : unitUp s p.1 p.2.1 = true) (inData : p.2.2 < 0xC00000000) :
    toLe 4 (peekWord (pokeBytes (addr + k) bs s) p.1 p.2.1 p.2.2).1.toNat = (toLe 4 (peekWord s p.1 p.2.1 p.2.2).1.toNat).take k ++ bs ∧
      (peekWord (pokeBytes (addr + k) bs s) p.1 p.2.1 p.2.2).2 = false := by
  induction bs generalizing k s with
  | nil =>
    obtain rfl : k = 4 := last
    rw [List.append_nil, List.take_of_length_le (by simp)]
    exact ⟨rfl, clears.resolve_left (· rfl)⟩
  | cons v bs ih =>
    rw [List.length_cons] at last
    have word : (addr + k) / 4 * 4 = addr := by omega
    have place : (addr + k) % 4 = k := by omega
    obtain ⟨set, clear⟩ := peekWord_pokeByte v wf (word.symm ▸ located) up inData
    obtain ⟨bytes, clean⟩ := ih (s := pokeByte (addr + k) v s) (k := k + 1) (by omega) (.inr clear) (pokeByte_wf _ v wf)
      (by rwa [locate_pokeByte]) (by rwa [unitUp_pokeByte])
    have front (l : List Byte) (long : k < l.length) : (l.set k v).take (k + 1) = l.take k ++ [v] := by
      rw [List.take_add_one, List.take_set_of_le (Nat.le_refl k), List.getElem?_set_self long]; rfl
    rw [set, place, front _ (by rw [toLe_length]; omega), List.append_assoc] at bytes
    exact ⟨bytes, clean⟩

/-- A word written whole is read back as written, without poison (R376). -/
theorem peekBytes_pokeBytes_word {s : State} {addr : Nat} {p : Nat × Nat × Nat} {bs : List Byte} (four : bs.length = 4) (wf : Memory.wf s)
    (aligned : addr % 4 = 0) (located : locate s addr = some p) (up : unitUp s p.1 p.2.1 = true) (inData : p.2.2 < 0xC00000000) :
    peekBytes (pokeBytes addr bs s) addr 4 = (bs, false) := by
  have nonempty : bs ≠ [] := by rintro rfl; cases four
  obtain ⟨bytes, clean⟩ := peekWord_pokeBytes (k := 0) (by omega) (.inl nonempty) wf aligned located up inData
  have located' : locate (pokeBytes addr bs s) addr = some p := by rw [pokeBytes_frame]; exact located
  rw [peekBytes_word aligned located']
  exact Prod.ext bytes clean

end Sys2Proof.Machine

/-! SUPPORT. Host memory transactions and scrubbing: what MEM_RD and MEM_WR are answered and what they write, weight objects included, and
what SCRUB writes back (03 R61, 07 R176, 15 R365, R376, R377, R380, 17 R452). -/

namespace Sys2Proof.Machine

/-! ### Weight objects after a write (R61, R176) -/

/-- What a write of `n` bytes at `a` leaves of one object. -/
def ObjWritten (s : State) (a n : Nat) (o o' : Obj) : Prop :=
  meetsWeights a n o = none ∧ o' = o ∨ ∃ x, meetsWeights a n o = some x ∧ writtenObj s x o = some o'

/-- The objects that a write leaves, one by one. -/
theorem writtenObjs_cons {s : State} {a n : Nat} {o : Obj} {os os' : List Obj} (wrote : writtenObjs s a n (o :: os) = some os') :
    ∃ o' rest, os' = o' :: rest ∧ ObjWritten s a n o o' ∧ writtenObjs s a n os = some rest := by
  rw [writtenObjs] at wrote
  cases left : writtenObjs s a n os with
  | none => simp [left] at wrote
  | some rest =>
    cases met : meetsWeights a n o with
    | none =>
      simp only [left, met, Option.some.injEq] at wrote
      exact ⟨o, rest, wrote.symm, .inl ⟨met, rfl⟩, rfl⟩
    | some x =>
      simp only [left, met, Option.map_eq_some_iff] at wrote
      obtain ⟨o', written, cons⟩ := wrote
      exact ⟨o', rest, cons.symm, .inr ⟨x, met, written⟩, rfl⟩

/-- A written weight object keeps its place; one that is whole passes the scale check and carries the digest of its
contents, which every plan that names it gives. -/
theorem writtenObj_some {s : State} {x : Nat × Nat} {o o' : Obj} (wrote : writtenObj s x o = some o') :
    o'.place = o.place ∧ (o'.whole = true →
      scaleTableOk s o' = true ∧ o'.digest = some (contentDigest s o') ∧ ∀ d ∈ namedDigests s o', some d = o'.digest) := by
  unfold writtenObj at wrote
  dsimp only at wrote
  split at wrote
  next partly =>
    obtain rfl := Option.some.inj wrote
    exact ⟨rfl, fun whole => absurd whole (by simpa using partly)⟩
  next =>
    split at wrote
    next passes =>
      obtain rfl := Option.some.inj wrote
      obtain ⟨scales, named⟩ := Bool.and_eq_true_iff.1 passes
      exact ⟨rfl, fun _ => ⟨scales, rfl, fun d hd => congrArg some (beq_iff_eq.1 (List.all_eq_true.1 named d hd))⟩⟩
    next => cases wrote

theorem ObjWritten.place {s : State} {a n : Nat} {o o' : Obj} (h : ObjWritten s a n o o') : o'.place = o.place := by
  obtain ⟨-, rfl⟩ | ⟨x, -, wrote⟩ := h
  · rfl
  · exact (writtenObj_some wrote).1

theorem ObjWritten.whole {s : State} {a n : Nat} {o o' : Obj} (h : ObjWritten s a n o o') (met : (meetsWeights a n o').isSome = true)
    (whole : o'.whole = true) :
    scaleTableOk s o' = true ∧ o'.digest = some (contentDigest s o') ∧ ∀ d ∈ namedDigests s o', some d = o'.digest := by
  obtain ⟨unmet, rfl⟩ | ⟨x, -, wrote⟩ := h
  · simp [unmet] at met
  · exact (writtenObj_some wrote).2 whole

/-- An object that a write does not touch is as before. -/
theorem ObjWritten.untouched {s : State} {a n : Nat} {o o' : Obj} (h : ObjWritten s a n o o') (unmet : meetsWeights a n o = none) : o' = o := by
  obtain ⟨-, same⟩ | ⟨x, met, -⟩ := h
  · exact same
  · cases unmet.symm.trans met

theorem writtenObjs_places {s : State} {a n : Nat} {os os' : List Obj} (wrote : writtenObjs s a n os = some os') :
    os'.map (·.place) = os.map (·.place) := by
  induction os generalizing os' with
  | nil => rw [← Option.some.inj wrote]
  | cons o os ih =>
    obtain ⟨o', rest, rfl, written, left⟩ := writtenObjs_cons wrote
    rw [List.map_cons, List.map_cons, ih left, written.place]

theorem writtenObjs_untouched {s : State} {a n : Nat} {os os' : List Obj} (wrote : writtenObjs s a n os = some os') {o : Obj}
    (held : o ∈ os) (unmet : meetsWeights a n o = none) : o ∈ os' := by
  induction os generalizing os' with
  | nil => cases held
  | cons p os ih =>
    obtain ⟨p', rest, rfl, written, left⟩ := writtenObjs_cons wrote
    rcases List.mem_cons.1 held with rfl | held
    · exact written.untouched unmet ▸ List.mem_cons_self
    · exact List.mem_cons_of_mem _ (ih left held)

/-- Each object that a write leaves is one that stood there, as the write leaves it. -/
theorem writtenObjs_from {s : State} {a n : Nat} {os os' : List Obj} (wrote : writtenObjs s a n os = some os') {o' : Obj} (left : o' ∈ os') :
    ∃ o, ObjWritten s a n o o' := by
  induction os generalizing os' with
  | nil =>
    rw [← Option.some.inj wrote] at left
    cases left
  | cons o os ih =>
    obtain ⟨p', rest, rfl, written, others⟩ := writtenObjs_cons wrote
    rcases List.mem_cons.1 left with rfl | left
    · exact ⟨o, written⟩
    · exact ih others left

/-- A write that does not fail changes the cells and the weight objects alone. -/
theorem noteWrite_some {s t : State} {a n : Nat} (noted : noteWrite a n s = some t) :
    ∃ os, t = { s with mem.objs := os } ∧ writtenObjs s a n s.mem.objs = some os := by
  obtain ⟨os, wrote, rfl⟩ := Option.map_eq_some_iff.1 noted
  exact ⟨os, rfl, wrote⟩

/-! ### What an access is answered -/

section
variable {s : State} (run : Runs s)
include run

theorem memServing_runs : memServing s = true := by
  have running := run.1
  simp only [serving, Bool.and_eq_true] at running
  simp [memServing, running]

/-- A read that makes no error last is answered as it is served, at its ticket. -/
theorem exec_memRd {t : State} {src : Node} {txn : W16} {addr : W64} {len : W32} {us : List Upset}
    (served : readAccess src txn addr len us (ticked s) = (t, [])) : exec (.memRd src txn addr len us) s = .next t := by
  refine congrArg _ ((if_pos (memServing_runs run)).trans ((stampedIf_below run.1 run.2 _).trans ?_))
  exact congrArg (fun r => r.2.foldl (fun s m => abandonMove m s) r.1) served

theorem exec_memWr {t : State} {src : Node} {txn : W16} {addr : W64} {len : W32} {data : List Byte}
    (served : writeAccess src txn addr len data (ticked s) = t) : exec (.memWr src txn addr len data) s = .next t :=
  congrArg _ ((if_pos (memServing_runs run)).trans ((stampedIf_below run.1 run.2 _).trans served))

end

section
variable {s : State} {addr : W64} {len : W32} {data : List Byte} (src : Node) (txn : W16)

theorem readAccess_misaligned (us : List Upset) (misaligned : accessAligned addr len = false) :
    readAccess src txn addr len us s = (send src txn 0 (.rdData 4 []) s, []) := by
  rw [readAccess, misaligned]; rfl

theorem writeAccess_misaligned (misaligned : accessAligned addr len = false) :
    writeAccess src txn addr len data s = send src txn 0 (.wrAck 4) s := by
  rw [writeAccess, misaligned]; rfl

variable (aligned : accessAligned addr len = true) (powered : s.pwr.state < 3)
include aligned powered

theorem readAccess_unmapped (us : List Upset) (unmapped : rangeMapped s addr.toNat len.toNat = false) :
    readAccess src txn addr len us s = (send src txn 0 (.rdData 1 []) s, []) := by
  simp only [readAccess, aligned, unmapped, Nat.not_le.2 powered, Bool.not_true, Bool.not_false, Bool.false_eq_true, if_false, if_true]

/-- With no bit in error, a read of a range at rest answers its bytes, or that one is poisoned. -/
theorem readAccess_reads (mapped : rangeMapped s addr.toNat len.toNat = true) (rest : rangeMove s addr.toNat len.toNat = none) :
    readAccess src txn addr len [] s = (send src txn 0 (if (peekBytes s addr.toNat len.toNat).2 then .rdData 3 []
      else .rdData 0 (peekBytes s addr.toNat len.toNat).1) s, []) := by
  simp only [readAccess, aligned, mapped, rest, Nat.not_le.2 powered, Bool.not_true, Bool.false_eq_true, if_false]
  rfl

theorem readAccess_waits {m : Move} (us : List Upset) (mapped : rangeMapped s addr.toNat len.toNat = true)
    (moves : rangeMove s addr.toNat len.toNat = some m) :
    readAccess src txn addr len us s = (waitMove m (.memRd src txn addr len us) s, []) := by
  simp only [readAccess, aligned, mapped, moves, Nat.not_le.2 powered, Bool.not_true, Bool.false_eq_true, if_false]

variable (whole : data.length = len.toNat)
include whole

theorem writeAccess_unmapped (unmapped : rangeMapped s addr.toNat len.toNat = false) :
    writeAccess src txn addr len data s = send src txn 0 (.wrAck 1) s := by
  simp only [writeAccess, aligned, whole, unmapped, Nat.not_le.2 powered, Bool.not_true, Bool.not_false, bne_self_eq_false,
    Bool.or_self, Bool.false_eq_true, if_false, if_true]

variable (mapped : rangeMapped s addr.toNat len.toNat = true)
include mapped

theorem writeAccess_closed (closed : writeClosed s addr.toNat len.toNat = true) :
    writeAccess src txn addr len data s = send src txn 0 (.wrAck 2) s := by
  simp only [writeAccess, aligned, whole, mapped, closed, Nat.not_le.2 powered, Bool.not_true, bne_self_eq_false,
    Bool.or_self, Bool.false_eq_true, if_false, if_true]

variable (opened : writeClosed s addr.toNat len.toNat = false)
include opened

theorem writeAccess_waits {m : Move} (moves : rangeMove s addr.toNat len.toNat = some m) :
    writeAccess src txn addr len data s = waitMove m (.memWr src txn addr len data) s := by
  simp only [writeAccess, aligned, whole, mapped, opened, moves, Nat.not_le.2 powered, Bool.not_true, bne_self_eq_false,
    Bool.or_self, Bool.false_eq_true, if_false]

theorem writeAccess_writes (rest : rangeMove s addr.toNat len.toNat = none) :
    writeAccess src txn addr len data s = (noteWrite addr.toNat len.toNat (pokeBytes addr.toNat data s)).elim
      (send src txn 0 (.wrAck 2) s) (send src txn 0 (.wrAck 0)) := by
  simp only [writeAccess, aligned, whole, mapped, opened, rest, Nat.not_le.2 powered, Bool.not_true, bne_self_eq_false, Bool.or_self,
    Bool.false_eq_true, if_false]
  cases noteWrite addr.toNat len.toNat (pokeBytes addr.toNat data s) <;> rfl

end

/-! ### Writes -/

theorem accessAligned_word {addr : W64} {len : W32} (aligned : accessAligned addr len = true) : addr.toNat % 4 = 0 := by
  simp only [accessAligned, Bool.and_eq_true, beq_iff_eq] at aligned
  obtain ⟨⟨⟨⟨low, -⟩, -⟩, -⟩, -⟩ := aligned
  simpa [regBits, bitsOf] using low

theorem namedDigests_congr {s t : State} (plans : t.cfg = s.cfg) (o : Obj) : namedDigests t o = namedDigests s o := by
  simp only [namedDigests, plans]

/-! ### Scrubbing (R376, R377) -/

section
variable {tier unit off : Nat} {us : List Upset} {s : State}

theorem exec_scrub_noUpset (run : Runs s) (none : ∀ x ∈ us, x.tier = tier → x.unit = unit → x.off ≠ off) :
    exec (.scrub tier unit off us) s = .next s := by
  have absent : us.find? (fun u => u.tier == tier && u.unit == unit && u.off == off) = Option.none :=
    List.find?_eq_none.2 fun x hx here => by
      simp only [Bool.and_eq_true, beq_iff_eq] at here
      exact none x hx here.1.1 here.1.2 here.2
  refine congrArg _ ((whenServing_pos run.1 _).trans ?_)
  rw [absent]

variable {x : Upset} (run : Runs s) (found : us.find? (fun u => u.tier == tier && u.unit == unit && u.off == off) = some x)
  (up : unitUp s tier unit = true)
include run found up

/-- A scrub whose error does not last leaves the word as the read resolves it. -/
theorem exec_scrub_resolves {t : State} (resolved : resolveWord tier unit off x s = (t, false)) :
    exec (.scrub tier unit off us) s = .next t := by
  refine congrArg _ ((whenServing_pos run.1 _).trans ?_)
  simp only [found, up, resolved, if_true, Bool.false_eq_true, if_false]

omit found up in
theorem resolveWord_uncorrectable (read : eccRead (rawWord s tier unit off ^^^ x.mask) = .uncorrectable) :
    resolveWord tier unit off x s = (event (ticketNext s) 0x11 (wordLoc s tier unit off) 0 1 8 (BitVec.ofNat 64 off) []
      (ticked { s with mem.cells := (putWord tier unit off (w40 (W40.data (rawWord s tier unit off ^^^ x.mask)) true) s).mem.cells
                       mem.eccUncorrected := satInc s.mem.eccUncorrected }), false) := by
  simp only [resolveWord, read]
  exact congrArg (·, false) (stamped_ticked (by exact run.2) _)

end

theorem resolveWord_clean {s : State} {tier unit off : Nat} {x : Upset} {d : W32} {q : Bool}
    (read : eccRead (rawWord s tier unit off ^^^ x.mask) = .clean d q) : resolveWord tier unit off x s = (s, false) := by
  simp only [resolveWord, read]

theorem resolveWord_transient {s : State} {tier unit off : Nat} {x : Upset} {d : W32} {q : Bool}
    (read : eccRead (rawWord s tier unit off ^^^ x.mask) = .corrected d q) (passing : x.lasting = false) :
    resolveWord tier unit off x s =
      ({ putWord tier unit off (w40 d q) s with mem.eccCorrected := satInc s.mem.eccCorrected }, false) := by
  simp only [resolveWord, read, passing, Bool.false_eq_true, if_false, eccRead_w40]
  rfl

/-- Settles O45: by the cases of R365, R376, R380 and R452 for the accesses, and by the read's outcome for a scrub (R377). -/
theorem memoryIsReadAndWritten : Obligations.MemoryIsReadAndWritten := by
  refine ⟨fun src txn addr len data s run => ⟨fun misaligned => ⟨?_, ?_⟩, fun aligned powered => ⟨fun unmapped => ⟨?_, fun whole => ?_⟩,
    fun mapped => ⟨fun rest => ?_, fun whole closed => ?_, fun whole opened rest => ?_, fun m moves => ⟨?_, fun whole opened => ?_⟩⟩⟩⟩,
    fun tier unit off us s run => ⟨exec_scrub_noUpset run, fun x found up => ⟨fun d q read => ?_, fun d q read passing _ => ?_, fun read => ?_⟩⟩⟩
  · exact exec_memRd run (readAccess_misaligned src txn _ misaligned)
  · exact exec_memWr run (writeAccess_misaligned src txn misaligned)
  · exact exec_memRd run (readAccess_unmapped (s := ticked s) src txn aligned powered _ unmapped)
  · exact exec_memWr run (writeAccess_unmapped (s := ticked s) src txn aligned powered whole unmapped)
  · exact exec_memRd run (readAccess_reads (s := ticked s) src txn aligned powered mapped rest)
  · exact exec_memWr run (writeAccess_closed (s := ticked s) src txn aligned powered whole mapped closed)
  · have answers := exec_memWr run (writeAccess_writes (s := ticked s) src txn aligned powered whole mapped opened rest)
    refine ⟨fun fails => by rw [answers, fails]; rfl, fun t noted => ?_⟩
    rw [answers, noted]
    obtain ⟨os, rfl, each⟩ := noteWrite_some noted
    have wrote := pokeBytes_frame addr.toNat data (ticked s)
    refine ⟨_, rfl, ?_, fun a wf outside => ?_, fun p wf one located up inData => ?_, ?_, fun o held unmet => ?_, fun o held met full => ?_⟩
    · rw [wrote]; rfl
    · refine cellGet_pokeBytes (s := ticked s) wf fun b hb p hp within => ?_
      obtain ⟨data, check⟩ := outside b (whole ▸ hb) p hp
      rcases within with ⟨low, high⟩ | same
      · exact data.elim (Nat.not_lt.2 low) (Nat.not_le.2 high)
      · exact check same
    · exact peekBytes_pokeBytes_word (s := ticked s) (whole.trans (by rw [one]; rfl)) wf (accessAligned_word aligned) located up inData
    · exact (writtenObjs_places each).trans (by rw [wrote]; rfl)
    · exact writtenObjs_untouched each (by rw [wrote]; exact held) unmet
    · obtain ⟨_, written⟩ := writtenObjs_from each held
      obtain ⟨scales, digest, named⟩ := written.whole met full
      exact ⟨scales, digest, fun d hd => named d (by rwa [namedDigests_congr (congrArg State.cfg wrote)])⟩
  · exact exec_memRd run (readAccess_waits (s := ticked s) src txn aligned powered _ mapped moves)
  · exact exec_memWr run (writeAccess_waits (s := ticked s) src txn aligned powered whole mapped opened moves)
  · exact exec_scrub_resolves run found up (resolveWord_clean read)
  · exact exec_scrub_resolves run found up (resolveWord_transient read passing)
  · exact exec_scrub_resolves run found up (resolveWord_uncorrectable run read)

end Sys2Proof.Machine

/-! SUPPORT. Power states, the cap, metering and the power-fail flush: what PWR_CMD starts and what one hop of a move leaves, the range
that the cap loop keeps, and how the device flushes and halts (16 R414, 20 R532 to R537, R556). -/

namespace Sys2Proof.Machine

/-! ### PWR_CMD (R533, R535, R556) -/

theorem powerData_fields : ∀ p : BitVec 3, regBits (powerData p) 0 3 = p.toNat ∧ regBit (powerData p) 3 = true := by decide

theorem powerBusy_of_work {s : State}
    (work : s.job.phase ≠ 0 ∨ s.cfg.load ≠ none ∨ s.cfg.swap ≠ none ∨ s.haul.running ≠ none) : powerBusy s = true := by
  simp only [powerBusy, Bool.or_eq_true, bne_iff_ne, Option.isSome_iff_ne_none]
  rcases work with opened | loading | swapping | moving
  · exact .inl (.inl (.inl (.inl opened)))
  · exact .inl (.inl (.inl (.inr loading)))
  · exact .inl (.inl (.inr swapping))
  · exact .inr moving

section
variable {p : BitVec 3} {s : State}

theorem powerCommand_high (high : 4 < p.toNat) : powerCommand (powerData p) s = { s with pwr.code := 2 } := by
  obtain ⟨state, go⟩ := powerData_fields p
  simp [powerCommand, state, go, high]

variable (low : p.toNat ≤ 4)
include low

theorem powerCommand_moving (moving : s.pwr.move ≠ none) : powerCommand (powerData p) s = { s with pwr.code := 1 } := by
  obtain ⟨state, go⟩ := powerData_fields p
  simp [powerCommand, state, go, Nat.not_lt.2 low, Option.isSome_iff_ne_none.2 moving]

variable (still : s.pwr.move = none)
include still

theorem powerCommand_present (present : p.toNat = s.pwr.state) : powerCommand (powerData p) s = { s with pwr.code := 0 } := by
  obtain ⟨state, go⟩ := powerData_fields p
  simp [powerCommand, state, go, still, ← present, low]

variable (other : p.toNat ≠ s.pwr.state)
include other

theorem powerCommand_busy (awake : s.pwr.state ≠ 4) (deep : 2 ≤ p.toNat) (busy : powerBusy s = true) :
    powerCommand (powerData p) s = { s with pwr.code := 1 } := by
  obtain ⟨state, go⟩ := powerData_fields p
  simp [powerCommand, state, go, Nat.not_lt.2 low, still, other, awake, deep, busy]

theorem powerCommand_starts (may : p.toNat < 2 ∨ powerBusy s = false) :
    powerCommand (powerData p) s = { s with pwr.code := 0, pwr.move := some (p.toNat, s.now) } := by
  obtain ⟨state, go⟩ := powerData_fields p
  have accepted : (s.pwr.state != 4 && decide (2 ≤ p.toNat) && powerBusy s) = false := by
    rcases may with shallow | idle
    · simp [Nat.not_le.2 shallow]
    · simp [idle]
  simp [powerCommand, state, go, Nat.not_lt.2 low, still, other, accepted]

end

theorem serving_awake {s : State} (run : serving s = true) : s.life = .ready ∧ s.pwr.state ≠ 4 := by
  simp only [serving, Bool.and_eq_true, beq_iff_eq, bne_iff_ne] at run
  exact run.1

section
variable {c : Cmd} {s : State} (g : Granted c s)
include g

theorem exec_pwrCmd (p : BitVec 3) :
    exec (.pwrCmd c p) s = .next (powerCommand (powerData p) (taken c rPwrCmd (powerData p) s)) :=
  congrArg _ (mgmtWrite_granted g (by decide) (by decide) _ _)

theorem exec_pwrCapWrite (data : W64) : exec (.pwrCapWrite c data) s = .next (capWrite data (taken c rPwrCap data s)) :=
  congrArg _ (mgmtWrite_granted g (by decide) (by decide) _ _)

end

/-! ### One hop of a move (R534) -/

/-- A hop touches the Bench stores, the memory and the Stockpile alone. -/
theorem powerHop_frame (from' to' : Nat) (s : State) : powerHop from' to' s =
    { s with flt := (powerHop from' to' s).flt, mem := (powerHop from' to' s).mem, stk := (powerHop from' to' s).stk } := by
  unfold powerHop
  split <;> rfl

/-- Only the hop into PS4 changes the memory. -/
theorem powerHop_mem {to' : Nat} (from' : Nat) (s : State) (kept : to' ≠ 4) : (powerHop from' to' s).mem = s.mem := by
  unfold powerHop
  split
  · rfl
  · rfl
  · exact absurd rfl kept
  · rfl

theorem powerHop_programs (s : State) : ∀ k ∈ (powerHop 2 3 s).stk.ctrls, k.buf = [] := by
  intro k hk
  obtain ⟨c, -, rfl⟩ := List.mem_map.1 hk
  rfl

/-- Entering PS4 leaves of the cells those of DDR5. -/
theorem mem_powerHop_dormant {s : State} {x : Host.Cell} :
    x ∈ (powerHop 3 4 s).mem.cells ↔ x ∈ s.mem.cells ∧ 2 ^ 41 ≤ x.1 := by
  simp only [powerHop, List.mem_filter, decide_eq_true_eq]

/-- The state one hop nearer to the target. -/
def hopToward (target p : Nat) : Nat := if p < target then p + 1 else p - 1

theorem exec_powerTransitionDone_still {s : State} (still : s.pwr.move = none) : exec .powerTransitionDone s = .next s := by
  change execPowerTransitionDone s = _
  simp only [execPowerTransitionDone, still, ite_self]

/-- Out of PS4 and with no step running, a move hops once. -/
theorem exec_powerTransitionDone {s : State} {target t0 : Nat} (run : serving s = true) (moving : s.pwr.move = some (target, t0))
    (idle : s.job.steps = []) : exec .powerTransitionDone s = .next { powerHop s.pwr.state (hopToward target s.pwr.state) s with
      pwr := { s.pwr with state := hopToward target s.pwr.state,
                          move := if hopToward target s.pwr.state = target then none else some (target, s.now) } } := by
  obtain ⟨ready, awake⟩ := serving_awake run
  change execPowerTransitionDone s = _
  simp only [execPowerTransitionDone, ready, moving, idle, awake, bne_self_eq_false, List.isEmpty_nil, Bool.not_true, Bool.and_false,
    Bool.false_eq_true, if_false]
  rw [← hopToward, powerHop_frame]

/-! ### The cap loop (R537, R538) -/

theorem exec_capLoopStep {s : State} (run : serving s = true) : exec .capLoopStep s = .next { s with
    pwr.issueFrac := issueAfter s, pwr.capUnmet := issueAfter s == 1 && decide (10 * capInForce s < powerDw s), free := s.free + 1 } :=
  congrArg _ (whenServing_pos run _)

theorem issueAfter_throttled {s : State} (hot : s.pwr.throttle = true) : issueAfter s = max 1 (s.pwr.issueFrac - 8) := if_pos hot

/-- One step of the loop keeps the fraction in its range and moves it by at most 8. -/
theorem issueAfter_range {s : State} (low : 1 ≤ s.pwr.issueFrac) (high : s.pwr.issueFrac ≤ 64) :
    1 ≤ issueAfter s ∧ issueAfter s ≤ 64 ∧ issueAfter s ≤ s.pwr.issueFrac + 8 ∧ s.pwr.issueFrac ≤ issueAfter s + 8 := by
  have step : Config.issueStep s.free % 17 < 17 := Nat.mod_lt _ (by decide)
  unfold issueAfter
  split <;> omega

/-! ### PWR_CAP_WRITE (R537, R556) -/

theorem capWrite_takes {v : W64} (s : State) (inRange : v.toNat % 4096 = 0 ∨ 800 ≤ v.toNat % 4096 ∧ v.toNat % 4096 ≤ 2200) :
    capWrite v s = { s with pwr.cap := BitVec.ofNat 12 (v.toNat % 4096), pwr.capBad := false } := by
  simp [capWrite, regBits, bitsOf, inRange]

theorem capWrite_refuses {v : W64} (s : State) (nonzero : v.toNat % 4096 ≠ 0) (outside : v.toNat % 4096 < 800 ∨ 2200 < v.toNat % 4096) :
    capWrite v s = { s with pwr.capBad := true } := by
  have bad : ¬ (800 ≤ v.toNat % 4096 ∧ v.toNat % 4096 ≤ 2200) := by omega
  simp [capWrite, regBits, bitsOf, nonzero, bad]

/-! ### The power-fail flush (R414) -/

theorem beginFlush_runs {s : State} (run : Runs s) (type code : Nat) : beginFlush type code s =
    { event (ticketNext s) type devLoc code 1 0 0 [] (ticked s) with life := .flushing, out := [], pwr.move := none } :=
  stampedIf_below run.1 run.2 _

theorem exec_powerFail_short {held : Nat} (short : held < 2000) (s : State) : exec (.powerFail held) s = .next s :=
  congrArg _ (if_pos short)

theorem exec_powerFail_flushes {held : Nat} {s : State} (run : Runs s) (long : 2000 ≤ held) :
    exec (.powerFail held) s = .next (beginFlush 0x73 0 s) := by
  obtain ⟨ready, -⟩ := serving_awake run.1
  exact congrArg _ ((if_neg (Nat.not_lt.2 long)).trans (if_pos (by simp [ready])))

theorem exec_flushDone_idle {s : State} (done : List Bool) (idle : s.life ≠ .flushing) : exec (.flushDone done) s = .next s :=
  congrArg _ (if_neg idle)

theorem exec_flushDone_halts {s : State} (done : List Bool) (flushing : s.life = .flushing) :
    ∃ f : Flush, exec (.flushDone done) s = .next { s with life := .halted, stk.flush := if s.stk.ready then some f else none } ∧
      f.records = s.log.queue ∧ f.journal = journalTail s :=
  ⟨_, congrArg _ (if_pos flushing), rfl, rfl⟩

/-- Settles O56: a command by the cases of R533 and R535, a transition by what its hop leaves (R534), the cap loop by the range of one
step (R537), the flush by its beginning and its end (R414). -/
theorem powerFollowsItsCommands : Obligations.PowerFollowsItsCommands := by
  refine ⟨fun c p s g => ⟨fun high => ?_, fun low => ⟨fun moving => ?_, fun still => ⟨fun present => ?_, fun other => ⟨fun deep work => ?_,
    fun may => ?_⟩⟩⟩⟩, fun s run => ⟨exec_powerTransitionDone_still, ?_⟩, fun c data s g w hw => ⟨fun inRange => ?_, fun nonzero outside => ?_⟩,
    fun s run low high => ?_, fun mv ma s run => ?_, fun held s run => ⟨fun short => exec_powerFail_short short s, fun long => ?_⟩,
    fun done s => ⟨exec_flushDone_idle done, fun flushing => ?_⟩⟩
  · rw [exec_pwrCmd g, powerCommand_high high]
  · exact (exec_pwrCmd g p).trans (congrArg _ (powerCommand_moving low moving))
  · exact (exec_pwrCmd g p).trans (congrArg _ (powerCommand_present low still present))
  · exact (exec_pwrCmd g p).trans (congrArg _ (powerCommand_busy low still other (serving_awake g.1).2 deep (powerBusy_of_work work)))
  · exact (exec_pwrCmd g p).trans (congrArg _ (powerCommand_starts low still other may))
  · intro target t0 next moving away below idle toward
    obtain rfl : next = hopToward target s.pwr.state := toward
    have frame := powerHop_frame s.pwr.state (hopToward target s.pwr.state) s
    refine ⟨_, exec_powerTransitionDone run.1 moving idle, rfl, rfl, ?_, ?_, ?_, fun at2 to3 => ?_, fun at3 to2 => ?_, fun to4 => ?_,
      fun elsewhere => ?_⟩
    · rw [frame]
    · rw [frame]
    · rw [frame]
    · rw [at2] at to3 ⊢
      rw [to3]
      exact powerHop_programs s
    · rw [at3] at to2 ⊢
      rw [to2]
      exact ⟨rfl, rfl⟩
    · have at3 : s.pwr.state = 3 := by unfold hopToward at to4; split at to4 <;> omega
      rw [at3] at to4 ⊢
      rw [to4]
      exact ⟨fun x hx => (mem_powerHop_dormant.1 hx).2, fun x hx ddr5 => mem_powerHop_dormant.2 ⟨hx, ddr5⟩⟩
    · exact powerHop_mem _ s elsewhere
  · subst hw
    rw [exec_pwrCapWrite g, capWrite_takes _ inRange]
  · subst hw
    rw [exec_pwrCapWrite g, capWrite_refuses _ nonzero outside]
  · obtain ⟨least, most, up, down⟩ := issueAfter_range low high
    refine ⟨_, exec_capLoopStep run.1, least, most, up, down, issueAfter_throttled, ?_, rfl⟩
    simp only [Bool.and_eq_true, beq_iff_eq, decide_eq_true_eq]
  · obtain ⟨ready, -⟩ := serving_awake run.1
    exact congrArg _ (if_pos (by simp [ready]))
  · rw [exec_powerFail_flushes run long, beginFlush_runs run]
  · obtain ⟨f, halts, records, entries⟩ := exec_flushDone_halts done flushing
    refine ⟨_, halts, rfl, fun ready => ⟨f, if_pos ready, records, entries⟩, fun unready => ?_, rfl, rfl⟩
    simp [unready]

end Sys2Proof.Machine

/-! SUPPORT. The room of the Stockpile: SLC targets and moves, merges of log blocks, map programs, and record blocks that are cleaned (16
R398 to R400, R407). -/

namespace Sys2Proof.Machine

/-! ### A controller read back -/

theorem getCtrl_setCtrl {s : State} {i : Nat} (held : i < s.stk.ctrls.length) (c : Ctrl) : getCtrl (setCtrl i c s) i = c := by
  simp only [getCtrl, setCtrl, List.getD_eq_getElem?_getD, List.getElem?_set_self held, Option.getD_some]

/-- A controller that the device does not have is empty. -/
theorem getCtrl_absent {s : State} {i : Nat} (absent : s.stk.ctrls.length ≤ i) : getCtrl s i = {} := by
  simp only [getCtrl, List.getD_eq_getElem?_getD, List.getElem?_eq_none absent, Option.getD_none]

theorem ctrl_held_of_slcHeld {s : State} {i : Nat} (holds : (getCtrl s i).slcHeld ≠ []) : i < s.stk.ctrls.length :=
  Nat.lt_of_not_le fun absent => holds (by rw [getCtrl_absent absent])

theorem ctrl_held_of_blocks {s : State} {i : Nat} {b : StkBlock} (held : b ∈ (getCtrl s i).blocks) : i < s.stk.ctrls.length := by
  refine Nat.lt_of_not_le fun absent => ?_
  rw [getCtrl_absent absent] at held
  cases held

/-! ### The SLC buffer (R398) -/

section
variable {s : State} {ctrl : Nat} (run : serving s = true)
include run

theorem exec_slcTargetRecompute {p : NandPop} (mounted : s.stk.pop = some p) (ready : s.stk.ready = true)
    (due : past s (getCtrl s ctrl).slcAt 1000000000 = true) : exec (.slcTargetRecompute ctrl) s = .next (setCtrl ctrl { getCtrl s ctrl with
      slcTarget := if p.cell = 0 then 0 else slcTargetOf (validBytes s ctrl) (userBytes s ctrl), slcAt := s.now } s) := by
  refine congrArg _ ((whenServing_pos run _).trans ?_)
  simp only [mounted, ready, due, Bool.not_true, Bool.or_self, Bool.false_eq_true, if_false]

theorem exec_slcTargetRecompute_early (early : past s (getCtrl s ctrl).slcAt 1000000000 = false) :
    exec (.slcTargetRecompute ctrl) s = .next s := by
  refine congrArg _ ((whenServing_pos run _).trans ?_)
  cases h : s.stk.pop <;> simp [early]

theorem exec_slcIdleMove_stays (stays : slcMoves s (getCtrl s ctrl) = false) : exec (.slcIdleMove ctrl) s = .next s := by
  refine congrArg _ ((whenServing_pos run _).trans ?_)
  cases h : (getCtrl s ctrl).slcHeld <;> simp [stays]

/-- The oldest data of the SLC buffer go to the log block of their logical block. -/
theorem exec_slcIdleMove {e : BufEnt} {rest : List BufEnt} {d : StkBlock} {l : LogBlock} (held : (getCtrl s ctrl).slcHeld = e :: rest)
    (ready : s.stk.ready = true) (moves : slcMoves s (getCtrl s ctrl) = true) (block : dataBlock (getCtrl s ctrl) (bufKey e) = some d)
    (log : logFor s (getCtrl s ctrl) (bufKey e) d.lun = some l) :
    exec (.slcIdleMove ctrl) s = .next (setCtrl ctrl (slcEmptied
      { putLog { l with lblock := some (bufKey e), pages := l.pages ++ [e.page], last := s.now } (getCtrl s ctrl) with
        slcHeld := rest, deltas := (getCtrl s ctrl).deltas + 16 }) s) := by
  refine congrArg _ ((whenServing_pos run _).trans ?_)
  simp only [held, ready, moves, ensureBlock, block, log, Bool.not_true, Bool.or_self, Bool.false_eq_true, if_false, Option.isSome_some,
    if_true, Option.bind_some]

end

/-- Erasing the SLC blocks touches the blocks alone. -/
theorem slcEmptied_frame (c : Ctrl) : slcEmptied c = { c with blocks := (slcEmptied c).blocks } := by
  unfold slcEmptied
  split <;> rfl

/-- The target falls with the fill level (R398). -/
theorem slcTargetOf_table (d u : Nat) :
    (4 * d < u → slcTargetOf d u = 6 * u / 100) ∧ (u ≤ 4 * d → 2 * d < u → slcTargetOf d u = 4 * u / 100) ∧
      (u ≤ 2 * d → 4 * d < 3 * u → slcTargetOf d u = 2 * u / 100) ∧ (3 * u ≤ 4 * d → 10 * d < 9 * u → slcTargetOf d u = u / 100) ∧
      (9 * u ≤ 10 * d → slcTargetOf d u = u / 400) := by
  unfold slcTargetOf
  refine ⟨fun quarter => ?_, fun quarter half => ?_, fun half third => ?_, fun third nearly => ?_, fun nearly => ?_⟩
  · rw [if_pos quarter]
  · rw [if_neg (by omega), if_pos half]
  · rw [if_neg (by omega), if_neg (by omega), if_pos third]
  · rw [if_neg (by omega), if_neg (by omega), if_neg (by omega), if_pos nearly]
  · rw [if_neg (by omega), if_neg (by omega), if_neg (by omega), if_neg (by omega)]

/-! ### Blocks by their numbers -/

/-- The controller holds the block, and no other of its number. -/
def Sole (b : StkBlock) (c : Ctrl) : Prop := b ∈ c.blocks ∧ ∀ x ∈ c.blocks, x.no = b.no → x = b

/-- Putting a block in its place keeps every block's number. -/
theorem exists_no_setBlock {c : Ctrl} {no : Nat} (b : StkBlock) (held : ∃ x ∈ c.blocks, x.no = no) :
    ∃ x ∈ (setBlock b c).blocks, x.no = no := by
  obtain ⟨x, hx, rfl⟩ := held
  refine ⟨_, List.mem_map_of_mem hx, ?_⟩
  split
  next here => exact here.symm
  next => rfl

theorem sole_setBlock {c : Ctrl} {b : StkBlock} (held : ∃ x ∈ c.blocks, x.no = b.no) : Sole b (setBlock b c) := by
  obtain ⟨x, hx, here⟩ := held
  refine ⟨List.mem_map.2 ⟨x, hx, if_pos here⟩, fun y hy same => ?_⟩
  obtain ⟨z, -, rfl⟩ := List.mem_map.1 hy
  split at same
  next there => exact if_pos there
  next apart => exact absurd same apart

theorem Sole.setBlock_apart {c : Ctrl} {b d : StkBlock} (sole : Sole b c) (apart : d.no ≠ b.no) : Sole b (setBlock d c) := by
  obtain ⟨held, only⟩ := sole
  refine ⟨List.mem_map.2 ⟨b, held, if_neg apart.symm⟩, fun y hy same => ?_⟩
  obtain ⟨z, hz, rfl⟩ := List.mem_map.1 hy
  split at same
  next => exact absurd same apart
  next other => exact (if_neg other).trans (only z hz same)

theorem Sole.find {c : Ctrl} {b : StkBlock} (sole : Sole b c) : c.blocks.find? (·.no == b.no) = some b := by
  obtain ⟨held, only⟩ := sole
  cases found : c.blocks.find? (·.no == b.no) with
  | none => exact absurd (List.find?_eq_none.1 found b held) (by simp)
  | some x => rw [only x (List.mem_of_find?_eq_some found) (beq_iff_eq.1 (List.find?_some found :))]

theorem lunFree_some {c : Ctrl} {lun : Nat} {f : StkBlock} (free : lunFree c lun = some f) : f ∈ c.blocks ∧ f.use = .free := by
  have here := List.find?_some free
  simp only [Bool.and_eq_true, beq_iff_eq] at here
  exact ⟨List.mem_of_find?_eq_some free, here.1⟩

theorem dataBlock_some {c : Ctrl} {key : Nat} {d : StkBlock} (data : dataBlock c key = some d) : d ∈ c.blocks ∧ d.use ≠ .free := by
  have here := List.find?_some data
  refine ⟨List.mem_of_find?_eq_some data, fun free => ?_⟩
  simp [free] at here

/-- A log block's fresh block is no block in use. -/
theorem Sole.find_freshLog {c k : Ctrl} {b : StkBlock} (sole : Sole b c) (same : k.blocks = c.blocks) (used : b.use ≠ .free)
    (old lun : Nat) : (freshLog old lun k).blocks.find? (·.no == b.no) = some b := by
  have there : Sole b k := by rwa [Sole, same]
  unfold freshLog
  split
  next f free =>
    obtain ⟨held, unused⟩ := lunFree_some free
    have apart : f.no ≠ b.no := fun number => used (there.2 f held number ▸ unused)
    exact (there.setBlock_apart (d := { f with use := .log }) apart).find
  next => exact there.find

/-! ### Merges (R399) -/

theorem exec_logBlockMerge {s : State} {ctrl log : Nat} {l : LogBlock} {b d : StkBlock} (run : serving s = true)
    (logged : (getCtrl s ctrl).logs.find? (·.block == log) = some l) (block : (getCtrl s ctrl).blocks.find? (·.no == log) = some b)
    (data : l.lblock.bind (dataBlock (getCtrl s ctrl)) = some d) : exec (.logBlockMerge ctrl log) s = .next
      (if !mergeDue s (getCtrl s ctrl) l b.lun then s
       else if l.pages = List.range (blockPages s) then switchMerge ctrl b d s else fullMerge ctrl b d s) := by
  refine congrArg _ ((whenServing_pos run _).trans ?_)
  simp only [logged, block, data]

section
variable {s : State} {ctrl : Nat} {b d : StkBlock} (held : b ∈ (getCtrl s ctrl).blocks) (used : d.use ≠ .free)
include held used

/-- A switch merge makes the log block the data block. -/
theorem find_switchMerge (apart : d.no ≠ b.no) :
    (getCtrl (switchMerge ctrl b d s) ctrl).blocks.find? (·.no == b.no) = some { b with use := d.use, lblock := d.lblock } := by
  have put : Sole { b with use := d.use, lblock := d.lblock }
      (setBlock { b with use := d.use, lblock := d.lblock } (getCtrl s ctrl)) := sole_setBlock ⟨b, held, rfl⟩
  have erased := put.setBlock_apart (d := { d with use := .toErase, lblock := none }) apart
  rw [switchMerge, getCtrl_setCtrl (ctrl_held_of_blocks held)]
  exact erased.find_freshLog (by rfl) used b.no b.lun

/-- A full merge makes the free block the data block. -/
theorem find_fullMerge {f : StkBlock} (free : lunFree (getCtrl s ctrl) b.lun = some f) :
    (getCtrl (fullMerge ctrl b d s) ctrl).blocks.find? (·.no == f.no) = some { f with use := d.use, lblock := d.lblock } := by
  have place := exists_no_setBlock { d with use := .toErase, lblock := none }
    (exists_no_setBlock { b with use := .toErase, lblock := none } ⟨f, (lunFree_some free).1, rfl⟩)
  have put := sole_setBlock (b := { f with use := d.use, lblock := d.lblock }) place
  simp only [fullMerge, free]
  refine (congrArg (fun c : Ctrl => c.blocks.find? (·.no == f.no)) (getCtrl_setCtrl (ctrl_held_of_blocks held) _)).trans ?_
  exact put.find_freshLog (by rfl) used b.no b.lun

end

theorem mergesFull_fullMerge {s : State} {ctrl : Nat} {b d f : StkBlock} (free : lunFree (getCtrl s ctrl) b.lun = some f) :
    (fullMerge ctrl b d s).stk.mergesFull = satInc s.stk.mergesFull := by
  simp only [fullMerge, free]

/-! ### The map journal (R400) -/

section
variable {s : State} {ctrl : Nat} (run : serving s = true)
include run

theorem exec_mapDeltaProgram (ready : s.stk.ready = true) (due : 32 * mib ≤ (getCtrl s ctrl).deltas ∨
      0 < (getCtrl s ctrl).deltas ∧ past s (getCtrl s ctrl).deltaAt 1000000000 = true) :
    exec (.mapDeltaProgram ctrl) s = .next (setCtrl ctrl { getCtrl s ctrl with
      deltas := 0, fresh := [], deltaAt := s.now, deltaPrograms := ((getCtrl s ctrl).deltaPrograms + 1) % 64,
      fullImages := if (getCtrl s ctrl).deltaPrograms = 63 then (getCtrl s ctrl).fullImages + 1 else (getCtrl s ctrl).fullImages } s) := by
  refine congrArg _ ((whenServing_pos run _).trans ?_)
  have programs : (decide (32 * mib ≤ (getCtrl s ctrl).deltas) ||
      (decide (0 < (getCtrl s ctrl).deltas) && past s (getCtrl s ctrl).deltaAt 1000000000)) = true := by
    simpa only [Bool.or_eq_true, Bool.and_eq_true, decide_eq_true_eq] using due
  simp only [ready, programs, Bool.not_true, Bool.or_self, Bool.false_eq_true, if_false, Nat.reduceEqDiff]

theorem exec_mapDeltaProgram_early (few : (getCtrl s ctrl).deltas < 32 * mib)
    (early : past s (getCtrl s ctrl).deltaAt 1000000000 = false) : exec (.mapDeltaProgram ctrl) s = .next s := by
  refine congrArg _ ((whenServing_pos run _).trans ?_)
  exact if_pos (by simp [early, few])

end

/-! ### Records that are cleaned (R407) -/

/-- The record carries what `r` holds: the same passage of the same slot, and its poison unless it is one of `live`, whose poison is
set again at the end. -/
structure Carries (live : List PassRec) (r q : PassRec) : Prop where
  coll : q.coll = r.coll
  slot : q.slot = r.slot
  gen : q.gen = r.gen
  bytes : q.bytes = r.bytes
  poison : r ∉ live → r.poisoned = true → q.poisoned = true

theorem Carries.refl (live : List PassRec) (r : PassRec) : Carries live r r := ⟨rfl, rfl, rfl, rfl, fun _ poisoned => poisoned⟩

@[simp] theorem bufferWrite_records (ctrl : Nat) (kind : BufKind) (lblock page bytes : Nat) (s : State) :
    (bufferWrite ctrl kind lblock page bytes s).stk.records = s.stk.records := rfl

@[simp] theorem bufferWrite_wb (ctrl : Nat) (kind : BufKind) (lblock page bytes : Nat) (s : State) :
    (bufferWrite ctrl kind lblock page bytes s).wb = s.wb := rfl

theorem takeBlock_frame (ctrl lblock : Nat) (use : BlockUse) (s : State) :
    takeBlock ctrl lblock use s = { s with stk.ctrls := (takeBlock ctrl lblock use s).stk.ctrls } := by
  unfold takeBlock
  dsimp only
  split <;> rfl

/-- An appended record takes the place of the one of its slot. -/
theorem appendRecord_records (coll slot gen tenant : Nat) (bytes : List Byte) (s : State) :
    ∃ block off, (appendRecord coll slot gen tenant bytes s).stk.records =
      s.stk.records.filter (fun x => !(x.coll == coll && x.slot == slot)) ++ [⟨coll, slot, gen, block, off, bytes, false⟩] := by
  unfold appendRecord
  dsimp only
  split
  next b _ => exact ⟨_, _, rfl⟩
  next => rw [takeBlock_frame]; exact ⟨_, _, rfl⟩

theorem appendRecord_wb (coll slot gen tenant : Nat) (bytes : List Byte) (s : State) :
    (appendRecord coll slot gen tenant bytes s).wb = s.wb := by
  unfold appendRecord
  dsimp only
  split
  next => rfl
  next => rw [takeBlock_frame]; rfl

theorem moveRecord_below {s : State} (room : s.wb.seq.toNat < 0xFFF000000000) (tenant : Nat) (r : PassRec) :
    moveRecord tenant r s = appendRecord r.coll r.slot r.gen tenant r.bytes (ticked s) := stamped_below room _

/-- A move of one of `live` leaves a record that carries `r`, where no other of `live` has the slot of `r`. -/
theorem moveRecord_carries {live : List PassRec} {r x : PassRec} {s : State} (room : s.wb.seq.toNat < 0xFFF000000000) (tenant : Nat)
    (moved : x ∈ live) (alone : x.coll = r.coll → x.slot = r.slot → x = r) (held : ∃ q ∈ s.stk.records, Carries live r q) :
    ∃ q ∈ (moveRecord tenant x s).stk.records, Carries live r q := by
  obtain ⟨q, hq, carries⟩ := held
  obtain ⟨block, off, records⟩ := appendRecord_records x.coll x.slot x.gen tenant x.bytes (ticked s)
  rw [moveRecord_below room, records]
  by_cases here : r.coll = x.coll ∧ r.slot = x.slot
  · obtain rfl := alone here.1.symm here.2.symm
    exact ⟨_, List.mem_append_right _ (List.mem_singleton_self _), rfl, rfl, rfl, rfl, fun apart => absurd moved apart⟩
  · refine ⟨q, List.mem_append_left _ (List.mem_filter.2 ⟨hq, ?_⟩), carries⟩
    rw [carries.coll, carries.slot, Bool.not_eq_true', Bool.and_eq_false_imp]
    exact fun coll => beq_eq_false_iff_ne.2 fun slot => here ⟨beq_iff_eq.1 coll, slot⟩

theorem foldl_moveRecord_carries {live : List PassRec} {r : PassRec} (tenant : Nat)
    (alone : ∀ x ∈ live, x.coll = r.coll → x.slot = r.slot → x = r) {l : List PassRec} (part : ∀ x ∈ l, x ∈ live) {s : State}
    (room : s.wb.seq.toNat + l.length < 0xFFF000000000) (held : ∃ q ∈ s.stk.records, Carries live r q) :
    ∃ q ∈ (l.foldl (fun s r => moveRecord tenant r s) s).stk.records, Carries live r q := by
  induction l generalizing s with
  | nil => exact held
  | cons x l ih =>
    rw [List.length_cons] at room
    have below : s.wb.seq.toNat < 0xFFF000000000 := by omega
    have moved := part x List.mem_cons_self
    refine ih (fun y hy => part y (List.mem_cons_of_mem _ hy)) ?_ (moveRecord_carries below tenant moved (alone x moved) held)
    have next : (s.wb.seq + 1).toNat = s.wb.seq.toNat + 1 := BitVec.toNat_add_of_lt (by simpa using by omega)
    simp only [moveRecord_below below, appendRecord_wb, ticked_wb, next]
    omega

theorem exec_recordBlockClean {s : State} {block : Nat} {b : RecBlock} (run : serving s = true)
    (closed : s.stk.recBlocks.find? (fun b => b.id == block && !b.openNow) = some b) : exec (.recordBlockClean block) s =
      .next (if s.stk.ready && decide (4 * liveBytes s block < blockBytes s) then cleanBlock b s else s) := by
  refine congrArg _ ((whenServing_pos run _).trans ?_)
  rw [closed]

/-- A cleaned block is gone. -/
theorem cleanBlock_gone (b : RecBlock) (s : State) : ∀ x ∈ (cleanBlock b s).stk.recBlocks, x.id ≠ b.id := by
  intro x hx
  exact bne_iff_ne.1 (List.mem_filter.1 hx).2

/-- A record that took the place of one of `live` is poisoned as that one was. -/
def poisonedAgain (live : List PassRec) (r : PassRec) : PassRec :=
  if live.any fun x => x.coll == r.coll && x.slot == r.slot && x.poisoned then { r with poisoned := true } else r

theorem cleanBlock_records (b : RecBlock) (s : State) : (cleanBlock b s).stk.records =
    ((s.stk.records.filter (·.block == b.id)).foldl (fun s r => moveRecord b.tenant r s) s).stk.records.map
      (poisonedAgain (s.stk.records.filter (·.block == b.id))) := rfl

/-- With the poison of `live` set again, a record carries all that `r` holds. -/
theorem Carries.poisonedAgain {live : List PassRec} {r q : PassRec} (carries : Carries live r q) :
    Carries [] r (poisonedAgain live q) := by
  obtain ⟨coll, slot, gen, bytes, poison⟩ := carries
  unfold Machine.poisonedAgain
  split
  next => exact ⟨coll, slot, gen, bytes, fun _ _ => rfl⟩
  next unmarked =>
    refine ⟨coll, slot, gen, bytes, fun _ poisoned => poison (fun moved => unmarked ?_) poisoned⟩
    exact List.any_eq_true.2 ⟨r, moved, by simp [coll, slot, poisoned]⟩

/-- In a list whose elements have different keys, two of one key are the same. -/
theorem eq_of_nodup_map {α β : Type} {f : α → β} {l : List α} (different : (l.map f).Nodup) {x y : α} (hx : x ∈ l) (hy : y ∈ l)
    (same : f x = f y) : x = y := by
  induction l with
  | nil => cases hx
  | cons a l ih =>
    obtain ⟨fresh, rest⟩ := List.nodup_cons.1 different
    rcases List.mem_cons.1 hx with rfl | inX <;> rcases List.mem_cons.1 hy with rfl | inY
    · rfl
    · exact absurd (same ▸ List.mem_map_of_mem inY) fresh
    · exact absurd (same ▸ List.mem_map_of_mem inX) fresh
    · exact ih rest inX inY

/-- Cleaning keeps every record, poison included. -/
theorem cleanBlock_keeps_records {b : RecBlock} {s : State} (slots : (s.stk.records.map fun r => (r.coll, r.slot)).Nodup)
    (room : s.wb.seq.toNat + s.stk.records.length < 0xFFF000000000) {r : PassRec} (held : r ∈ s.stk.records) :
    ∃ q ∈ (cleanBlock b s).stk.records, Carries [] r q := by
  rw [cleanBlock_records]
  generalize hl : s.stk.records.filter (·.block == b.id) = live
  have inRecords : ∀ x ∈ live, x ∈ s.stk.records := fun x hx => (List.mem_filter.1 (hl ▸ hx)).1
  have alone : ∀ x ∈ live, x.coll = r.coll → x.slot = r.slot → x = r := fun x hx coll slot =>
    eq_of_nodup_map slots (inRecords x hx) held (Prod.ext coll slot)
  have fits : live.length ≤ s.stk.records.length := hl ▸ List.length_filter_le ..
  obtain ⟨q, hq, carries⟩ := foldl_moveRecord_carries b.tenant alone (fun _ hx => hx) (by omega) ⟨r, held, Carries.refl live r⟩
  exact ⟨_, List.mem_map_of_mem hq, carries.poisonedAgain⟩

/-- Settles O48: each command by what it does where it is due, the merges by the one block of the number they leave, and cleaning by what
the moves of its live records carry. -/
theorem theStockpileKeepsItsRoom : Obligations.TheStockpileKeepsItsRoom := by
  refine ⟨fun ctrl p s run mounted => ⟨exec_slcTargetRecompute run.1 mounted, exec_slcTargetRecompute_early run.1⟩, slcTargetOf_table,
    fun ctrl e rest s run held ready => ⟨exec_slcIdleMove_stays run.1, fun moves d l block log => ?_⟩,
    fun ctrl log l b d s run logged block data => ?_,
    fun ctrl s run ready => ⟨exec_mapDeltaProgram run.1 ready, exec_mapDeltaProgram_early run.1⟩,
    fun block b s run closed => ⟨fun full => ?_, fun ready sparse slots room => ?_⟩⟩
  · have there : ctrl < s.stk.ctrls.length := ctrl_held_of_slcHeld (by simp [held])
    have after (c : Ctrl) := (getCtrl_setCtrl there (slcEmptied c)).trans (slcEmptied_frame c)
    exact ⟨_, exec_slcIdleMove run.1 held ready moves block log, congrArg Ctrl.slcHeld (after _), congrArg Ctrl.deltas (after _),
      congrArg Ctrl.logs (after _), rfl⟩
  · have merge := exec_logBlockMerge run.1 logged block data
    have inPlace := List.mem_of_find?_eq_some block
    obtain rfl : b.no = log := beq_iff_eq.1 (List.find?_some block :)
    obtain ⟨key, -, isData⟩ := Option.bind_eq_some_iff.1 data
    have used := (dataBlock_some isData).2
    refine ⟨fun early => ?_, fun due apart => ⟨fun ascending => ?_, fun mixed f free => ?_⟩⟩
    · rw [merge, early]; rfl
    · rw [due, if_neg (by decide), if_pos ascending] at merge
      exact ⟨_, merge, rfl, find_switchMerge inPlace used apart, rfl⟩
    · rw [due, if_neg (by decide), if_neg mixed] at merge
      exact ⟨_, merge, mergesFull_fullMerge free, find_fullMerge inPlace used free⟩
  · rw [exec_recordBlockClean run.1 closed, if_neg (by simp [full])]
  · have number : b.id = block := by
      have here := List.find?_some closed
      simp only [Bool.and_eq_true, beq_iff_eq] at here
      exact here.1
    refine ⟨cleanBlock b s, ?_, number ▸ cleanBlock_gone b s, fun r held => ?_⟩
    · rw [exec_recordBlockClean run.1 closed, if_pos (by simp [ready, sparse])]
    · obtain ⟨q, hq, coll, slot, gen, bytes, poison⟩ := cleanBlock_keeps_records slots room held
      exact ⟨q, hq, coll, slot, gen, bytes, poison List.not_mem_nil⟩

end Sys2Proof.Machine

/-! SUPPORT. What every command answers, and the registers that hold no count: capabilities, select registers, the recorder's window and
the node address (17 R460; 19 R521; 21 R563, R567; 22 R581). -/

namespace Sys2Proof.Machine

/-! ### What every command answers (22 R581) -/

/-- Each arm of `exec` is a direct call of a meaning, and each meaning but one answers a next state whatever its operands. -/
theorem exec_answers (i : Instr) (s : State) (supply : ∀ v h, i = .supplyMonitorTrip v h → v ≤ 2050) : ∃ t, exec i s = .next t := by
  cases i
  case supplyMonitorTrip v h => exact ⟨_, if_neg (Nat.not_lt.2 (supply v h rfl))⟩
  all_goals exact ⟨_, rfl⟩

/-- Settles O3: the one meaning that looks at its operands before it answers is that of the supply monitor. -/
theorem everyCommandAnswers : Obligations.EveryCommandAnswers :=
  ⟨exec_answers, fun _ _ _ above => if_pos above⟩

/-! ### Reads and writes of one register (R447, R565, R578) -/

section
variable {c : Cmd} {s : State} (g : Granted c s)
include g

/-- A granted read of a register that no read changes and no select register steers only answers. -/
theorem exec_mread_plain {o v : W64} (page : regBits o 16 8 < 0x15) (whole : aligned o = true)
    (reads : readReg c o s = (s, v)) : exec (.mread c o) s = .next (answerMgmt c (.mresp o v 0) s) :=
  congrArg _ ((manage_granted g page whole 0 _).trans (by rw [reads]))

/-- A granted write of a register other than DOM_ENUM_CMD is answered and stamped, and then has its register's effect. -/
theorem exec_registerWrite {o : W64} (page : regBits o 16 8 < 0x15) (whole : aligned o = true) (other : o ≠ rEnumCmd) (d : W64) :
    exec (.registerWrite c o d) s = .next (regWrite c o d (ticketNext s) (taken c o d s)) := by
  have here : claimElsewhere o d s = false := by simp [claimElsewhere, other]
  simp only [exec, execRegisterWrite, here, Bool.false_eq_true, if_false, mgmtWrite_granted g page whole]

end

/-- Settles O7: the four registers read as constants, and their offsets are none that a write changes. -/
theorem capabilityRegisters : Obligations.CapabilityRegisters := by
  intro c s g
  refine ⟨exec_mread_plain g (by decide) (by decide) rfl, fun o ho => ?_, fun o ho d => ?_⟩
  · obtain rfl | rfl | rfl : o = 8 ∨ o = 0x10 ∨ o = 0x18 := by simpa using ho
    all_goals exact exec_mread_plain g (by decide) (by decide) rfl
  · obtain rfl | rfl | rfl | rfl : o = 0 ∨ o = 8 ∨ o = 0x10 ∨ o = 0x18 := by simpa using ho
    all_goals exact exec_registerWrite g (by decide) (by decide) (by decide) d

/-! ### LOG_READ_DATA and the select registers (R521, R563) -/

/-- Settles O9: LOG_READ_DATA is a read that sets the reader's bank, and a select register's write does nothing else. -/
theorem logReadsAdvance : Obligations.LogReadsAdvance := by
  refine ⟨fun c s g => ?_, fun c d s g => ⟨?_, ?_, fun members => ?_⟩⟩
  · exact congrArg _ (manage_granted g (by decide) (by decide) 0 (readReg c rLogData))
  · exact exec_registerWrite g (by decide) (by decide) (by decide) d
  · exact exec_registerWrite g (by decide) (by decide) (by decide) d
  · have held : keepsMembers (taken c 0xA0048 d s) = true := members
    refine (exec_registerWrite g (by decide) (by decide) (by decide) d).trans ?_
    exact congrArg _ (if_pos held)

/-! ### LNK_NODE_ADDR (R460) -/

theorem lnkNodeAddr_assigned {n : Node} {s : State} (assigned : s.lnk.node = some n) :
    lnkNodeAddr s = atBit 0 n ||| 0x10000 := by simp only [lnkNodeAddr, assigned]

theorem lnkNodeAddr_none {s : State} (unassigned : s.lnk.node = none) : lnkNodeAddr s = 0 := by
  simp only [lnkNodeAddr, unassigned]

/-- Bits [15:0] hold the address, bit [16] is `valid`, and the bits above are zero. -/
theorem nodeAddr_fields (n : Node) : (atBit 0 n ||| 0x10000).extractLsb' 0 16 = n ∧ (atBit 0 n ||| 0x10000).getLsbD 16 = true ∧
    (atBit 0 n ||| 0x10000).extractLsb' 17 47 = 0 := by
  have low : (atBit 0 n).extractLsb' 0 16 = n := by ext i hi; simp [atBit]; grind
  have high : (atBit 0 n).extractLsb' 17 47 = 0 := by ext i hi; simp [atBit]; grind
  refine ⟨?_, ?_, ?_⟩
  · rw [BitVec.extractLsb'_or, low]; simp
  · simp [atBit]
  · rw [BitVec.extractLsb'_or, high]; rfl

/-- Settles O59: a read gives the address with `valid`, or zero, and the offset is none that a write changes. -/
theorem nodeAddressRegister : Obligations.NodeAddressRegister := by
  refine ⟨fun c n s g assigned => ?_, fun c s g unassigned => ?_, fun c d s g => ?_, rfl⟩
  · obtain ⟨address, valid, reserved⟩ := nodeAddr_fields n
    rw [← lnkNodeAddr_assigned assigned] at address valid reserved
    exact ⟨_, address, valid, reserved, exec_mread_plain g (by decide) (by decide) rfl⟩
  · rw [← lnkNodeAddr_none unassigned]
    exact exec_mread_plain g (by decide) (by decide) rfl
  · exact exec_registerWrite g (by decide) (by decide) (by decide) d

end Sys2Proof.Machine

/-! SUPPORT. Long submissions: how SUBMIT opens one, how CONT continues or discards it, and when it is given up (17 R449). -/

namespace Sys2Proof.Machine

section
variable {s : State} {src : Node} {txn : W16} {data : List Byte} (run : serving s = true)
include run

/-! ### SUBMIT of a first segment (R449) -/

theorem exec_submit_opens {desc : List Byte} (desc128 : desc.length = 128) (bounded : Desc.payloadLen desc ≤ 1048576)
    (long : 65536 < Desc.payloadLen desc) (segment : data.length = 65536) (fresh : findSub s src txn = none)
    (few : s.wb.subs.length < 1024) (room : (s.wb.subs.map (·.data.length)).sum + 65536 ≤ 128 * 1048576) :
    exec (.submit src txn desc data) s = .next { s with wb.subs := s.wb.subs ++ [⟨src, txn, desc, data, s.now⟩] } := by
  have first : data.length = min (Desc.payloadLen desc) 65536 := by omega
  have unended : data.length ≠ Desc.payloadLen desc := by omega
  have fits : (decide (1024 ≤ s.wb.subs.length) || decide (128 * mib < (s.wb.subs.map (·.data.length)).sum + data.length)) = false := by
    simp only [Bool.or_eq_false_iff, decide_eq_false_iff_not, mib, segment]
    omega
  refine congrArg _ ((whenServing_pos run _).trans ?_)
  simp only [desc128, Nat.not_lt.2 bounded, ← first, unended, fresh, fits, bne_self_eq_false, Option.isSome_none, Bool.false_eq_true,
    if_false]

/-! ### CONT (R449) -/

theorem exec_cont_unknown (off : Nat) (unknown : findSub s src txn = none) : exec (.cont src txn off data) s = .next (badTxn s) := by
  refine congrArg _ ((whenServing_pos run _).trans ?_)
  simp only [unknown]

variable {x : Sub} (found : findSub s src txn = some x)
include found

/-- A segment that lies past what has arrived discards the submission. -/
theorem exec_cont_gap {off : Nat} (gap : off > x.data.length) : exec (.cont src txn off data) s = .next (badTxn (dropSub src txn s)) := by
  have unheld : ¬ off + data.length ≤ x.data.length := by omega
  have apart : (off != x.data.length) = true := bne_iff_ne.2 (by omega)
  refine congrArg _ ((whenServing_pos run _).trans ?_)
  simp only [found, unheld, apart, decide_false, Bool.false_and, Bool.true_or, Bool.false_eq_true, if_false, if_true]

/-- The next segment, with more to come, is appended. -/
theorem exec_cont_appends (segment : data.length = 65536) (more : x.data.length + 65536 < Desc.payloadLen x.desc) :
    exec (.cont src txn x.data.length data) s = .next { s with
      wb.subs := s.wb.subs.map fun y => if y.src = src && y.txn = txn then { y with data := x.data ++ data, last := s.now } else y } := by
  have unheld : ¬ x.data.length + data.length ≤ x.data.length := by omega
  have whole : data.length = min (x.desc.payloadLen - x.data.length) 65536 := by omega
  have unended : (x.data ++ data).length ≠ x.desc.payloadLen := by rw [List.length_append]; omega
  refine congrArg _ ((whenServing_pos run _).trans ?_)
  simp only [found, unheld, ← whole, unended, bne_self_eq_false, decide_false, Bool.false_and, Bool.or_self, Bool.false_eq_true, if_false]

/-! ### SUBMISSION_TIMEOUT (R449) -/

theorem exec_submissionTimeout : exec (.submissionTimeout src txn) s =
    .next (if past s x.last 1000000 then { dropSub src txn s with lnk.subIncomplete := satInc s.lnk.subIncomplete } else s) := by
  refine congrArg _ ((whenServing_pos run _).trans ?_)
  simp only [found]

end

/-- Settles O27: one clause for each way a segment, or the wait for one, can end. -/
theorem submissionsArriveInSegments : Obligations.SubmissionsArriveInSegments := by
  refine ⟨fun src txn desc data s run => exec_submit_opens run, fun src txn data x s run only isSrc isTxn segment _ more => ?_,
    fun src txn off data x s run found => exec_cont_gap run found, fun src txn off data s run => exec_cont_unknown run off,
    fun src txn x s run found => exec_submissionTimeout run found⟩
  have found : findSub s src txn = some x := by simp [findSub, only, isSrc, isTxn]
  simp [exec_cont_appends run found segment more, only, isSrc, isTxn]

end Sys2Proof.Machine

/-! SUPPORT. What the end of a job leaves of the device, and so what a stamp leaves (05 R123, R124; 06 R135): clocks, power, the link, the
memory units, and the members but for their part in the job. -/

namespace Sys2Proof.Machine

/-- The device without what requests, jobs, records and stamps change. -/
def plant (s : State) : State :=
  { s with
    out := [], cfg := {}, wb := {}, job := {}, flt := {}, log := {}, srch := {}, gth := {}, scr := {}, txt := {}, dec := {}
    mem := { s.mem with objs := [], pages := [], quotaHit := 0 }
    haul := { s.haul with todo := [] }
    dom := { s.dom with override := none, members := s.dom.members.map fun m => { m with inJob := false } } }

section
variable {s t : State} (same : plant s = plant t)
include same

theorem clk_of_plant : s.clk = t.clk := (congrArg State.clk same : (plant s).clk = (plant t).clk)
theorem lnk_of_plant : s.lnk = t.lnk := (congrArg State.lnk same : (plant s).lnk = (plant t).lnk)
theorem modules_of_plant : s.mem.modules = t.mem.modules := congrArg (·.mem.modules) same
theorem stacksFailed_of_plant : s.mem.stacksFailed = t.mem.stacksFailed := congrArg (·.mem.stacksFailed) same

end

theorem plant_event (t : Ticket) (type : Nat) (l : Loc) (code attempts action : Nat) (aux : W64) (extra : List Byte) (s : State) :
    plant (event t type l code attempts action aux extra s) = plant s := by rw [event_frame]; rfl

theorem plant_sendEach (dsts : List Node) (t : Ticket) (m : Msg) (s : State) : plant (sendEach dsts t m s) = plant s := by
  rw [sendEach_frame]; rfl

theorem plant_closeDecode (r : Req) (o : Outcome) (s : State) : plant (closeDecode r o s).1 = plant s := by
  rw [closeDecode_frame]; rfl

theorem plant_finish (r : Req) (o : Outcome) (s : State) : plant (finish r o s) = plant s := by
  unfold finish
  split
  · rfl
  · rw [← plant_closeDecode r o s]
    generalize closeDecode r o s = closed
    obtain ⟨u, o⟩ := closed
    dsimp only
    (repeat' split) <;> rfl

theorem plant_endReq (status detail : Nat) (r : Req) (s : State) : plant (endReq status detail r s) = plant s := by
  unfold endReq
  split
  · rfl
  · split
    · exact plant_finish ..
    · rw [plant_finish, cancelAway_frame]; rfl

theorem plant_endAll (status detail : Nat) (s : State) : plant (endAll status detail s) = plant s :=
  foldl_leaves plant (fun s r => plant_endReq status detail r s) _ s

theorem plant_discardSets (s : State) : plant (discardSets s) = plant s :=
  foldl_leaves plant (f := fun s (p : PlanSet) => freeObjects p.serial s) (fun _ _ => rfl) _ s

theorem plant_wb (w : Wb) (s : State) : plant { s with wb := w } = plant s := rfl
theorem plant_job (j : Job) (s : State) : plant { s with job := j } = plant s := rfl

theorem plant_ite {c : Prop} [Decidable c] {a b s : State} (ha : plant a = plant s) (hb : plant b = plant s) :
    plant (if c then a else b) = plant s := by
  split
  · exact ha
  · exact hb

/-- The teardown of a job takes members out of the job, and leaves the rest of the device (R124). -/
theorem plant_teardown (cause : Nat) (t : Ticket) (s : State) : plant (teardown cause t s) = plant s := by
  have clear (u : State) : plant { u with dom.members := u.dom.members.map fun m => { m with inJob := false } } = plant u := by
    simp only [plant, List.map_map]; rfl
  have told (l : List Node) (u : State) : plant (l.foldl (fun s n => send n 0 0 (.mwrite 0x30000 3) s) u) = plant u :=
    foldl_leaves plant (f := fun s (n : Node) => send n 0 0 (.mwrite 0x30000 3) s) (fun _ _ => rfl) l u
  have closed (u : State) : plant { u with job.phase := 0, job.aborting := false, cfg.prepared := none } = plant u := rfl
  have folds (u : State) : plant (stopFolds u) = plant u := rfl
  have pubs (u : State) : plant { u with gth.pubs := u.gth.pubs.filter (·.committed) } = plant u := rfl
  have ended := plant_endAll 4 cause { s with job.phase := 3, job.faultCause := BitVec.ofNat 8 cause }
  unfold teardown
  refine plant_ite rfl ?_
  refine (clear _).trans ((told _ _).trans ((closed _).trans ((plant_event ..).trans ((folds _).trans ((plant_discardSets _).trans
    ((pubs _).trans (Eq.trans ?_ ended)))))))
  generalize endAll 4 cause _ = u
  split <;> rfl

/-- A stamp that crosses a limit of R135 warns, or ends the job. -/
theorem plant_stamp (s : State) : plant (stamp s).1 = plant s := by
  have warned (n : Nat) (t : Ticket) (u : State) : plant (if 0xFFF000000000 ≤ n && !u.wb.seqWarn then
      event t 0x63 devLoc 0 1 0 0 [] { u with wb.seqWarn := true } else u) = plant u := plant_ite (plant_event ..) rfl
  exact plant_ite ((plant_wb _ _).trans ((plant_teardown 6 _ _).trans (warned _ _ _))) (warned _ _ _)

theorem plant_stamped {f : State → Ticket → State} (hf : ∀ s t, plant (f s t) = plant s) (s : State) :
    plant (stamped s f) = plant s := (hf _ _).trans (plant_stamp s)

theorem plant_stampedIf {f : State → Ticket → State} (hf : ∀ s t, plant (f s t) = plant s) (s : State) :
    plant (stampedIf s f) = plant s := plant_ite (plant_stamped hf s) (hf _ _)

theorem stampedIf_runs {s : State} (run : Runs s) (f : State → Ticket → State) : stampedIf s f = f (ticked s) (ticketNext s) :=
  stampedIf_below run.1 run.2 f

/-! ### A sub-port goes down (R438) -/

/-- A sub-port that was in service, or trained, and has gone down. -/
def SubPort.fallen (p : SubPort) : SubPort :=
  { p with state := .down, lanes := 0, creditStall := false, portDown := satInc p.portDown, keepSeq := false, after := false,
           replay := [], waiting := [] }

theorem subLost_down {i : Nat} {s : State} (down : (getSub s i).state = .down) : subLost i s = s := if_pos down

/-- A sub-port that goes down leaves the device but for the link as it was, whatever its record's stamp does. -/
theorem plant_subLost {i : Nat} {s : State} (inService : (getSub s i).state ≠ .down) :
    plant (subLost i s) = plant (setSub i (getSub s i).fallen s) := by
  unfold subLost
  refine (congrArg plant (if_neg inService)).trans ?_
  exact plant_stampedIf (fun s t => plant_event ..) _

end Sys2Proof.Machine

/-! SUPPORT. Clock monitors, CLKOUT, temperatures and the AVSBus loop: what a window, a ring check, a sample or a frame does, and what the
failure of a clock domain leaves (20 R528 to R531, R538 to R540, R555). -/

namespace Sys2Proof.Machine

/-! ### Windows (R528) -/

theorem windowOk_core (n : Nat) : windowOk 1 n = true ↔ 1287 ≤ n ∧ n ≤ 1313 := by
  simp only [windowOk, clockFreq, List.getD_cons_succ, List.getD_cons_zero, Bool.and_eq_true, decide_eq_true_eq]
  omega

/-- A domain whose windows are judged (R528, R529). -/
def Monitored (d : Nat) (s : State) : Prop :=
  clockExists d = true ∧ d ≠ ringDomain ∧ s.clk.ringBad = false ∧ d ∉ s.clk.fallback ∧ d ∉ s.clk.halted

theorem exec_monitorWindow_unmonitored {d : Nat} {s : State} (run : serving s = true) (n : Nat)
    (out : clockExists d = false ∨ d = ringDomain ∨ s.clk.ringBad = true ∨ d ∈ s.clk.fallback ∨ d ∈ s.clk.halted) :
    exec (.monitorWindow d n) s = .next s := by
  refine congrArg _ ((whenServing_pos run _).trans ?_)
  refine if_pos ?_
  rcases out with missing | ring | bad | switched | halted
  · simp [missing]
  · simp [ring]
  · simp [bad]
  · simp [switched]
  · simp [halted]

section
variable {d n : Nat} {s : State} (run : Runs s) (watched : Monitored d s) (proper : d ≠ fallbackDomain)
include run watched proper

theorem exec_monitorWindow : exec (.monitorWindow d n) s = .next
    (if windowOk (d / 16) n then { s with clk.badWindow := s.clk.badWindow.filter (· != d) }
    else if s.clk.badWindow.contains d then clockFail d s
    else event (ticketNext s) 0x70 (clockLoc d) 0 1 0 0 []
      (ticked { s with clk.badWindow := s.clk.badWindow ++ [d], clk.transient := satInc s.clk.transient })) := by
  obtain ⟨here, ring, sound, direct, going⟩ := watched
  have judged : (!clockExists d || decide (d = ringDomain) || s.clk.ringBad || s.clk.fallback.contains d || s.clk.halted.contains d ||
      (decide (d = fallbackDomain) && s.clk.fallbackFailed)) = false := by simp [here, ring, sound, direct, going, proper]
  refine congrArg _ ((whenServing_pos run.1 _).trans ?_)
  refine (if_neg (Bool.eq_false_iff.1 judged)).trans ?_
  rw [stamped_ticked]
  · rfl
  · exact run.2

end

/-! ### A domain fails (R529) -/

theorem subLost_clk (i : Nat) (s : State) : (subLost i s).clk = s.clk := by
  by_cases down : (getSub s i).state = .down
  · rw [subLost_down down]
  · exact (clk_of_plant (plant_subLost down)).trans rfl

/-- The failure of a stack's clock leaves the device but for the stack as it was. -/
theorem plant_stackFailed {u : Nat} {s : State} (working : u ∉ s.mem.stacksFailed) {d : Nat} (class3 : d / 16 = 3) (unit : d % 16 = u) :
    plant (clockConsequence d s) = plant { s with mem.stacksFailed := s.mem.stacksFailed ++ [u] } := by
  unfold clockConsequence
  simp only [class3, unit, List.contains_eq_mem, decide_eq_true_eq, if_neg working]
  exact plant_stamped (fun s t => plant_event ..) _

theorem clockConsequence_clk (d : Nat) (s : State) : (clockConsequence d s).clk = s.clk := by
  unfold clockConsequence
  dsimp only
  split
  · split
    · rfl
    · exact (clk_of_plant (plant_stamped (fun s t => plant_event ..) _)).trans rfl
  · rfl
  · exact foldl_leaves State.clk (fun s i => subLost_clk (4 * (d % 16) + i) s) _ s
  · rfl

/-- The domains that fail with a domain: the reference takes those it feeds. -/
def failWith (d : Nat) : List Nat := if d = 0 then dedup (0 :: pllDomains) else [d]

theorem mem_failWith (d : Nat) : d ∈ failWith d := by
  unfold failWith
  split
  · next zero => exact (mem_dedup ..).2 (by simp [zero])
  · exact List.mem_singleton_self d

/-- The clocks after a domain's lasting fault: its domains switch to FALLBACK, or halt where FALLBACK has failed. -/
def failedClk (d : Nat) (k : Clk) : Clk :=
  let k := { k with lastFailed := BitVec.ofNat 12 d, badWindow := k.badWindow.filter (· != d) }
  if k.fallbackFailed then { k with halted := dedup (k.halted ++ failWith d) } else { k with fallback := dedup (k.fallback ++ failWith d) }

/-- A domain's lasting fault switches its domains with one record, and then each has its consequence. -/
theorem clockFail_consequences {d : Nat} {s : State} (run : Runs s) (proper : d ≠ fallbackDomain) :
    clockFail d s = (failWith d).foldl (fun s x => clockConsequence x s)
      (event (ticketNext s) 0x71 (clockLoc d) 0 2 (if s.clk.fallbackFailed then 0 else 10) 0 []
        (ticked { s with clk := failedClk d s.clk })) := by
  unfold clockFail
  rw [stamped_ticked run.2]
  refine (if_neg proper).trans ?_
  cases failed : s.clk.fallbackFailed
  · simp [failedClk, failWith, failed, ticked]
  · simp [failedClk, failWith, failed, ticked]

section
variable {d : Nat} {s : State} (run : Runs s) (proper : d ≠ fallbackDomain)
include run proper

theorem clockFail_clk : (clockFail d s).clk = failedClk d s.clk := by
  rw [clockFail_consequences run proper, foldl_leaves State.clk (fun s x => clockConsequence_clk x s)]
  exact clk_of_plant (plant_event ..)

theorem clockFail_module (class4 : d / 16 = 4) : (clockFail d s).mem.modules = s.mem.modules.set (d % 16) none := by
  have only : failWith d = [d] := if_neg (by omega)
  rw [clockFail_consequences run proper, only, List.foldl_cons, List.foldl_nil]
  simp only [clockConsequence, class4]
  rw [modules_of_plant (plant_event ..)]
  rfl

theorem clockFail_stack (class3 : d / 16 = 3) : d % 16 ∈ (clockFail d s).mem.stacksFailed := by
  have only : failWith d = [d] := if_neg (by omega)
  rw [clockFail_consequences run proper, only, List.foldl_cons, List.foldl_nil]
  generalize event (ticketNext s) _ _ _ _ _ _ _ _ = u
  by_cases failed : d % 16 ∈ u.mem.stacksFailed
  · simpa only [clockConsequence, class3, List.contains_eq_mem, decide_eq_true_eq, if_pos failed] using failed
  · rw [stacksFailed_of_plant (plant_stackFailed failed class3 rfl)]
    exact List.mem_append_right _ (List.mem_singleton_self _)

end

theorem failedClk_names (d : Nat) (k : Clk) : (failedClk d k).lastFailed = BitVec.ofNat 12 d ∧ d ∉ (failedClk d k).badWindow := by
  unfold failedClk
  dsimp only
  split <;> simp

theorem failedClk_fallback {k : Clk} (d : Nat) (works : k.fallbackFailed = false) :
    d ∈ (failedClk d k).fallback ∧ (failedClk d k).halted = k.halted := by
  simp [failedClk, works, mem_dedup, mem_failWith]

theorem failedClk_halts {k : Clk} (d : Nat) (failed : k.fallbackFailed = true) :
    d ∈ (failedClk d k).halted ∧ (failedClk d k).fallback = k.fallback := by
  simp [failedClk, failed, mem_dedup, mem_failWith]

/-! ### RING_CHECK (R528) -/

section
variable {n : Nat} {s : State} (run : serving s = true)
include run

theorem exec_ringCheck_inRange (inRange : windowOk 9 n = true) : exec (.ringCheck n) s = .next s := by
  refine congrArg _ ((whenServing_pos run _).trans ?_)
  simp only [inRange, Bool.true_or, if_true]

theorem exec_ringCheck_bad (outside : windowOk 9 n = false) (direct : 0 ∉ s.clk.fallback) (going : 0 ∉ s.clk.halted) :
    exec (.ringCheck n) s = .next { s with clk.ringBad := true } := by
  refine congrArg _ ((whenServing_pos run _).trans ?_)
  simp only [outside, List.contains_eq_mem, direct, going, decide_false, Bool.or_self, Bool.false_eq_true, if_false]

end

/-! ### CLK_OUT_CFG_WRITE (R531, R555) -/

/-- A field that a mask keeps whole is that of the value masked. -/
theorem regBits_and_mask {m : W64} {lo len : Nat} (whole : m.extractLsb' lo len = BitVec.allOnes len) (v : W64) :
    regBits (v &&& m) lo len = regBits v lo len := by
  rw [regBits_toNat, BitVec.extractLsb'_and, whole, BitVec.and_allOnes, regBits_toNat]

/-- The fields of CLK_OUT_CFG are those of the value written. -/
theorem clkOut_fields (v : W64) : regBits (v &&& clkOutMask) 0 12 = v.toNat % 4096 ∧
    regBits (v &&& clkOutMask) 16 16 = v.toNat / 65536 % 65536 ∧ regBit (v &&& clkOutMask) 12 = v.getLsbD 12 := by
  refine ⟨(regBits_and_mask (by decide) v).trans ?_, regBits_and_mask (by decide) v, ?_⟩
  · exact congrArg (· % 4096) (Nat.div_one _)
  · simp [regBit, clkOutMask]

section
variable {c : Cmd} {v : W64} {s : State} {src div : Nat} (isSrc : src = v.toNat % 4096) (isDiv : div = v.toNat / 65536 % 65536)
  (direct : src ∉ s.clk.fallback)
include isSrc isDiv direct

/-- A write of CLK_OUT_CFG whose source is not on FALLBACK, by what its source and divider give. -/
theorem clkOutWrite_direct : clkOutWrite v s =
    (if clockExists src = false then { s with clk.outCfg := v &&& clkOutMask, clk.srcBad := true, lands.clkout := none }
    else if 6400 * (div + 1) < clockFreq (src / 16) then { s with clk.outCfg := v &&& clkOutMask, clk.outFast := true, lands.clkout := none }
    else { s with clk.outCfg := v &&& clkOutMask, clk.outFast := false, clk.srcBad := false
                  lands.clkout := if v.getLsbD 12 then some (src, div) else none }) := by
  obtain ⟨srcField, divField, enable⟩ := clkOut_fields v
  unfold clkOutWrite
  dsimp only
  simp only [srcField, divField, enable, ← isSrc, ← isDiv, List.contains_eq_mem, direct, decide_false, Bool.false_eq_true, if_false,
    Bool.not_eq_true']
  (repeat' split) <;> rfl

end

theorem exec_clkOutCfgWrite {c : Cmd} {s : State} (g : Granted c s) (v : W64) :
    exec (.clkOutCfgWrite c v) s = .next (clkOutWrite v (taken c rClkOut v s)) :=
  congrArg _ (mgmtWrite_granted g (by decide) (by decide) _ _)

/-! ### THERMAL_SAMPLE (R538, R539) -/

/-- The hottest reading is kept, and the throttle is set from 103 degrees until 101. -/
def thermalNoted (hot : Nat) (s : State) : State :=
  { s with pwr.tmax := satNat 10 hot, pwr.throttle := decide (206 ≤ hot) || (s.pwr.throttle && decide (202 ≤ hot)) }

section
variable {xs : List Nat} {s : State} (run : Runs s)
include run

theorem exec_thermalSample_cool (cool : xs.foldl max 0 < 230) :
    exec (.thermalSample xs) s = .next (thermalNoted (xs.foldl max 0) s) := by
  refine congrArg _ ((if_pos (by simp [(serving_awake run.1).1])).trans ?_)
  exact if_neg (Nat.not_le.2 cool)

/-- From 115 degrees the device asserts THERMTRIP_N and begins its flush. -/
theorem exec_thermalSample_hot (hot : 230 ≤ xs.foldl max 0) : exec (.thermalSample xs) s =
    .next (beginFlush 0x72 (xs.findIdx fun x => decide (230 ≤ x)) { thermalNoted (xs.foldl max 0) s with lands.thermtrip := true }) := by
  refine congrArg _ ((if_pos (by simp [(serving_awake run.1).1])).trans ?_)
  exact if_pos hot

end

/-! ### The AVSBus loop (R540) -/

section
variable {s : State} (run : serving s = true)
include run

theorem exec_avsAdjust (mv : Nat) : exec (.avsAdjust mv) s = .next (if s.pwr.avsFault then s
    else { s with pwr.setpoint := max 1780 (min 1950 (s.pwr.setpoint + 1800 - mv)), pwr.avsRetry := false }) :=
  congrArg _ (whenServing_pos run _)

theorem exec_avsTimeout : exec .avsTimeout s =
    .next (if s.pwr.avsRetry then { s with pwr.avsRetry := false, pwr.avsFault := true } else { s with pwr.avsRetry := true }) :=
  congrArg _ (whenServing_pos run _)

end

/-- Settles O55: windows by the count they judge and the domain's lasting fault by what it leaves of the clocks and the memory units, then
CLKOUT, temperatures and the AVSBus loop by the cases of their rules. -/
theorem clocksAndTemperatureAreWatched : Obligations.ClocksAndTemperatureAreWatched := by
  refine ⟨windowOk_core, fun d n s run => ⟨exec_monitorWindow_unmonitored run.1 n, fun here ring sound direct going proper => ?_⟩,
    fun n s run => ⟨exec_ringCheck_inRange run.1, exec_ringCheck_bad run.1⟩, fun c v src div s g isSrc isDiv direct => ?_,
    fun xs hot s run isHot => ?_, fun mv s run => ?_⟩
  · have window := exec_monitorWindow (n := n) run ⟨here, ring, sound, direct, going⟩ proper
    refine ⟨fun inRange => ?_, fun outside first => ?_, fun outside second => ?_⟩
    · rw [window, if_pos inRange]
    · rw [window, if_neg (Bool.eq_false_iff.1 outside), if_neg (by simpa using first)]
    · rw [if_neg (Bool.eq_false_iff.1 outside), if_pos (by simpa using second)] at window
      refine ⟨_, window, ?_⟩
      rw [clockFail_clk run proper]
      obtain ⟨named, forgotten⟩ := failedClk_names d s.clk
      exact ⟨named, forgotten, failedClk_fallback d, failedClk_halts d, clockFail_module run proper, clockFail_stack run proper⟩
  · have write := clkOutWrite_direct (s := taken c rClkOut v s) isSrc isDiv direct
    rw [exec_clkOutCfgWrite g, write]
    refine ⟨fun missing => ?_, fun here fast => ?_, fun here slow => ?_⟩
    · rw [if_pos missing]; rfl
    · rw [if_neg (by simp [here]), if_pos fast]; rfl
    · rw [if_neg (by simp [here]), if_neg (Nat.not_lt.2 slow)]; rfl
  · subst isHot
    refine ⟨exec_thermalSample_cool run, fun hot => ?_⟩
    refine ⟨_, exec_thermalSample_hot run hot, ?_⟩
    rw [beginFlush_runs (by exact run), event_frame]
    exact ⟨rfl, rfl, rfl⟩
  · rw [exec_avsAdjust run.1, exec_avsTimeout run.1]
    refine ⟨fun fault => by rw [if_pos fault], fun fine => ?_, fun first => ?_, fun second => by rw [if_pos second]⟩
    · rw [if_neg (Bool.eq_false_iff.1 fine)]
      refine ⟨_, rfl, le_max_left .., ?_, fun low below above => ?_, rfl⟩
      · exact max_le (by decide) (min_le_left ..)
      · exact le_max_of_le_right (le_min below (by omega))
    · rw [if_neg (Bool.eq_false_iff.1 first)]

end Sys2Proof.Machine

/-! SUPPORT. Sub-ports: one sub-port read and written, what goes out on its lanes, and how it trains, retrains and goes down (17 R429 to
R443, R456). -/

namespace Sys2Proof.Machine

/-! ### A sub-port read back -/

theorem getSub_setSub {s : State} {i : Nat} (held : i < s.lnk.subs.length) (p : SubPort) : getSub (setSub i p s) i = p := by
  simp [getSub, setSub, held]

theorem getSub_setSub_other {i j : Nat} (other : j ≠ i) (p : SubPort) (s : State) : getSub (setSub i p s) j = getSub s j := by
  simp [getSub, setSub, List.getD_eq_getElem?_getD, List.getElem?_set_ne other.symm]

theorem setSub_setSub (i : Nat) (p q : SubPort) (s : State) : setSub i q (setSub i p s) = setSub i q s := by
  simp [setSub]

theorem setSub_getSub (s : State) (i : Nat) : setSub i (getSub s i) s = s := by
  have same : s.lnk.subs.set i (s.lnk.subs.getD i {}) = s.lnk.subs := by
    by_cases held : i < s.lnk.subs.length
    · rw [List.getD_eq_getElem _ _ held, List.set_getElem_self]
    · exact List.set_eq_of_length_le (Nat.not_lt.1 held)
  show { s with lnk.subs := s.lnk.subs.set i (s.lnk.subs.getD i {}) } = s
  rw [same]

theorem setSub_length (i : Nat) (p : SubPort) (s : State) : (setSub i p s).lnk.subs.length = s.lnk.subs.length := List.length_set

theorem getSub_congr {s t : State} (same : s.lnk = t.lnk) : getSub s = getSub t := by funext i; simp only [getSub, same]

/-- A sub-port that is not down is one of the device's. -/
theorem held_of_state {s : State} {i : Nat} (inService : (getSub s i).state ≠ .down) : i < s.lnk.subs.length := by
  by_contra absent
  exact inService (by simp [getSub, List.getD_eq_getElem?_getD, List.getElem?_eq_none (Nat.not_lt.1 absent)])

theorem subLost_lnk {s : State} {i : Nat} (inService : (getSub s i).state ≠ .down) :
    (subLost i s).lnk = (setSub i (getSub s i).fallen s).lnk := lnk_of_plant (plant_subLost inService)

/-- A sub-port that goes down is down afterwards, whatever it was, and the others are as they were. -/
theorem getSub_subLost {s : State} {i : Nat} :
    (getSub (subLost i s) i).state = .down ∧ ∀ j ≠ i, getSub (subLost i s) j = getSub s j := by
  by_cases down : (getSub s i).state = .down
  · rw [subLost_down down]
    exact ⟨down, fun _ _ => rfl⟩
  · rw [getSub_congr (subLost_lnk down)]
    exact ⟨by rw [getSub_setSub (held_of_state down)]; rfl, fun j other => getSub_setSub_other other _ s⟩

theorem getSub_fallen {s : State} {i : Nat} (inService : (getSub s i).state ≠ .down) : getSub (subLost i s) i = (getSub s i).fallen := by
  rw [getSub_congr (subLost_lnk inService), getSub_setSub (held_of_state inService)]

/-! ### What goes out (R430, R433, R436) -/

/-- With nothing waiting, sending notes the stalls and sends nothing. -/
theorem sendWaiting_idle {s : State} {i : Nat} (held : i < s.lnk.subs.length) {q : SubPort} (idle : q.waiting = []) :
    ∃ since stall, sendWaiting i (setSub i q s) = setSub i { q with stallSince := since, creditStall := stall } s := by
  have quiet : sendWaiting i (setSub i q s) = noteStalls i (setSub i q s) := by
    rw [sendWaiting, getSub_setSub held, idle]; rfl
  rw [quiet, noteStalls, getSub_setSub held]
  exact ⟨_, _, setSub_setSub ..⟩

/-- A replayed flit on the lanes of sub-port `i`, whose state is `p`. -/
def resent (i : Nat) (p : SubPort) (seq : W16) (x : DataFlit) : Nat × List Byte :=
  (i, flitBytes p 1 (x.vc + (if x.sop then 4 else 0) + if x.eop then 8 else 0) x.payload.length seq x.payload)

theorem resent_congr {p q : SubPort} (expect : q.expect = p.expect) (counts : q.recvCount = p.recvCount) (i : Nat) :
    resent i q = resent i p := by
  funext seq x
  simp only [resent, flitBytes, expect, counts]

/-- A run of replayed flits puts each on the lanes, and notes that its sub-port's `ack_seq` left with them. -/
theorem foldl_emitData {i : Nat} (seq : Nat → W16) (xs : List (Nat × DataFlit)) :
    ∀ {s : State} {p : SubPort}, i < s.lnk.subs.length →
      ∃ a b, xs.foldl (fun s x => emitData i (seq x.1) x.2 s) (setSub i p s) = setSub i { p with ackSent := a, ackedTo := b }
        { s with lnk.wire := s.lnk.wire ++ xs.map fun x => resent i p (seq x.1) x.2 } := by
  induction xs with
  | nil => exact fun _ => ⟨_, _, by simp only [List.map_nil, List.append_nil]; rfl⟩
  | cons x xs ih =>
    intro s p held
    have sent : emitData i (seq x.1) x.2 (setSub i p s) = setSub i { p with ackSent := s.now, ackedTo := p.expect }
        { s with lnk.wire := s.lnk.wire ++ [resent i p (seq x.1) x.2] } := by
      unfold emitData emit
      rw [getSub_setSub held]
      exact setSub_setSub i p _ { s with lnk.wire := s.lnk.wire ++ [resent i p (seq x.1) x.2] }
    obtain ⟨a, b, run⟩ := ih (s := { s with lnk.wire := s.lnk.wire ++ [resent i p (seq x.1) x.2] })
      (p := { p with ackSent := s.now, ackedTo := p.expect }) held
    rw [resent_congr (p := p) (q := { p with ackSent := s.now, ackedTo := p.expect }) rfl rfl] at run
    refine ⟨a, b, ?_⟩
    rw [List.foldl_cons, sent, run]
    simp only [List.map_cons, List.append_assoc, List.singleton_append]

/-- A replay keeps the flits it sends, and sends those from the `k`-th unacknowledged on, in order (R436). -/
theorem replayFrom_sends {s : State} {i : Nat} {p : SubPort} (held : i < s.lnk.subs.length) (k : Nat) :
    ∃ a b, replayFrom i k (setSub i p s) = setSub i { p with ackSince := s.now, ackSent := a, ackedTo := b }
      { s with lnk.wire := s.lnk.wire ++ (p.replay.drop k).mapIdx fun j x => resent i p (oldestSeq p + BitVec.ofNat 16 (k + j)) x } := by
  obtain ⟨a, b, run⟩ := foldl_emitData (fun j => oldestSeq p + BitVec.ofNat 16 (k + j)) ((p.replay.drop k).mapIdx fun j f => (j, f))
    (s := s) (p := { p with ackSince := s.now }) held
  refine ⟨a, b, ?_⟩
  unfold replayFrom
  rw [getSub_setSub held]
  dsimp only [setSub_now]
  rw [setSub_setSub]
  refine run.trans ?_
  have flits : ((p.replay.drop k).mapIdx fun j f => (j, f)).map (fun x => resent i p (oldestSeq p + BitVec.ofNat 16 (k + x.1)) x.2) =
      (p.replay.drop k).mapIdx fun j x => resent i p (oldestSeq p + BitVec.ofNat 16 (k + j)) x :=
    List.ext_getElem (by simp) (by simp)
  rw [resent_congr (p := p) (q := { p with ackSince := s.now }) rfl rfl, flits]

/-! ### Training (R429, R438, R443) -/

section
variable {port sub i : Nat} {s : State} (isSub : i = 4 * port + sub)
include isSub

theorem exec_linkTraining_idle (t : Training) (idle : (getSub s i).state ≠ .training) : exec (.linkTraining port sub t) s = .next s := by
  subst isSub
  exact congrArg _ (if_pos (by simp [idle]))

theorem exec_trainingTimeout_idle (idle : (getSub s i).state ≠ .training) : exec (.trainingTimeout port sub) s = .next s := by
  subst isSub
  exact congrArg _ (if_neg (by simp [idle]))

theorem exec_trainingTimeout_early (early : past s (getSub s i).began 130000000 = false) : exec (.trainingTimeout port sub) s = .next s := by
  subst isSub
  exact congrArg _ (if_neg (by simp [early]))

variable (works : linkOn s i = true) (training : (getSub s i).state = .training)
include works training

theorem exec_trainingTimeout_late (late : past s (getSub s i).began 130000000 = true) :
    exec (.trainingTimeout port sub) s = .next (trainingFailed false false i s) := by
  subst isSub
  exact congrArg _ (if_pos (by simp [works, training, late]))

variable (t : Training)

theorem exec_linkTraining_noLane (noLane : t.lanes &&& (getSub s i).allowed = 0) :
    exec (.linkTraining port sub t) s = .next (trainingFailed true false i s) := by
  subst isSub
  refine congrArg _ ((if_neg (by simp [works, training])).trans ?_)
  exact if_pos noLane

variable (lanes : t.lanes &&& (getSub s i).allowed ≠ 0)
include lanes

theorem exec_linkTraining_adapter (adapter : t.farKind = 3) :
    exec (.linkTraining port sub t) s = .next (trainingFailed false true i s) := by
  subst isSub
  refine congrArg _ ((if_neg (by simp [works, training])).trans ((if_neg lanes).trans ((if_neg (by simp [adapter])).trans ?_)))
  exact if_pos (by simp [adapter])

/-- A sub-port that enters service: with the lanes that passed, what its far end reports, and its sequence state where a retrain keeps it
(R429 step 5). -/
def inService (t : Training) (now : Nat) (p : SubPort) : SubPort :=
  { (if p.keepSeq then p else freshSeq p) with
    state := .up, lanes := t.lanes &&& p.allowed, farKind := BitVec.ofNat 2 t.farKind, farNode := t.farNode, farBuf := t.buffers
    farBad := false, keepSeq := false, naks := 0, timeouts := 0, gapFailed := false, nakSent := false, flagged := 0
    ackSince := now, ackSent := now }

theorem exec_linkTraining_up (far : t.farKind = 1 ∨ t.farKind = 2)
    (width : t.farLanes = laneCount (subLanes (s.lnk.ports.getD port {}).split.toNat sub)) :
    exec (.linkTraining port sub t) s = .next (sendWaiting i (replayFrom i 0 (setSub i (inService t s.now (getSub s i)) s))) := by
  subst isSub
  refine congrArg _ ((if_neg (by simp [works, training])).trans ((if_neg lanes).trans ((if_neg (by omega)).trans ?_)))
  refine if_neg ?_
  rcases far with device | switch
  · simp [device, width]
  · simp [switch, width]

end

/-- A training that fails leaves its sub-port down, with what it found of the far end, and the others as they were (R438, R443). -/
theorem getSub_trainingFailed {i : Nat} {s : State} (training : (getSub s i).state = .training) (record farBad : Bool) :
    (getSub (trainingFailed record farBad i s) i).state = .down ∧ (getSub (trainingFailed record farBad i s) i).farBad = farBad ∧
      ∀ j ≠ i, getSub (trainingFailed record farBad i s) j = getSub s j := by
  have inService : (getSub s i).state ≠ .down := by simp [training]
  have held := held_of_state inService
  cases kept : (getSub s i).keepSeq
  · have lnk : (trainingFailed record farBad i s).lnk =
        (setSub i { getSub s i with state := .down, lanes := 0, farBad := farBad } s).lnk := by
      unfold trainingFailed
      refine (congrArg State.lnk (if_neg (by simp [kept]))).trans ?_
      exact lnk_of_plant (plant_ite (plant_stampedIf (fun s t => plant_event ..) _) rfl)
    rw [getSub_congr lnk, getSub_setSub held]
    exact ⟨rfl, rfl, fun j other => getSub_setSub_other other _ s⟩
  · have failed : trainingFailed record farBad i s = setSub i { getSub (subLost i s) i with farBad := farBad } (subLost i s) := if_pos kept
    obtain ⟨down, others⟩ := getSub_subLost (s := s) (i := i)
    have held' : i < (subLost i s).lnk.subs.length := by rw [subLost_lnk inService, setSub_length]; exact held
    rw [failed, getSub_setSub held']
    exact ⟨down, rfl, fun j other => (getSub_setSub_other other _ _).trans (others j other)⟩

/-- A first training with no lane takes the sub-port down with a record. -/
theorem trainingFailed_noLane {i : Nat} {s : State} (run : Runs s) (first : (getSub s i).keepSeq = false) :
    trainingFailed true false i s = event (ticketNext s) 0x21 (linkLoc (i / 4) (i % 4) 0xFF) 0 2 0 0 []
      (ticked (setSub i { getSub s i with state := .down, lanes := 0, farBad := false } s)) := by
  unfold trainingFailed
  refine (if_neg (by simp [first])).trans ?_
  exact (if_pos rfl).trans (stampedIf_runs (s := setSub i { getSub s i with state := .down, lanes := 0, farBad := false } s) run _)

theorem replayFrom_nothing {s : State} {i : Nat} {q : SubPort} (held : i < s.lnk.subs.length) (unsent : q.replay = []) (k : Nat) :
    replayFrom i k (setSub i q s) = setSub i { q with ackSince := s.now } s := by
  unfold replayFrom
  rw [getSub_setSub held]
  dsimp only [setSub_now]
  rw [setSub_setSub, unsent, List.drop_nil]
  rfl

/-- A sub-port with nothing to replay and nothing waiting enters service with nothing sent. -/
theorem entersService {i : Nat} {s : State} {q : SubPort} (held : i < s.lnk.subs.length) (unsent : q.replay = []) (idle : q.waiting = []) :
    ∃ since stall, sendWaiting i (replayFrom i 0 (setSub i q s)) =
      setSub i { q with ackSince := s.now, stallSince := since, creditStall := stall } s := by
  rw [replayFrom_nothing held unsent]
  exact sendWaiting_idle (q := { q with ackSince := s.now }) held idle

theorem inService_unsent {p : SubPort} (unsent : p.replay = []) (t : Training) (now : Nat) : (inService t now p).replay = [] := by
  unfold inService
  split
  · exact unsent
  · rfl

theorem inService_idle {p : SubPort} (idle : p.waiting = []) (t : Training) (now : Nat) : (inService t now p).waiting = [] := by
  unfold inService
  split <;> exact idle

theorem inService_sequence (t : Training) (now : Nat) (p : SubPort) :
    (inService t now p).sendSeq = (if p.keepSeq then p.sendSeq else 0) ∧ (inService t now p).expect = (if p.keepSeq then p.expect else 0) := by
  unfold inService
  split <;> exact ⟨rfl, rfl⟩

/-! ### LNK_PORT_CMD (R456) -/

theorem portData_fields : ∀ op ∈ [1, 2, 3], ∀ (port : BitVec 4) (sub : BitVec 2), regBits (portData op port sub) 0 4 = port.toNat ∧
    regBits (portData op port sub) 4 2 = sub.toNat ∧ regBits (portData op port sub) 6 2 = op := by decide

section
variable {c : Cmd} {port : BitVec 4} {sub : BitVec 2} {s : State} (g : Granted c s) (low : port.toNat < 12)
include g low

theorem exec_retrain : exec (.retrain c port sub) s =
    .next (retrainCmd (4 * port.toNat + sub.toNat) (taken c rPortCmd (portData 1 port sub) s)) := by
  obtain ⟨isPort, isSub, isOp⟩ := portData_fields 1 (by simp) port sub
  refine congrArg _ ((mgmtWrite_granted g (by decide) (by decide) _ _).trans ?_)
  simp only [portCommand, isPort, isSub, isOp, Nat.not_le.2 low, if_false]

theorem exec_portReset : exec (.portReset c port sub) s =
    .next (resetCmd (4 * port.toNat + sub.toNat) (taken c rPortCmd (portData 2 port sub) s)) := by
  obtain ⟨isPort, isSub, isOp⟩ := portData_fields 2 (by simp) port sub
  refine congrArg _ ((mgmtWrite_granted g (by decide) (by decide) _ _).trans ?_)
  simp only [portCommand, isPort, isSub, isOp, Nat.not_le.2 low, if_false]

theorem exec_portDown : exec (.portDown c port sub) s =
    .next (subLost (4 * port.toNat + sub.toNat) (taken c rPortCmd (portData 3 port sub) s)) := by
  obtain ⟨isPort, isSub, isOp⟩ := portData_fields 3 (by simp) port sub
  refine congrArg _ ((mgmtWrite_granted g (by decide) (by decide) _ _).trans ?_)
  simp only [portCommand, isPort, isSub, isOp, Nat.not_le.2 low, if_false]

end

theorem startTraining_lanes {lanes : Byte} (some : lanes ≠ 0) (keep : Bool) (i : Nat) (s : State) : startTraining keep lanes i s =
    setSub i { getSub s i with state := .training, began := s.now, keepSeq := keep, allowed := lanes, after := false, farBad := false } s :=
  if_neg some

/-- The registers of a sub-port that PORT_RESET resets, before it trains. -/
def SubPort.reset (p : SubPort) (falls : Bool) : SubPort :=
  { freshSeq p with dropped := 0, lanes := 0, crcFail := 0, replayOk := 0, laneDropped := 0, portDown := if falls then 1 else 0 }

theorem reset_portDown (p : SubPort) (state : SubState) :
    (SubPort.reset p (state != .down)).portDown = if state = .down then 0 else 1 := by cases state <;> rfl

section
variable {i : Nat} {s : State} (lanes : cfgLanes s i ≠ 0)
include lanes

theorem retrainCmd_trains (state : (getSub s i).state = .up ∨ (getSub s i).state = .down) (held : i < s.lnk.subs.length) :
    retrainCmd i s = setSub i { getSub s i with
      dropped := 0, state := .training, began := s.now, keepSeq := (getSub s i).state == .up, allowed := cfgLanes s i, after := false
      farBad := false } s := by
  have steady : (getSub s i).state ≠ .laneChg := by rcases state with up | down <;> simp [*]
  have keep : ((getSub s i).state == .up || ((getSub s i).state == .training && (getSub s i).keepSeq)) = ((getSub s i).state == .up) := by
    rcases state with up | down <;> simp [*]
  unfold retrainCmd
  refine (if_neg steady).trans ((if_neg lanes).trans ?_)
  rw [keep, startTraining_lanes lanes, getSub_setSub held, setSub_setSub]
  rfl

theorem getSub_resetCmd (held : i < s.lnk.subs.length) :
    (∃ p t, getSub (resetCmd i s) i = { SubPort.reset p ((getSub s i).state != .down) with
      state := .training, began := t, keepSeq := false, allowed := cfgLanes s i, after := false, farBad := false }) ∧
    ∀ j ≠ i, getSub (resetCmd i s) j = getSub s j := by
  have kept : (subLost i s).lnk.ports = s.lnk.ports ∧ (subLost i s).lnk.subs.length = s.lnk.subs.length := by
    by_cases down : (getSub s i).state = .down
    · rw [subLost_down down]
      exact ⟨rfl, rfl⟩
    · rw [subLost_lnk down]
      exact ⟨rfl, setSub_length ..⟩
  have held' : i < (subLost i s).lnk.subs.length := kept.2 ▸ held
  have same : cfgLanes (subLost i s) i = cfgLanes s i := by simp only [cfgLanes, kept.1]
  have trains : resetCmd i s = setSub i { SubPort.reset (getSub (subLost i s) i) ((getSub s i).state != .down) with
      state := .training, began := (subLost i s).now, keepSeq := false, allowed := cfgLanes s i, after := false, farBad := false }
      (subLost i s) := by
    unfold resetCmd
    dsimp only
    rw [same, startTraining_lanes lanes, getSub_setSub held', setSub_setSub]
    cases (getSub s i).state != .down <;> rfl
  rw [trains, getSub_setSub held']
  exact ⟨⟨_, _, rfl⟩, fun j other => (getSub_setSub_other other _ _).trans ((getSub_subLost (s := s) (i := i)).2 j other)⟩

end

theorem exec_unreachable {s : State} (run : serving s = true) : exec .unreachable s = .next { s with
    out := s.out.filter fun x => !(past s x.1 3000000 && (route s x.2.dst).isNone)
    lnk.unreachable := satAdd s.lnk.unreachable (s.out.filter fun x => past s x.1 3000000 && (route s x.2.dst).isNone).length } :=
  congrArg _ (if_pos (by simp [(serving_awake run).1]))

/-- Settles O50: a training ends in service or fails (R429), LNK_PORT_CMD does to its one sub-port what R456 says, and UNREACHABLE drops
what has waited. -/
theorem subPortsTrainAndGoDown : Obligations.SubPortsTrainAndGoDown := by
  refine ⟨fun port sub i t s run isSub works idle unsent => ⟨fun other => ⟨exec_linkTraining_idle isSub t other,
    exec_trainingTimeout_idle isSub other⟩, fun training => ⟨fun lanes far width => ?_, fun lanes adapter => ?_, fun noLane first => ?_,
    fun early => exec_trainingTimeout_early isSub early, fun late => ?_⟩⟩, fun c port sub i s g low whole _ isSub idle unsent => ?_,
    fun s run => exec_unreachable run.1⟩
  · have held := held_of_state (s := s) (i := i) (by simp [training])
    obtain ⟨since, stall, enters⟩ := entersService held (inService_unsent unsent t s.now) (inService_idle idle t s.now)
    obtain ⟨sendSeq, expect⟩ := inService_sequence t s.now (getSub s i)
    refine ⟨_, exec_linkTraining_up isSub works training t lanes far width, ?_⟩
    rw [enters, getSub_setSub held]
    exact ⟨rfl, rfl, rfl, rfl, rfl, rfl, sendSeq, expect, fun j other => getSub_setSub_other other _ s⟩
  · exact ⟨_, exec_linkTraining_adapter isSub works training t lanes adapter, getSub_trainingFailed training false true⟩
  · rw [exec_linkTraining_noLane isSub works training t noLane, trainingFailed_noLane run first]
  · obtain ⟨down, -, others⟩ := getSub_trainingFailed training false false
    exact ⟨_, exec_trainingTimeout_late isSub works training late, down, others⟩
  · have held : i < s.lnk.subs.length := by omega
    subst isSub
    refine ⟨fun lanes => ⟨fun state => ?_, ?_⟩, ?_⟩
    · have trains := retrainCmd_trains (s := taken c rPortCmd (portData 1 port sub) s) lanes state held
      refine ⟨_, exec_retrain g low, ?_⟩
      rw [trains, getSub_setSub (s := taken c rPortCmd (portData 1 port sub) s) held]
      exact ⟨rfl, rfl, rfl, fun up => beq_iff_eq.2 up, rfl, rfl, fun j other => getSub_setSub_other other _ _⟩
    · obtain ⟨⟨p, t, trains⟩, others⟩ := getSub_resetCmd (s := taken c rPortCmd (portData 2 port sub) s) lanes held
      refine ⟨_, exec_portReset g low, ?_⟩
      rw [trains]
      exact ⟨rfl, rfl, rfl, rfl, rfl, rfl, reset_portDown p _, others⟩
    · obtain ⟨down, others⟩ := getSub_subLost (s := taken c rPortCmd (portData 3 port sub) s) (i := 4 * port.toNat + sub.toNat)
      refine ⟨_, exec_portDown g low, down, ?_, others⟩
      split
      · next already => rw [subLost_down (s := taken c rPortCmd (portData 3 port sub) s) already]; rfl
      · next inService => rw [getSub_fallen (s := taken c rPortCmd (portData 3 port sub) s) inService]; rfl

end Sys2Proof.Machine

/-! SUPPORT. Flits: what a sub-port in service does with each flit that arrives and at each of its timers (17 R430 to R437). -/

namespace Sys2Proof.Machine

/-! ### Acknowledgements and credits of an arriving flit (R433, R435) -/

/-- A sub-port after the `ack_seq` and credits of a flit. -/
def SubPort.acked (p : SubPort) (f : List Byte) (now : Nat) : SubPort :=
  let n := (BitVec.ofNat 16 (u16 f 6) - oldestSeq p).toNat
  let q := { p with farCount := (List.range 4).map fun v => BitVec.ofNat 16 (u16 f (8 + 2 * v)) }
  if 0 < n && n ≤ p.replay.length then
    { q with replay := p.replay.drop n, ackSince := now, naks := 0, timeouts := 0,
             replayOk := if decide (0 < p.naks) || decide (0 < p.timeouts) then satInc p.replayOk else p.replayOk }
  else q

theorem takeAck_eq (i : Nat) (f : List Byte) (s : State) : takeAck i f s = setSub i ((getSub s i).acked f s.now) s := by
  unfold takeAck SubPort.acked
  dsimp only
  split <;> rfl

/-- What an `ack_seq` leaves: all but the replay buffer, its counts and the far end's credits. -/
theorem acked_frame (p : SubPort) (f : List Byte) (now : Nat) : p.acked f now =
    { p with farCount := (p.acked f now).farCount, replay := (p.acked f now).replay, ackSince := (p.acked f now).ackSince
             naks := (p.acked f now).naks, timeouts := (p.acked f now).timeouts, replayOk := (p.acked f now).replayOk } := by
  unfold SubPort.acked
  dsimp only
  split <;> rfl

/-- An `ack_seq` that names the oldest flit acknowledges nothing. -/
theorem acked_none {p : SubPort} {f : List Byte} (oldest : u16 f 6 = (oldestSeq p).toNat) (now : Nat) : p.acked f now =
    { p with farCount := (p.acked f now).farCount } := by
  have zero : (BitVec.ofNat 16 (u16 f 6) - oldestSeq p).toNat = 0 := by simp [oldest]
  unfold SubPort.acked
  simp only [zero, Nat.lt_irrefl, decide_false, Bool.false_and, Bool.false_eq_true, if_false]

/-- An `ack_seq` of `n` more flits frees them, and ends a replay. -/
theorem acked_frees {p : SubPort} {f : List Byte} {n : Nat} (count : (BitVec.ofNat 16 (u16 f 6) - oldestSeq p).toNat = n) (some : 0 < n)
    (sent : n ≤ p.replay.length) (now : Nat) : (p.acked f now).replay = p.replay.drop n ∧ (p.acked f now).naks = 0 ∧
      (p.acked f now).timeouts = 0 ∧
      (p.acked f now).replayOk = if p.naks = 0 ∧ p.timeouts = 0 then p.replayOk else satInc p.replayOk := by
  have frees : (decide (0 < n) && decide (n ≤ p.replay.length)) = true := by simp [some, sent]
  have fixed : (if (decide (0 < p.naks) || decide (0 < p.timeouts)) = true then satInc p.replayOk else p.replayOk) =
      if p.naks = 0 ∧ p.timeouts = 0 then p.replayOk else satInc p.replayOk := by
    by_cases clean : p.naks = 0 ∧ p.timeouts = 0
    · simp [clean]
    · rw [if_neg clean, if_pos (by simp; omega)]
  unfold SubPort.acked
  simp only [count, frees, if_true, fixed, and_self]

section
variable (p : SubPort) (f : List Byte) (now : Nat)

@[simp] theorem acked_state : (p.acked f now).state = p.state := by rw [acked_frame]
@[simp] theorem acked_lanes : (p.acked f now).lanes = p.lanes := by rw [acked_frame]
@[simp] theorem acked_expect : (p.acked f now).expect = p.expect := by rw [acked_frame]
@[simp] theorem acked_waiting : (p.acked f now).waiting = p.waiting := by rw [acked_frame]
@[simp] theorem acked_recvCount : (p.acked f now).recvCount = p.recvCount := by rw [acked_frame]
@[simp] theorem acked_nakSent : (p.acked f now).nakSent = p.nakSent := by rw [acked_frame]
@[simp] theorem acked_portDown : (p.acked f now).portDown = p.portDown := by rw [acked_frame]

end

/-- A flit's `ack_seq` and credits are all that its bytes take of the sub-port that sends it. -/
theorem flitBytes_congr {p q : SubPort} (expect : q.expect = p.expect) (counts : q.recvCount = p.recvCount) : flitBytes q = flitBytes p := by
  funext kind ctl plen seq payload
  simp only [flitBytes, expect, counts]

/-! ### The flit that is expected (R430, R435) -/

/-- A sub-port that has taken the flit it expects. -/
def SubPort.accepting (p : SubPort) (f : List Byte) : SubPort :=
  let v := u8 f 1 % 4
  let part := slice f 0x10 (u8 f 2)
  { p with expect := p.expect + 1, nakSent := false, gapFailed := false, flagged := 0
           recvCount := p.recvCount.set v (p.recvCount.getD v 0 + 1)
           arriving := p.arriving.set v (if (u8 f 1).testBit 3 then []
             else if (u8 f 1).testBit 2 then part else p.arriving.getD v [] ++ part) }

/-- The transaction that a flit ends is delivered. -/
def deliversTxn (p : SubPort) (f : List Byte) (s : State) : State :=
  let v := u8 f 1 % 4
  let part := slice f 0x10 (u8 f 2)
  if (u8 f 1).testBit 3 then deliverTxn v (if (u8 f 1).testBit 2 then part else p.arriving.getD v [] ++ part) s else s

theorem deliverTxn_setSub (v : Nat) (b : List Byte) (i : Nat) (p : SubPort) (s : State) :
    deliverTxn v b (setSub i p s) = setSub i p (deliverTxn v b s) := by
  unfold deliverTxn
  dsimp only
  show (if _ then _ else if (s.lnk.node == _ || _ || _) = true then _ else _) = _
  (repeat' split) <;> rfl

theorem acceptFlit_eq {i : Nat} {s : State} (held : i < s.lnk.subs.length) (f : List Byte) (p : SubPort) :
    acceptFlit i f (setSub i p s) = setSub i (p.accepting f) (deliversTxn p f s) := by
  unfold acceptFlit
  rw [getSub_setSub held]
  dsimp only
  rw [setSub_setSub]
  unfold SubPort.accepting deliversTxn
  dsimp only
  split
  · rw [deliverTxn_setSub]
  · rfl

theorem deliversTxn_lnk (p : SubPort) (f : List Byte) (s : State) :
    (deliversTxn p f s).lnk.subs = s.lnk.subs ∧ (deliversTxn p f s).lnk.wire = s.lnk.wire := by
  unfold deliversTxn deliverTxn
  dsimp only
  (repeat' split) <;> exact ⟨rfl, rfl⟩

theorem deliversTxn_part (p : SubPort) {f : List Byte} (s : State) (part : (u8 f 1).testBit 3 = false) : deliversTxn p f s = s :=
  if_neg (by simp [part])

/-- A flit that is a whole transaction, which keeps its rules and is for this device, delivers it. -/
theorem deliversTxn_whole (p : SubPort) {f : List Byte} {s : State} (ends : (u8 f 1).testBit 3 = true) (begins : (u8 f 1).testBit 2 = true)
    (ok : txnOk (u8 f 1 % 4) (slice f 0x10 (u8 f 2)) = true)
    (here : s.lnk.node = some (BitVec.ofNat 16 (u16 (slice f 0x10 (u8 f 2)) 0))) :
    deliversTxn p f s = { s with lnk.delivered := s.lnk.delivered ++ [slice f 0x10 (u8 f 2)] } := by
  simp only [deliversTxn, ends, begins, if_true, deliverTxn, ok, here, Bool.not_true, Bool.false_eq_true, if_false, beq_self_eq_true,
    Bool.true_or]

/-! ### Flits that arrive whole (R431, R435, R436) -/

section
variable {port sub i : Nat} {f : List Byte} {s : State} {p : SubPort} (isSub : i = 4 * port + sub) (works : linkOn s i = true)
  (isP : getSub s i = p) (up : p.state = .up)

section
include works isP up

theorem takesFlits : ¬ (!linkOn s i || (getSub s i).state != .up && (getSub s i).state != .laneChg) = true := by simp [works, isP, up]

omit works in
theorem sub_held : i < s.lnk.subs.length := held_of_state (by simp [isP, up])

end

include isSub works isP up

section
variable (good : flitGood f = true)
include good

theorem exec_dataFlit_good (fl : Byte) (data : u8 f 0 = 1) : exec (.dataFlit port sub f fl) s = .next (sendWaiting i
    (if u16 f 4 = (p.acked f s.now).expect.toNat then acceptFlit i f (setSub i (p.acked f s.now) s)
    else if (p.acked f s.now).nakSent then setSub i (p.acked f s.now) s
    else emit i 2 0 0 (p.acked f s.now).expect [] (setSub i { p.acked f s.now with nakSent := true } s))) := by
  have held := sub_held isP up
  have takes := takesFlits works isP up
  subst isSub
  refine congrArg _ ((if_neg takes).trans ((if_neg (by simp [good])).trans ((if_neg (by simp [isP, up])).trans ?_)))
  rw [takeAck_eq, isP]
  simp only [getSub_setSub held, data, bne_self_eq_false, Bool.false_eq_true, if_false, setSub_setSub]

theorem exec_nak_good (fl : Byte) (nak : u8 f 0 = 2)
    (oldest : u16 f 6 = (oldestSeq p).toNat) (sent : (BitVec.ofNat 16 (u16 f 4) - oldestSeq p).toNat < p.replay.length) :
    exec (.nak port sub f fl) s = .next (sendWaiting i (sendFailed true (BitVec.ofNat 16 (u16 f 4) - oldestSeq p).toNat i
      (setSub i (p.acked f s.now) s))) := by
  have held := sub_held isP up
  have takes := takesFlits works isP up
  have named : oldestSeq (p.acked f s.now) = oldestSeq p ∧ (p.acked f s.now).replay = p.replay := by
    rw [acked_none oldest]; exact ⟨rfl, rfl⟩
  subst isSub
  refine congrArg _ ((if_neg takes).trans ((if_neg (by simp [good])).trans ((if_neg (by simp [isP, up])).trans ?_)))
  rw [takeAck_eq, isP]
  simp only [getSub_setSub held, named, nak, sent, decide_true, Bool.and_self, if_true]

theorem exec_laneChg_good (lane : u8 f 0 = 3) : exec (.laneChg port sub f) s = .next
    (if p.lanes &&& BitVec.ofNat 8 (u8 f 0x10) = 0 then subLost i (setSub i (p.acked f s.now) s)
    else restripe (BitVec.ofNat 8 (u8 f 0x10)) 2 i (setSub i (p.acked f s.now) s)) := by
  have held := sub_held isP up
  have takes := takesFlits works isP up
  subst isSub
  refine congrArg _ ((if_neg takes).trans ((if_neg (by simp [good])).trans ?_))
  rw [takeAck_eq, isP]
  simp only [getSub_setSub held, lane, bne_self_eq_false, Bool.false_eq_true, if_false, acked_lanes]

theorem exec_idle_good : exec (.idle port sub f) s = .next (sendWaiting i (setSub i (p.acked f s.now) s)) := by
  subst isSub
  refine congrArg _ ((if_neg (by simp [works, isP, up])).trans ((if_neg (by simp [good])).trans ?_))
  rw [takeAck_eq, isP]

end

theorem exec_badFlit (bad : flitGood f = false) (fl : Byte) :
    ∀ cmd ∈ [Instr.dataFlit port sub f fl, .nak port sub f fl], exec cmd s = .next (badFlit fl i s) := by
  have takes := takesFlits works isP up
  subst isSub
  intro cmd isCmd
  obtain rfl | rfl : cmd = .dataFlit port sub f fl ∨ cmd = .nak port sub f fl := by simpa using isCmd
  all_goals exact congrArg _ ((if_neg takes).trans (if_pos (by simp [bad])))

end

/-- A sub-port that trains again at its present lanes, with the sequence state kept. -/
def SubPort.retraining (p : SubPort) (now : Nat) : SubPort :=
  { p with state := .training, began := now, keepSeq := true, allowed := p.lanes, after := false, farBad := false }

/-! ### Flits that answer (R430, R436) -/

section
variable {i : Nat} {s : State} {p : SubPort} (held : i < s.lnk.subs.length)
include held

theorem emit_setSub (kind ctl plen : Nat) (seq : W16) (payload : List Byte) :
    emit i kind ctl plen seq payload (setSub i p s) = setSub i { p with ackSent := s.now, ackedTo := p.expect }
      { s with lnk.wire := s.lnk.wire ++ [(i, flitBytes p kind ctl plen seq payload)] } := by
  unfold emit
  rw [getSub_setSub held]
  exact setSub_setSub i p _ { s with lnk.wire := s.lnk.wire ++ [(i, flitBytes p kind ctl plen seq payload)] }

/-- The flit that is expected is taken, and with nothing waiting none leaves. -/
theorem sendWaiting_accepts (f : List Byte) (idle : p.waiting = []) : ∃ since stall,
    sendWaiting i (acceptFlit i f (setSub i p s)) =
      setSub i { p.accepting f with stallSince := since, creditStall := stall } (deliversTxn p f s) := by
  rw [acceptFlit_eq held]
  exact sendWaiting_idle (by rw [(deliversTxn_lnk p f s).1]; exact held) idle

/-- The first flit of a gap is answered with a NAK of the flit expected, and a further one with nothing. -/
theorem sendWaiting_gap (idle : p.waiting = []) : ∃ q, q.expect = p.expect ∧ q.nakSent = true ∧
    sendWaiting i (if p.nakSent then setSub i p s else emit i 2 0 0 p.expect [] (setSub i { p with nakSent := true } s)) =
      setSub i q { s with lnk.wire := s.lnk.wire ++ if p.nakSent then [] else [(i, flitBytes p 2 0 0 p.expect [])] } := by
  cases sent : p.nakSent
  · obtain ⟨since, stall, noted⟩ := sendWaiting_idle (q := { p with nakSent := true, ackSent := s.now, ackedTo := p.expect })
      (s := { s with lnk.wire := s.lnk.wire ++ [(i, flitBytes p 2 0 0 p.expect [])] }) held idle
    refine ⟨{ p with nakSent := true, ackSent := s.now, ackedTo := p.expect, stallSince := since, creditStall := stall }, rfl, rfl, ?_⟩
    rw [if_neg Bool.false_ne_true, if_neg Bool.false_ne_true, emit_setSub held,
      flitBytes_congr (p := p) (q := { p with nakSent := true }) rfl rfl]
    exact noted
  · obtain ⟨since, stall, noted⟩ := sendWaiting_idle (q := p) held idle
    refine ⟨{ p with stallSince := since, creditStall := stall }, rfl, sent, ?_⟩
    rw [if_pos rfl, if_pos rfl, List.append_nil]
    exact noted

/-! ### Failures of the sender (R436, R437) -/

theorem retrainSub_setSub (lanes : p.lanes ≠ 0) : retrainSub i (setSub i p s) = setSub i (p.retraining s.now) s := by
  unfold retrainSub
  rw [getSub_setSub held, startTraining_lanes lanes, getSub_setSub held, setSub_setSub]
  rfl

/-- A sub-port whose NAK or timeout has been counted. -/
def SubPort.failed (p : SubPort) (nak : Bool) (now : Nat) : SubPort :=
  if nak then { p with naks := p.naks + 1 } else { p with timeouts := p.timeouts + 1, ackSince := now }

/-- A failure counts, and then the sender retrains, replays or waits. -/
theorem sendFailed_setSub (nak : Bool) (k : Nat) : sendFailed nak k i (setSub i p s) =
    if 2 ≤ (p.failed nak s.now).naks ∨ 2 ≤ (p.failed nak s.now).timeouts then retrainSub i (setSub i (p.failed nak s.now) s)
    else if (p.failed nak s.now).naks + (p.failed nak s.now).timeouts = 1 then replayFrom i k (setSub i (p.failed nak s.now) s)
    else setSub i (p.failed nak s.now) s := by
  have counted : sendFailed nak k i (setSub i p s) =
      let q := (getSub (setSub i p s) i).failed nak s.now
      let u := setSub i q (setSub i p s)
      if decide (2 ≤ q.naks) || decide (2 ≤ q.timeouts) then retrainSub i u
      else if q.naks + q.timeouts = 1 then replayFrom i k u else u := rfl
  rw [counted, getSub_setSub held]
  simp only [setSub_setSub, Bool.or_eq_true, decide_eq_true_eq]

/-- The first failure replays, in order, what is unacknowledged, and keeps it. -/
theorem sendFailed_first {nak : Bool} (noNak : p.naks = 0) (noTimeout : p.timeouts = 0) (k : Nat) :
    ∃ a b c, sendFailed nak k i (setSub i p s) = setSub i { p.failed nak s.now with ackSince := c, ackSent := a, ackedTo := b }
      { s with lnk.wire := s.lnk.wire ++ (p.replay.drop k).mapIdx fun j x => resent i p (oldestSeq p + BitVec.ofNat 16 (k + j)) x } := by
  have flits : ((p.failed nak s.now).replay.drop k).mapIdx (fun j x =>
      resent i (p.failed nak s.now) (oldestSeq (p.failed nak s.now) + BitVec.ofNat 16 (k + j)) x) =
      (p.replay.drop k).mapIdx fun j x => resent i p (oldestSeq p + BitVec.ofNat 16 (k + j)) x := by cases nak <;> rfl
  have first : ¬ (2 ≤ (p.failed nak s.now).naks ∨ 2 ≤ (p.failed nak s.now).timeouts) ∧
      (p.failed nak s.now).naks + (p.failed nak s.now).timeouts = 1 := by cases nak <;> simp [SubPort.failed, noNak, noTimeout]
  obtain ⟨a, b, sent⟩ := replayFrom_sends (p := p.failed nak s.now) held k
  refine ⟨a, b, s.now, ?_⟩
  rw [← flits]
  exact (sendFailed_setSub held nak k).trans ((if_neg first.1).trans ((if_pos first.2).trans sent))

/-- The second failure of its kind retrains, with the sequence state kept. -/
theorem sendFailed_second {nak : Bool} (lanes : p.lanes ≠ 0) (second : if nak then p.naks = 1 else p.timeouts = 1) (k : Nat) :
    sendFailed nak k i (setSub i p s) = setSub i ((p.failed nak s.now).retraining s.now) s := by
  have twice : 2 ≤ (p.failed nak s.now).naks ∨ 2 ≤ (p.failed nak s.now).timeouts := by
    cases nak <;> simp_all [SubPort.failed]
  have same : (p.failed nak s.now).lanes = p.lanes := by cases nak <;> rfl
  exact (sendFailed_setSub held nak k).trans ((if_pos twice).trans (retrainSub_setSub held (same ▸ lanes)))

/-! ### Failures of the receiver (R431, R436, R437) -/

omit held in
theorem getSub_emit (held : i < s.lnk.subs.length) (kind ctl plen : Nat) (seq : W16) (payload : List Byte) :
    getSub (emit i kind ctl plen seq payload s) i = { getSub s i with ackSent := s.now, ackedTo := (getSub s i).expect } :=
  getSub_setSub (s := { s with lnk.wire := s.lnk.wire ++ [(i, flitBytes (getSub s i) kind ctl plen seq payload)] }) held _

/-- A sub-port that has dropped the lanes outside a mask. -/
def SubPort.restriped (p : SubPort) (mask : Byte) (now : Nat) : SubPort :=
  { p with state := .laneChg, began := now, lanes := p.lanes &&& mask, dropped := p.dropped ||| p.lanes &&& ~~~mask
           laneDropped := satAdd p.laneDropped ((List.range 8).filter (p.lanes &&& ~~~mask).getLsbD).length
           gapFailed := false, flagged := 0, nakSent := false, naks := 0, timeouts := 0 }

/-- The records of the lanes that leave change no sub-port. -/
theorem restripe_lnk (mask : Byte) (attempts : Nat) :
    (restripe mask attempts i (setSub i p s)).lnk = (setSub i (p.restriped mask s.now) s).lnk := by
  refine (lnk_of_plant (foldl_leaves plant (fun s l => plant_stampedIf (fun s t => plant_event ..) s) _ _)).trans ?_
  rw [getSub_setSub held, setSub_setSub]
  rfl

theorem getSub_restripe (mask : Byte) (attempts : Nat) :
    getSub (restripe mask attempts i (setSub i p s)) i = p.restriped mask s.now :=
  (congrFun (getSub_congr (restripe_lnk held mask attempts)) i).trans (getSub_setSub held _)

/-- Lanes flagged at both failures of a gap leave, where one is left. -/
theorem lastingFault_sheds {fl : Byte} (bad : p.flagged &&& fl &&& p.lanes ≠ 0) (left : p.lanes &&& ~~~(p.flagged &&& fl &&& p.lanes) ≠ 0) :
    ∃ a b, getSub (lastingFault fl i (setSub i p s)) i =
      { p.restriped (~~~(p.flagged &&& fl &&& p.lanes)) s.now with ackSent := a, ackedTo := b } := by
  have sheds : lastingFault fl i (setSub i p s) = emit i 3 0 0 0 [p.lanes &&& ~~~(p.flagged &&& fl &&& p.lanes)]
      (restripe (~~~(p.flagged &&& fl &&& p.lanes)) 2 i (setSub i p s)) := by
    unfold lastingFault
    rw [getSub_setSub held]
    exact (if_neg bad).trans (if_neg left)
  have still : i < (restripe (~~~(p.flagged &&& fl &&& p.lanes)) 2 i (setSub i p s)).lnk.subs.length := by
    rw [restripe_lnk held, setSub_length]; exact held
  rw [sheds, getSub_emit still, getSub_restripe held]
  exact ⟨_, _, rfl⟩

/-- Where no lane was flagged both times, the sub-port retrains. -/
theorem lastingFault_retrains {fl : Byte} (clean : p.flagged &&& fl &&& p.lanes = 0) (lanes : p.lanes ≠ 0) :
    lastingFault fl i (setSub i p s) = setSub i (p.retraining s.now) s := by
  refine Eq.trans ?_ (retrainSub_setSub held lanes)
  unfold lastingFault
  rw [getSub_setSub held]
  exact if_pos clean

end

section
variable {i : Nat} {s : State} {p : SubPort} (isP : getSub s i = p) (up : p.state = .up)
include isP up

theorem badFlit_up (fl : Byte) : badFlit fl i s =
    if p.gapFailed then lastingFault fl i (setSub i { p with crcFail := satInc p.crcFail } s)
    else if p.nakSent then setSub i { p with crcFail := satInc p.crcFail, gapFailed := true, flagged := fl, nakSent := true } s
    else emit i 2 0 0 p.expect [] (setSub i { p with crcFail := satInc p.crcFail, gapFailed := true, flagged := fl, nakSent := true } s) := by
  have passed : p.state ≠ .laneChg := by simp [up]
  unfold badFlit
  dsimp only
  rw [isP, getSub_setSub (sub_held isP up)]
  simp only [passed, if_false, setSub_setSub]

/-- The first failure of a gap is answered with one NAK. -/
theorem badFlit_first (first : p.gapFailed = false) (fl : Byte) : ∃ a b, badFlit fl i s =
    setSub i { p with crcFail := satInc p.crcFail, gapFailed := true, flagged := fl, nakSent := true, ackSent := a, ackedTo := b }
      { s with lnk.wire := s.lnk.wire ++ if p.nakSent then [] else [(i, flitBytes p 2 0 0 p.expect [])] } := by
  rw [badFlit_up isP up fl, first, if_neg Bool.false_ne_true]
  cases p.nakSent
  · exact ⟨_, _, emit_setSub (sub_held isP up) ..⟩
  · exact ⟨p.ackSent, p.ackedTo, by rw [if_pos rfl, if_pos rfl, List.append_nil]⟩

/-- The second failure of a gap is lasting. -/
theorem badFlit_second (second : p.gapFailed = true) (fl : Byte) :
    badFlit fl i s = lastingFault fl i (setSub i { p with crcFail := satInc p.crcFail } s) :=
  (badFlit_up isP up fl).trans (if_pos second)

end

/-! ### Timers (R434 to R436) -/

section
variable {port sub i : Nat} {s : State} {p : SubPort} (isSub : i = 4 * port + sub) (works : linkOn s i = true)
  (isP : getSub s i = p) (up : p.state = .up)
include isSub isP

theorem exec_replayTimeout_idle (idle : p.replay = [] ∨ past s p.ackSince 4000 = false) :
    exec (.replayTimeout port sub) s = .next s := by
  subst isSub
  exact congrArg _ (if_neg (by rw [isP]; cases idle with | _ idle => simp [idle]))

theorem exec_ackTimer_idle (idle : p.ackedTo = p.expect ∨ past s p.ackSent 200 = false) : exec (.ackTimer port sub) s = .next s := by
  subst isSub
  exact congrArg _ (if_neg (by rw [isP]; cases idle with | _ idle => simp [idle]))

theorem exec_creditStall_early {vc : Nat} (early : stalledFor p vc 10000000 s = false) : exec (.creditStall port sub vc) s = .next s := by
  subst isSub
  exact congrArg _ (if_neg (by rw [isP]; simp [early]))

theorem exec_creditStallRetrain_early {vc : Nat} (early : stalledFor p vc 100000000 s = false) :
    exec (.creditStallRetrain port sub vc) s = .next s := by
  subst isSub
  exact congrArg _ (if_neg (by rw [isP]; simp [early]))

include works up

theorem exec_replayTimeout_late (owed : p.replay ≠ []) (late : past s p.ackSince 4000 = true) :
    exec (.replayTimeout port sub) s = .next (sendFailed false 0 i s) := by
  subst isSub
  exact congrArg _ (if_pos (by rw [isP]; simp [works, up, owed, late]))

theorem exec_ackTimer_late (owed : p.ackedTo ≠ p.expect) (late : past s p.ackSent 200 = true) :
    exec (.ackTimer port sub) s = .next (setSub i { p with ackSent := s.now, ackedTo := p.expect }
      { s with lnk.wire := s.lnk.wire ++ [(i, flitBytes p 0 0 0 0 [])] }) := by
  subst isSub
  refine congrArg _ ((if_pos (by rw [isP]; simp [works, up, owed, late])).trans ?_)
  unfold emit
  rw [isP]

theorem exec_creditStall_late {vc : Nat} (run : Runs s) (first : p.creditStall = false) (late : stalledFor p vc 10000000 s = true) :
    exec (.creditStall port sub vc) s = .next (event (ticketNext s) 0x22 (linkLoc port sub 0xFF) vc 1 0 0 []
      (ticked (setSub i { p with creditStall := true } s))) := by
  subst isSub
  refine congrArg _ ((if_pos (by rw [isP]; simp [works, up, first, late])).trans ?_)
  rw [isP]
  exact stampedIf_runs (s := setSub (4 * port + sub) { p with creditStall := true } s) run _

theorem exec_creditStallRetrain_late {vc : Nat} (late : stalledFor p vc 100000000 s = true) (lanes : p.lanes ≠ 0) :
    exec (.creditStallRetrain port sub vc) s = .next (setSub i { p with
      state := .training, began := s.now, keepSeq := true, allowed := p.lanes, after := false, farBad := false } s) := by
  subst isSub
  refine congrArg _ ((if_pos (by rw [isP]; simp [works, up, late])).trans ?_)
  unfold retrainSub
  rw [isP, startTraining_lanes lanes, isP]

end

/-! ### NAK (R436) -/

/-- A sub-port whose unacknowledged flits and failures stay as they were. -/
theorem acked_keeps {p : SubPort} {f : List Byte} (oldest : u16 f 6 = (oldestSeq p).toNat) (now : Nat) :
    (p.acked f now).replay = p.replay ∧ (p.acked f now).naks = p.naks ∧ (p.acked f now).timeouts = p.timeouts ∧
      oldestSeq (p.acked f now) = oldestSeq p := by
  rw [acked_none oldest]
  exact ⟨rfl, rfl, rfl, rfl⟩

theorem resent_acked (p : SubPort) (f : List Byte) (now i : Nat) : resent i (p.acked f now) = resent i p :=
  resent_congr (acked_expect ..) (acked_recvCount ..) i

/-- With nothing waiting, sending changes no more of a sub-port than its stalls. -/
theorem sendWaiting_quiet {s : State} {i : Nat} (held : i < s.lnk.subs.length) (idle : (getSub s i).waiting = []) :
    ∃ since stall, sendWaiting i s = setSub i { getSub s i with stallSince := since, creditStall := stall } s := by
  obtain ⟨since, stall, noted⟩ := sendWaiting_idle held idle
  rw [setSub_getSub] at noted
  exact ⟨since, stall, noted⟩

section
variable {port sub i : Nat} {f : List Byte} {s : State} {p : SubPort} (isSub : i = 4 * port + sub) (works : linkOn s i = true)
  (isP : getSub s i = p) (up : p.state = .up) (good : flitGood f = true) (nak : u8 f 0 = 2) (oldest : u16 f 6 = (oldestSeq p).toNat)
  (sent : (BitVec.ofNat 16 (u16 f 4) - oldestSeq p).toNat < p.replay.length) (idle : p.waiting = [])
include isSub works isP up good nak oldest sent idle

/-- The first NAK of an unacknowledged flit replays from the flit that it names. -/
theorem exec_nak_first (fl : Byte) (noNak : p.naks = 0) (noTimeout : p.timeouts = 0) :
    ∃ u, exec (.nak port sub f fl) s = .next u ∧ (getSub u i).replay = p.replay ∧ (getSub u i).naks = 1 ∧
      u.lnk.wire = s.lnk.wire ++ (p.replay.drop (BitVec.ofNat 16 (u16 f 4) - oldestSeq p).toNat).mapIdx fun j x =>
        resent i p (BitVec.ofNat 16 (u16 f 4) + BitVec.ofNat 16 j) x := by
  have held := sub_held isP up
  have named (j : Nat) : oldestSeq p + BitVec.ofNat 16 ((BitVec.ofNat 16 (u16 f 4) - oldestSeq p).toNat + j) =
      BitVec.ofNat 16 (u16 f 4) + BitVec.ofNat 16 j := by
    rw [BitVec.ofNat_add, BitVec.ofNat_toNat, BitVec.setWidth_eq, ← BitVec.add_assoc, BitVec.add_comm (oldestSeq p), BitVec.sub_add_cancel]
  refine ⟨_, exec_nak_good isSub works isP up good fl nak oldest sent, ?_⟩
  generalize (BitVec.ofNat 16 (u16 f 4) - oldestSeq p).toNat = k at named
  obtain ⟨sameReplay, sameNaks, sameTimeouts, sameOldest⟩ := acked_keeps oldest s.now
  obtain ⟨a, b, c, replayed⟩ := sendFailed_first (p := p.acked f s.now) (nak := true) held (sameNaks.trans noNak)
    (sameTimeouts.trans noTimeout) k
  simp only [resent_acked, sameOldest, named, sameReplay] at replayed
  obtain ⟨since, stall, noted⟩ := sendWaiting_quiet (i := i) (s := sendFailed true k i (setSub i (p.acked f s.now) s))
    (by rw [replayed, setSub_length]; exact held)
    (by rw [replayed, getSub_setSub]; exacts [(acked_waiting ..).trans idle, held])
  rw [noted, replayed, setSub_setSub, getSub_setSub, getSub_setSub]
  exacts [⟨sameReplay, congrArg (· + 1) (sameNaks.trans noNak), rfl⟩, held, held]

/-- The second retrains, and keeps the flits. -/
theorem exec_nak_second (fl : Byte) (second : p.naks = 1) (lanes : p.lanes ≠ 0) :
    ∃ u, exec (.nak port sub f fl) s = .next u ∧ (getSub u i).state = .training ∧ (getSub u i).keepSeq = true ∧
      (getSub u i).replay = p.replay ∧ u.lnk.wire = s.lnk.wire := by
  have held := sub_held isP up
  refine ⟨_, exec_nak_good isSub works isP up good fl nak oldest sent, ?_⟩
  obtain ⟨sameReplay, sameNaks, -, -⟩ := acked_keeps oldest s.now
  have retrains := sendFailed_second (p := p.acked f s.now) (nak := true) held ((acked_lanes ..).trans_ne lanes)
    (sameNaks.trans second) (BitVec.ofNat 16 (u16 f 4) - oldestSeq p).toNat
  obtain ⟨since, stall, noted⟩ := sendWaiting_idle (q := SubPort.retraining (SubPort.failed (p.acked f s.now) true s.now) s.now) held
    ((acked_waiting ..).trans idle)
  rw [retrains, noted, getSub_setSub held]
  exact ⟨rfl, rfl, sameReplay, rfl⟩

end

section
variable {port sub i : Nat} {f : List Byte} {fl : Byte} {s : State} {p : SubPort} (isSub : i = 4 * port + sub) (works : linkOn s i = true)
  (isP : getSub s i = p) (up : p.state = .up)
include isSub works isP up

section
variable (good : flitGood f = true) (idle : p.waiting = [])
include good

theorem exec_laneChg_leaves (lane : u8 f 0 = 3) (oldest : u16 f 6 = (oldestSeq p).toNat) :
    (p.lanes &&& BitVec.ofNat 8 (u8 f 0x10) ≠ 0 → ∃ u, exec (.laneChg port sub f) s = .next u ∧ (getSub u i).state = .laneChg ∧
      (getSub u i).lanes = p.lanes &&& BitVec.ofNat 8 (u8 f 0x10) ∧ (getSub u i).replay = p.replay) ∧
    (p.lanes &&& BitVec.ofNat 8 (u8 f 0x10) = 0 → ∃ u, exec (.laneChg port sub f) s = .next u ∧ (getSub u i).state = .down ∧
      (getSub u i).portDown = satInc p.portDown) := by
  have held := sub_held isP up
  have taken := exec_laneChg_good isSub works isP up good lane
  refine ⟨fun left => ⟨_, taken, ?_⟩, fun none => ⟨_, taken, ?_⟩⟩
  · rw [if_neg left, getSub_restripe held]
    exact ⟨rfl, congrArg (· &&& _) (acked_lanes ..), (acked_keeps oldest s.now).1⟩
  · have inService : (getSub (setSub i (p.acked f s.now) s) i).state ≠ .down := by
      rw [getSub_setSub held, acked_state, up]; exact SubState.noConfusion
    rw [if_pos none, getSub_fallen inService, getSub_setSub held]
    exact ⟨rfl, congrArg satInc (acked_portDown ..)⟩

include idle

/-- The flit that is expected is taken. -/
theorem exec_dataFlit_accepts (data : u8 f 0 = 1) (next : u16 f 4 = p.expect.toNat) : ∃ u, exec (.dataFlit port sub f fl) s = .next u ∧
    (getSub u i).expect = p.expect + 1 ∧ (getSub u i).nakSent = false ∧
    (getSub u i).recvCount = p.recvCount.set (u8 f 1 % 4) (p.recvCount.getD (u8 f 1 % 4) 0 + 1) ∧ u.lnk.wire = s.lnk.wire ∧
    u.lnk.delivered = (deliversTxn (p.acked f s.now) f s).lnk.delivered := by
  have held := sub_held isP up
  obtain ⟨subs, wire⟩ := deliversTxn_lnk (p.acked f s.now) f s
  obtain ⟨since, stall, accepted⟩ := sendWaiting_accepts (p := p.acked f s.now) held f ((acked_waiting ..).trans idle)
  refine ⟨_, exec_dataFlit_good isSub works isP up good fl data, ?_⟩
  rw [acked_expect, if_pos next, accepted, getSub_setSub (by rw [subs]; exact held)]
  exact ⟨congrArg (· + 1) (acked_expect ..), rfl, by rw [← acked_recvCount p f s.now]; rfl, wire, rfl⟩

/-- A flit that is not expected is discarded, and its gap is answered once. -/
theorem exec_dataFlit_gap (data : u8 f 0 = 1) (gap : u16 f 4 ≠ p.expect.toNat) : ∃ u, exec (.dataFlit port sub f fl) s = .next u ∧
    (getSub u i).expect = p.expect ∧ (getSub u i).nakSent = true ∧ u.lnk.delivered = s.lnk.delivered ∧
    u.lnk.wire = s.lnk.wire ++ if p.nakSent then [] else [(i, flitBytes p 2 0 0 p.expect [])] := by
  have held := sub_held isP up
  obtain ⟨q, expect, sent, answered⟩ := sendWaiting_gap (p := p.acked f s.now) held ((acked_waiting ..).trans idle)
  refine ⟨_, (exec_dataFlit_good isSub works isP up good fl data).trans
    (congrArg _ ((congrArg (sendWaiting i) (if_neg (by rwa [acked_expect]))).trans answered)), ?_⟩
  rw [acked_expect, acked_nakSent, flitBytes_congr (acked_expect ..) (acked_recvCount ..), getSub_setSub]
  exacts [⟨expect.trans (acked_expect ..), sent, rfl, rfl⟩, held]

/-- An IDLE flit frees the flits it acknowledges. -/
theorem exec_idle_frees {n : Nat} (count : (BitVec.ofNat 16 (u16 f 6) - oldestSeq p).toNat = n) (some : 0 < n)
    (sent : n ≤ p.replay.length) : ∃ u, exec (.idle port sub f) s = .next u ∧ (getSub u i).replay = p.replay.drop n ∧
      (getSub u i).naks = 0 ∧ (getSub u i).timeouts = 0 ∧
      (getSub u i).replayOk = if p.naks = 0 ∧ p.timeouts = 0 then p.replayOk else satInc p.replayOk := by
  have held := sub_held isP up
  obtain ⟨since, stall, noted⟩ := sendWaiting_idle (q := p.acked f s.now) held ((acked_waiting ..).trans idle)
  refine ⟨_, exec_idle_good isSub works isP up good, ?_⟩
  rw [noted, getSub_setSub held]
  exact acked_frees count some sent s.now

end

/-! ### Flits that fail their check, and REPLAY_TIMEOUT (R431, R436, R437) -/

theorem exec_badFlit_first (bad : flitGood f = false) (first : p.gapFailed = false) {cmd : Instr}
    (isCmd : cmd ∈ [Instr.dataFlit port sub f fl, .nak port sub f fl]) : ∃ u, exec cmd s = .next u ∧ (getSub u i).expect = p.expect ∧
      (getSub u i).crcFail = satInc p.crcFail ∧ (getSub u i).gapFailed = true ∧ (getSub u i).flagged = fl ∧
      u.lnk.wire = s.lnk.wire ++ if p.nakSent then [] else [(i, flitBytes p 2 0 0 p.expect [])] := by
  obtain ⟨a, b, answered⟩ := badFlit_first isP up first fl
  refine ⟨_, exec_badFlit isSub works isP up bad fl cmd isCmd, ?_⟩
  rw [answered, getSub_setSub]
  exacts [⟨rfl, rfl, rfl, rfl, rfl⟩, sub_held isP up]

theorem exec_badFlit_second (bad : flitGood f = false) (second : p.gapFailed = true) (lanes : p.lanes ≠ 0) {cmd : Instr}
    (isCmd : cmd ∈ [Instr.dataFlit port sub f fl, .nak port sub f fl]) :
    (p.flagged &&& fl &&& p.lanes = 0 → ∃ u, exec cmd s = .next u ∧ (getSub u i).state = .training ∧
      (getSub u i).keepSeq = true ∧ (getSub u i).expect = p.expect ∧ (getSub u i).replay = p.replay) ∧
    (p.flagged &&& fl &&& p.lanes ≠ 0 → p.lanes &&& ~~~(p.flagged &&& fl &&& p.lanes) ≠ 0 →
      ∃ u, exec cmd s = .next u ∧ (getSub u i).state = .laneChg ∧
        (getSub u i).lanes = p.lanes &&& ~~~(p.flagged &&& fl &&& p.lanes) ∧ (getSub u i).expect = p.expect) := by
  have held := sub_held isP up
  have failed := exec_badFlit isSub works isP up bad fl cmd isCmd
  refine ⟨fun clean => ⟨_, failed, ?_⟩, fun flagged left => ⟨_, failed, ?_⟩⟩
  · have retrains := lastingFault_retrains (p := { p with crcFail := satInc p.crcFail }) held clean lanes
    rw [badFlit_second isP up second fl, retrains, getSub_setSub held]
    exact ⟨rfl, rfl, rfl, rfl⟩
  · obtain ⟨a, b, sheds⟩ := lastingFault_sheds (p := { p with crcFail := satInc p.crcFail }) held flagged left
    rw [badFlit_second isP up second fl, sheds]
    exact ⟨rfl, rfl, rfl⟩

section
variable (owed : p.replay ≠ []) (late : past s p.ackSince 4000 = true)
include owed late

theorem exec_replayTimeout_first (noNak : p.naks = 0) (noTimeout : p.timeouts = 0) :
    ∃ u, exec (.replayTimeout port sub) s = .next u ∧ (getSub u i).replay = p.replay ∧
      u.lnk.wire = s.lnk.wire ++ p.replay.mapIdx fun j x => resent i p (oldestSeq p + BitVec.ofNat 16 j) x := by
  have held := sub_held isP up
  obtain ⟨a, b, c, replayed⟩ := sendFailed_first (nak := false) held noNak noTimeout 0
  simp only [List.drop_zero, Nat.zero_add] at replayed
  refine ⟨_, exec_replayTimeout_late isSub works isP up owed late, ?_⟩
  rw [← isP, setSub_getSub, isP] at replayed
  rw [replayed, getSub_setSub]
  exacts [⟨rfl, rfl⟩, held]

theorem exec_replayTimeout_second (lanes : p.lanes ≠ 0) (second : p.timeouts = 1) :
    ∃ u, exec (.replayTimeout port sub) s = .next u ∧ (getSub u i).state = .training ∧ (getSub u i).keepSeq = true ∧
      (getSub u i).replay = p.replay := by
  have held := sub_held isP up
  have retrains := sendFailed_second (nak := false) held lanes second 0
  rw [← isP, setSub_getSub, isP] at retrains
  refine ⟨_, exec_replayTimeout_late isSub works isP up owed late, ?_⟩
  rw [retrains, getSub_setSub held]
  exact ⟨rfl, rfl, rfl⟩

end
end

/-- Settles O51, by what a sub-port's state is after each flit and timer: the flit that is taken, the replay, the retrain, the lanes
that leave. -/
theorem flitsAreTakenInOrder : Obligations.FlitsAreTakenInOrder := by
  refine ⟨fun port sub i f fl p s _ isSub works isP up idle => ⟨fun good => ⟨fun data next => ?_, fun data gap => ?_, fun nak oldest sent lanes => ?_,
      fun lane oldest => exec_laneChg_leaves isSub works isP up good lane oldest,
      fun n count some sent => exec_idle_frees isSub works isP up good idle count some sent⟩,
      fun bad cmd isCmd => ⟨fun first => exec_badFlit_first isSub works isP up bad first isCmd,
        fun second lanes => exec_badFlit_second isSub works isP up bad second lanes isCmd⟩⟩,
    fun port sub i p s _ isSub works isP up => ⟨exec_replayTimeout_idle isSub isP, fun owed late lanes noNak =>
        ⟨exec_replayTimeout_first isSub works isP up owed late noNak, exec_replayTimeout_second isSub works isP up owed late lanes⟩,
      exec_ackTimer_idle isSub isP, exec_ackTimer_late isSub works isP up⟩,
    fun port sub vc i p s run isSub works isP up => ⟨exec_creditStall_late isSub works isP up run, exec_creditStall_early isSub isP,
      exec_creditStallRetrain_late isSub works isP up, exec_creditStallRetrain_early isSub isP⟩⟩
  · obtain ⟨u, ends, expect, nakSent, counts, wire, delivered⟩ := exec_dataFlit_accepts (fl := fl) isSub works isP up good idle data next
    refine ⟨u, ends, expect, nakSent, counts, wire, fun part => ?_, fun eop sop ok here => ?_⟩
    · rw [delivered, deliversTxn_part _ s part]
    · rw [delivered, deliversTxn_whole _ eop sop ok here]
  · exact exec_dataFlit_gap isSub works isP up good idle data gap
  · exact ⟨exec_nak_first isSub works isP up good nak oldest sent idle fl,
      fun second => exec_nak_second isSub works isP up good nak oldest sent idle fl second lanes⟩

end Sys2Proof.Machine

/-! SUPPORT. Members and enumeration: how a device finds, adds and changes the members it knows, and what the transactions of an
enumeration do (18 R464 to R467, R471). -/

namespace Sys2Proof.Machine

/-! ### Members by node (R464, R477) -/

/-- A change that leaves each member's node finds the changed member. -/
theorem findMember_map {f : Member → Member} (node : ∀ m, (f m).node = m.node) (s : State) (n : Node) :
    findMember { s with dom.members := s.dom.members.map f } n = (findMember s n).map f := by
  have same : (fun m : Member => m.node == n) ∘ f = fun m => m.node == n := by funext m; simp [node]
  simp only [findMember, List.find?_map, same]

theorem findMember_node {s : State} {n : Node} {m : Member} (found : findMember s n = some m) : m.node = n := by
  simpa using List.find?_some found

/-- The member that is set is found, where the node is known. -/
theorem findMember_setMember {s : State} {n : Node} {old m : Member} (found : findMember s n = some old) (node : m.node = n) :
    findMember (setMember m s) n = some m := by
  have keep (x : Member) : (if x.node = m.node then m else x).node = x.node := by split <;> simp [*]
  rw [setMember, findMember_map keep, found, Option.map_some, if_pos ((findMember_node found).trans node.symm)]

/-- A node that is known stays known, and one that is told of is known. -/
theorem findMember_knowMember {s : State} {n k : Node} {uid : W64} {st : MemberState}
    (known : (findMember s n).isSome = true ∨ n = k) : (findMember (knowMember k uid st s) n).isSome = true := by
  unfold knowMember
  split
  · next told =>
    have keep (x : Member) : (if (decide (x.node = k) && decide (uid ≠ 0)) = true then { x with uid := uid } else x).node = x.node := by
      split <;> rfl
    rw [findMember_map keep, Option.isSome_map]
    obtain found | rfl := known
    · exact found
    · simpa [findMember, List.any_eq_true] using told
  · simp only [findMember, List.find?_append, Option.isSome_or, Bool.or_eq_true]
    obtain found | rfl := known
    · exact Or.inl found
    · exact Or.inr (by simp)

/-- With no `dev_uid` to note, a node that is known changes nothing. -/
theorem knowMember_known {s : State} {n : Node} {m : Member} (found : findMember s n = some m) (st : MemberState) :
    knowMember n 0 st s = s := by
  have told : s.dom.members.any (·.node == n) = true :=
    List.any_eq_true.2 ⟨m, List.mem_of_find?_eq_some found, beq_iff_eq.2 (findMember_node found)⟩
  simp [knowMember, told]

/-! ### CLAIM and CALL (R464, R465) -/

theorem enumServing_runs {s : State} (run : Runs s) : ¬ (!enumServing s) = true := by simp [enumServing, run.1]

theorem claimData_fields (d : BitVec 6) (n : BitVec 10) : regBits (claimData d n) 0 2 = 1 ∧ regBits (claimData d n) 8 6 = d.toNat ∧
    regBits (claimData d n) 16 10 = n.toNat := by
  have claim : (claimData d n).extractLsb' 0 2 = 1 := by ext i hi; simp [claimData, atBit]; grind
  have domain : (claimData d n).extractLsb' 8 6 = d := by ext i hi; simp [claimData, atBit]; grind
  have slot : (claimData d n).extractLsb' 16 10 = n := by ext i hi; simp [claimData, atBit]; grind
  simp only [regBits_toNat, claim, domain, slot]
  exact ⟨rfl, trivial, trivial⟩

theorem exec_claim_here {c : Cmd} {d : BitVec 6} {n : BitVec 10} {s : State} (g : Granted c s) (here : claimHere d.toNat n.toNat s = true) :
    exec (.claim c d n) s = .next (sendCall d.toNat { taken c rEnumCmd (claimData d n) s with
      lnk.node := some (nodeOf d.toNat n.toNat), dom.enum := some { domain := d.toNat, since := s.now } }) := by
  obtain ⟨claim, domain, slot⟩ := claimData_fields d n
  have mine : claimHere d.toNat n.toNat (taken c rEnumCmd (claimData d n) s) = true := here
  refine congrArg _ ((if_pos here).trans ((mgmtWrite_granted g (by decide) (by decide) _ _).trans ?_))
  unfold enumCommand
  rw [claim, domain, slot]
  exact if_neg (by simp [mine])

theorem exec_claim_elsewhere {c : Cmd} {d : BitVec 6} {n : BitVec 10} {s : State} (elsewhere : claimHere d.toNat n.toNat s = false) :
    exec (.claim c d n) s = .next s := congrArg _ (if_neg (by simp [elsewhere]))

section
variable {s : State} (run : Runs s)
include run

section
variable (src : Node) {d : BitVec 6} {uid : W64}

theorem exec_call_own (own : s.dom.strapBad = true ∨ uid = s.dom.uid) : exec (.call src d uid) s = .next (ticked s) := by
  refine congrArg _ ((if_neg (enumServing_runs run)).trans ((stampedIf_runs run _).trans ?_))
  have owns : (s.dom.strapBad || decide (uid = s.dom.uid)) = true := by simpa using own
  exact if_pos owns

section
variable (strap : s.dom.strapBad = false) (other : uid ≠ s.dom.uid)
include strap other

omit run in
theorem call_other : ¬ (s.dom.strapBad || decide (uid = s.dom.uid)) = true := by simp [strap, other]

/-- The CALL of a clash takes this device's address away (R465). -/
theorem exec_call_clash (claims : claiming s d.toNat = true) : exec (.call src d uid) s =
    .next (event (ticketNext s) 0x56 devLoc 0 1 0 uid [] { ticked s with lnk.node := none, dom.claimClash := true, dom.enum := none }) := by
  refine congrArg _ ((if_neg (enumServing_runs run)).trans ((stampedIf_runs run _).trans ?_))
  exact (if_neg (call_other strap other)).trans (if_pos claims)

theorem exec_call_answers (idle : claiming s d.toNat = false) (domain : strapDomain s = d.toNat) (unassigned : s.lnk.node = none) :
    exec (.call src d uid) s = .next (send src 0 0 (.enum 1 d.toNat (strapSlot s) 0 s.dom.uid []) (ticked s)) := by
  have notClaiming : ¬ claiming s d.toNat = true := by simp [idle]
  have mine : (decide (strapDomain s = d.toNat) && s.lnk.node.isNone) = true := by simp [domain, unassigned]
  refine congrArg _ ((if_neg (enumServing_runs run)).trans ((stampedIf_runs run _).trans ?_))
  exact (if_neg (call_other strap other)).trans ((if_neg notClaiming).trans (if_pos mine))

theorem exec_call_elsewhere (idle : claiming s d.toNat = false) (elsewhere : strapDomain s ≠ d.toNat ∨ s.lnk.node ≠ none) :
    exec (.call src d uid) s = .next (ticked s) := by
  have notClaiming : ¬ claiming s d.toNat = true := by simp [idle]
  have away : ¬ (decide (strapDomain s = d.toNat) && s.lnk.node.isNone) = true := by
    obtain domain | assigned := elsewhere
    · simp [domain]
    · simp [assigned]
  refine congrArg _ ((if_neg (enumServing_runs run)).trans ((stampedIf_runs run _).trans ?_))
  exact (if_neg (call_other strap other)).trans ((if_neg notClaiming).trans (if_neg away))

end
end

/-! ### HERE (R464, R466, R467) -/

section
variable {src : Node} {d : BitVec 6} {slot : BitVec 10} {uid : W64} {e : Enum} (claims : s.dom.enum = some e)
include claims

/-- A first answer is collected, while there is room. -/
theorem exec_here_collects (fresh : src = localNode) (domain : d.toNat = e.domain) (collecting : e.assigned = false)
    (notWaiting : ∀ w ∈ e.waiting, w.1 ≠ uid) (unheard : ∀ a ∈ e.answers, a.1 ≠ uid) :
    exec (.here src d slot uid) s = .next (if 1024 ≤ e.answers.length then { ticked s with dom.enumOverflow := satInc s.dom.enumOverflow }
      else { ticked s with dom.enum := some { e with answers := e.answers ++ [(uid, slot.toNat)] } }) := by
  have none : (e.waiting.any fun w => w.1 == uid && w.2.1 == src) = false := by
    rw [List.any_eq_false]; intro w isW; simp [notWaiting w isW]
  have new : (e.answers.any (·.1 == uid)) = false := by
    rw [List.any_eq_false]; intro a isA; simp [unheard a isA]
  have claims' : (ticked s).dom.enum = some e := claims
  refine congrArg _ ((if_neg (enumServing_runs run)).trans ((stampedIf_runs run _).trans ?_))
  dsimp only
  rw [claims']
  refine (if_neg (by simp [none])).trans ((if_neg (by simp [fresh, domain])).trans ((if_pos (by simp [collecting])).trans
    ((if_neg (by simp [new])).trans rfl)))

/-- A member whose answer has arrived. -/
def Member.arrived (src : Node) (now : Nat) (m : Member) : Member :=
  if m.node = src then { m with state := if m.state = .absent then .up else m.state, heard := now } else m

/-- The answer of a new address ends the wait for it and makes the member UP (R464 step 7). -/
theorem exec_here_arrives {b : Bool} {since : Nat} (waited : (uid, src, b, since) ∈ e.waiting) {m : Member}
    (known : findMember s src = some m) (absent : m.state = .absent) : ∃ u, exec (.here src d slot uid) s = .next u ∧
      (∀ f, u.dom.enum = some f → ∀ w ∈ f.waiting, w.1 ≠ uid) ∧ findMember u src = some { m with state := .up, heard := s.now } := by
  have waits : (e.waiting.any fun w => w.1 == uid && w.2.1 == src) = true := List.any_eq_true.2 ⟨_, waited, by simp⟩
  have claims' : (ticked s).dom.enum = some e := claims
  refine ⟨{ ticked s with dom.enum := some { e with waiting := e.waiting.filter (·.1 != uid) }
                          dom.members := s.dom.members.map (Member.arrived src s.now) }, ?_, fun f isF w isW => ?_, ?_⟩
  · refine congrArg _ ((if_neg (enumServing_runs run)).trans ((stampedIf_runs run _).trans ?_))
    dsimp only
    rw [claims']
    exact if_pos waits
  · cases isF
    exact bne_iff_ne.1 (List.mem_filter.1 isW).2
  · have node (x : Member) : (Member.arrived src s.now x).node = x.node := by unfold Member.arrived; split <;> rfl
    refine (findMember_map node s src).trans ?_
    rw [known, Option.map_some, Member.arrived, if_pos (findMember_node known), if_pos absent]

end

end

/-! ### ENUM_COLLECT_TIMEOUT (R464 steps 5 and 6, R466) -/

section
variable {s : State} {e : Enum} (run : Runs s) (claims : s.dom.enum = some e) (collecting : e.assigned = false)
include run claims

theorem exec_enumCollectTimeout_early (early : past s e.since 10000000 = false) : exec .enumCollectTimeout s = .next s := by
  refine congrArg _ ((if_neg (enumServing_runs run)).trans ?_)
  rw [claims]
  exact if_pos (by simp [early])

/-- The numbers of an enumeration, as node addresses of its domain. -/
def givenBy (e : Enum) (s : State) : List (W64 × Node) :=
  (assignNumbers (nodeMember (myNode s)) e.answers).filterMap fun x => x.2.map fun n => (x.1, nodeOf e.domain n)

include collecting

theorem exec_enumCollectTimeout_late (late : past s e.since 10000000 = true) : exec .enumCollectTimeout s =
    .next ((givenBy e s).foldl (fun s g => sendAssign g.1 g.2 (knowMember g.2 g.1 .absent s))
      { s with dom.enumOverflow := satAdd s.dom.enumOverflow ((assignNumbers (nodeMember (myNode s)) e.answers).length - (givenBy e s).length)
               dom.enum := some { e with assigned := true, answers := [], waiting := (givenBy e s).map fun g => (g.1, g.2, false, s.now) } }) := by
  refine congrArg _ ((if_neg (enumServing_runs run)).trans ?_)
  rw [claims]
  exact if_neg (by simp [collecting, late])

end

/-- What a node is told of leaves all but the members. -/
theorem knowMember_frame (n : Node) (uid : W64) (st : MemberState) (s : State) :
    knowMember n uid st s = { s with dom.members := (knowMember n uid st s).dom.members } := by
  unfold knowMember
  split <;> rfl

/-- A run of ASSIGN sends one for each number, and makes each node known. -/
theorem foldl_sendAssign (xs : List (W64 × Node)) (s : State) :
    let u := xs.foldl (fun s g => sendAssign g.1 g.2 (knowMember g.2 g.1 .absent s)) s
    u.dom.enum = s.dom.enum ∧
      u.out = s.out ++ xs.map (fun g => (s.now, ⟨broadcastNode, myNode s, 0, 0, .enum 2 (nodeDomain g.2) 0 g.2 g.1 []⟩)) ∧
      (∀ n, (findMember s n).isSome = true ∨ (∃ g ∈ xs, g.2 = n) → (findMember u n).isSome = true) := by
  induction xs generalizing s with
  | nil => exact ⟨rfl, (List.append_nil _).symm, fun n known => known.elim id fun ⟨_, isNil, _⟩ => nomatch isNil⟩
  | cons g xs ih =>
    obtain ⟨enum, out, known⟩ := ih (sendAssign g.1 g.2 (knowMember g.2 g.1 .absent s))
    have told : knowMember g.2 g.1 .absent s = { s with dom.members := (knowMember g.2 g.1 .absent s).dom.members } := knowMember_frame ..
    refine ⟨enum.trans (by rw [told]; rfl), out.trans (by rw [told]; simp [sendAssign, send, myNode]), fun n named => known n ?_⟩
    obtain found | ⟨x, isX, isN⟩ := named
    · exact Or.inl (findMember_knowMember (s := s) (Or.inl found))
    · obtain rfl | later := List.mem_cons.1 isX
      · exact Or.inl (findMember_knowMember (s := s) (Or.inr isN.symm))
      · exact Or.inr ⟨x, later, isN⟩

/-! ### The numbers (R466) -/

theorem insertBy_perm {α : Type} (le : α → α → Bool) (x : α) (l : List α) : (insertBy le x l).Perm (x :: l) := by
  induction l with
  | nil => exact .refl _
  | cons y l ih =>
    unfold insertBy
    split
    · exact (ih.cons y).trans (.swap x y l)
    · exact .refl _

theorem sortBy_perm {α : Type} (le : α → α → Bool) (l : List α) : (sortBy le l).Perm l := by
  induction l with
  | nil => exact .refl _
  | cons x l ih => exact (insertBy_perm le x _).trans (ih.cons x)

section
variable (own : Nat) (answers : List (W64 × Nat))

/-- The answers by ascending `dev_uid`. -/
def byUid : List (W64 × Nat) := sortBy (fun a b => decide (a.1.toNat ≤ b.1.toNat)) answers

/-- An answer keeps its slot: the first of its slot, which is not the device's own. -/
def keepsSlot (a : W64 × Nat) : Bool := a.2 != own && ((byUid answers).find? fun b => b.2 == a.2) == some a

/-- The numbers that no strap names. -/
def spareNumbers : List Nat := (List.range 1024).filter fun n => !(dedup (own :: answers.map (·.2))).contains n

theorem assignNumbers_eq : assignNumbers own answers = ((byUid answers).filter (keepsSlot own answers)).map (fun a => (a.1, some a.2)) ++
    ((byUid answers).filter fun a => !keepsSlot own answers a).mapIdx fun i a => (a.1, (spareNumbers own answers)[i]?) := rfl

variable {own answers}

theorem mem_spareNumbers {n : Nat} (spare : n ∈ spareNumbers own answers) : n ≠ own ∧ ∀ a ∈ answers, a.2 ≠ n := by
  have unnamed : n ∉ dedup (own :: answers.map (·.2)) := by simpa using (List.mem_filter.1 spare).2
  rw [mem_dedup, List.mem_cons, List.mem_map, not_or] at unnamed
  exact ⟨unnamed.1, fun a isA same => unnamed.2 ⟨a, isA, same⟩⟩

theorem keepsSlot_iff {a : W64 × Nat} : keepsSlot own answers a = true ↔ a.2 ≠ own ∧ (byUid answers).find? (·.2 == a.2) = some a := by
  simp [keepsSlot]

/-- The numbers given are the slots that are kept, and then spare numbers in their order. -/
theorem given_eq : (assignNumbers own answers).filterMap (·.2) = ((byUid answers).filter (keepsSlot own answers)).map (·.2) ++
    (spareNumbers own answers).take ((byUid answers).filter fun a => !keepsSlot own answers a).length := by
  have kept (l : List (W64 × Nat)) : (l.map fun a => (a.1, some a.2)).filterMap (·.2) = l.map (·.2) := by
    rw [List.filterMap_map]; exact congrFun List.filterMap_eq_map l
  have moved (room : List Nat) (l : List (W64 × Nat)) : (l.mapIdx fun i a => (a.1, room[i]?)).filterMap (·.2) = room.take l.length := by
    induction l generalizing room with
    | nil => rfl
    | cons a l ih =>
      cases room with
      | nil =>
        simp only [List.getElem?_nil, List.take_nil, List.filterMap_eq_nil_iff, List.mem_mapIdx]
        rintro _ ⟨i, h, rfl⟩
        rfl
      | cons n room => simp [List.mapIdx_cons, ih room]
  rw [assignNumbers_eq, List.filterMap_append, kept, moved]

theorem given_nodup (uids : (answers.map (·.1)).Nodup) : ((assignNumbers own answers).filterMap (·.2)).Nodup := by
  have sorted : (byUid answers).Nodup := (sortBy_perm _ _).nodup_iff.2 (List.Nodup.of_map _ uids)
  rw [given_eq]
  refine List.Nodup.append ?_ (((List.nodup_range).filter _).sublist (List.take_sublist _ _)) fun n kept spare => ?_
  · refine List.Nodup.map_on (fun a isA b isB same => ?_) (sorted.filter _)
    have firstA := (keepsSlot_iff.1 (List.mem_filter.1 isA).2).2
    have firstB := (keepsSlot_iff.1 (List.mem_filter.1 isB).2).2
    rw [same, firstB] at firstA
    exact (Option.some.inj firstA).symm
  · obtain ⟨a, isA, rfl⟩ := List.mem_map.1 kept
    exact (mem_spareNumbers (List.mem_of_mem_take spare)).2 a ((mem_sortBy _ a answers).1 (List.mem_filter.1 isA).1) rfl

theorem own_not_given : own ∉ (assignNumbers own answers).filterMap (·.2) := by
  rw [given_eq, List.mem_append, not_or]
  refine ⟨fun kept => ?_, fun spare => (mem_spareNumbers (List.mem_of_mem_take spare)).1 rfl⟩
  obtain ⟨a, isA, same⟩ := List.mem_map.1 kept
  exact (keepsSlot_iff.1 (List.mem_filter.1 isA).2).1 same

/-- An answer whose slot no other shares keeps it. -/
theorem unshared_kept {a : W64 × Nat} (isA : a ∈ answers) (free : a.2 ≠ own) (alone : ∀ b ∈ answers, b.2 = a.2 → b = a) :
    (a.1, some a.2) ∈ assignNumbers own answers := by
  have sorted : a ∈ byUid answers := (mem_sortBy _ a answers).2 isA
  have first : (byUid answers).find? (·.2 == a.2) = some a := by
    cases found : (byUid answers).find? (·.2 == a.2) with
    | none => exact absurd (List.find?_eq_none.1 found a sorted) (by simp)
    | some b =>
      exact congrArg some (alone b ((mem_sortBy _ b answers).1 (List.mem_of_find?_eq_some found)) (by simpa using List.find?_some found))
  rw [assignNumbers_eq]
  exact List.mem_append_left _ (List.mem_map.2 ⟨a, List.mem_filter.2 ⟨sorted, keepsSlot_iff.2 ⟨free, first⟩⟩, rfl⟩)

end

/-! ### ASSIGN (R464 step 7) -/

theorem trackManager_frame (src : Node) (s : State) :
    trackManager src s = { s with dom.mgrNode := some (s.dom.mgrNode.getD src), dom.sinceMgr := (trackManager src s).dom.sinceMgr } := by
  unfold trackManager
  cases known : s.dom.mgrNode with
  | none => rfl
  | some g => rw [if_neg (by simp), Option.getD_some, ← known]

theorem trackSender_frame (src : Node) (s : State) :
    trackSender src s = { s with dom.members := (trackSender src s).dom.members } := by
  unfold trackSender
  split
  · rfl
  · exact knowMember_frame ..

/-- A member that joins the job takes on the manager's set epoch (R471). -/
theorem joinEpoch_frame (src : Node) (s : State) : joinEpoch src s = { s with cfg := (joinEpoch src s).cfg } := by
  unfold joinEpoch
  (repeat' split) <;> rfl

section
variable {s : State} (run : Runs s)
include run

section
variable (src : Node) {uid : W64} {node : Node}

theorem exec_assign_elsewhere (elsewhere : s.dom.strapBad = true ∨ nodeDomain node ≠ strapDomain s) :
    exec (.assign src uid node) s = .next (ticked s) := by
  have away : (s.dom.strapBad || nodeDomain node != strapDomain s) = true := by simpa using elsewhere
  exact congrArg _ ((if_neg (enumServing_runs run)).trans ((stampedIf_runs run _).trans (if_pos away)))

theorem exec_assign_here (strap : s.dom.strapBad = false) (domain : nodeDomain node = strapDomain s) :
    exec (.assign src uid node) s = .next (if uid = s.dom.uid then takeAddress src uid node (trackSender src (trackManager src (ticked s)))
      else knowMember node uid .absent (trackSender src (trackManager src (ticked s)))) := by
  have here : ¬ (s.dom.strapBad || nodeDomain node != strapDomain s) = true := by simp [strap, domain]
  exact congrArg _ ((if_neg (enumServing_runs run)).trans ((stampedIf_runs run _).trans (if_neg here)))

/-- The device that an ASSIGN names takes its address and answers with it. -/
theorem exec_assign_named (strap : s.dom.strapBad = false) (domain : nodeDomain node = strapDomain s) (own : uid = s.dom.uid) :
    ∃ u, exec (.assign src uid node) s = .next u ∧ u.lnk.node = some node ∧
      u.out = s.out ++ [(s.now, ⟨src, node, 0, 0, .enum 1 (strapDomain s) (strapSlot s) node uid []⟩)] ∧
      u.dom.mgrNode = some (s.dom.mgrNode.getD src) := by
  refine ⟨_, exec_assign_here run src strap domain, ?_⟩
  rw [if_pos own, trackSender_frame, trackManager_frame]
  exact ⟨rfl, rfl, rfl⟩

/-- Every other device of the domain knows the member. -/
theorem exec_assign_other (strap : s.dom.strapBad = false) (domain : nodeDomain node = strapDomain s) (other : uid ≠ s.dom.uid) :
    ∃ u, exec (.assign src uid node) s = .next u ∧ u.lnk.node = s.lnk.node ∧ u.out = s.out ∧ (findMember u node).isSome = true := by
  refine ⟨_, exec_assign_here run src strap domain, ?_⟩
  rw [if_neg other]
  refine ⟨?_, ?_, findMember_knowMember (Or.inr rfl)⟩ <;> rw [knowMember_frame, trackSender_frame, trackManager_frame] <;> rfl

end

/-! ### ASSIGN_RETRY and LOST_CALL (R464 step 7, R467) -/

section
variable {uid : W64} {n : Node} {twice : Bool} {since : Nat} {e : Enum} (claims : s.dom.enum = some e)
  (waits : e.waiting = [(uid, n, twice, since)])
include claims waits

theorem exec_assignRetry : exec (.assignRetry uid) s = .next (if past s since 1000000 = false then s
    else if twice then { s with dom.enum := some { e with waiting := [] } }
    else sendAssign uid n { s with dom.enum := some { e with waiting := [(uid, n, true, s.now)] } }) := by
  have found : e.waiting.find? (·.1 == uid) = some (uid, n, twice, since) := by rw [waits]; simp
  have gone : e.waiting.filter (·.1 != uid) = [] := by rw [waits]; simp
  have again : (e.waiting.map fun w => if w.1 = uid then (uid, n, true, s.now) else w) = [(uid, n, true, s.now)] := by rw [waits]; simp
  refine congrArg _ ((if_neg (enumServing_runs run)).trans ?_)
  rw [claims]
  dsimp only
  rw [found, gone]
  dsimp only
  rw [again]
  simp only [Bool.not_eq_true']

end

theorem exec_lostCall_calls (manages : isManager s = true) (lost : ∃ m ∈ ownMembers s, m.state = .lost) :
    ∃ u, exec .lostCall s = .next u ∧
      u.out = s.out ++ [(s.now, ⟨broadcastNode, myNode s, 0, 0, .enum 0 (nodeDomain (myNode s)) 0 0 s.dom.uid []⟩)] := by
  have calls : (isManager s && (ownMembers s).any (·.state == .lost)) = true := by simpa [manages] using lost
  have called : exec .lostCall s = .next (sendCall (nodeDomain (myNode s)) (if s.dom.enum.isNone then
      { s with dom.enum := some { domain := nodeDomain (myNode s), since := s.now, assigned := true } } else s)) := by
    refine congrArg _ ((whenServing_pos run.1 _).trans ?_)
    exact if_pos calls
  refine ⟨_, called, ?_⟩
  cases s.dom.enum <;> rfl

theorem exec_lostCall_quiet (present : ∀ m ∈ ownMembers s, m.state ≠ .lost) : exec .lostCall s = .next s := by
  refine congrArg _ ((whenServing_pos run.1 _).trans (if_neg ?_))
  simpa using fun (_ : isManager s = true) => present

/-! ### ROSTER (R471) -/

section
variable (src : Node) {entries : List (Nat × Nat)}

theorem exec_roster : exec (.roster src entries) s = .next
    (if (entries.all fun e => (findColl s e.1).any fun c => c.spec.shard == e.2) then
      send src 0 0 (.enum 4 (nodeDomain (myNode s)) 0 (myNode s) s.dom.uid []) (joinEpoch src (ticked s))
    else send src 0 0 (.enum 5 (nodeDomain (myNode s)) 0 (myNode s) s.dom.uid []) (ticked s)) :=
  congrArg _ (whenServing_stamped run _)

theorem exec_roster_refused (missing : ∃ e ∈ entries, ∀ c, findColl s e.1 = some c → c.spec.shard ≠ e.2) :
    exec (.roster src entries) s = .next (send src 0 0 (.enum 5 (nodeDomain (myNode s)) 0 (myNode s) s.dom.uid []) (ticked s)) := by
  refine (exec_roster run src).trans (congrArg _ (if_neg fun holds => ?_))
  obtain ⟨e, isE, lacks⟩ := missing
  obtain ⟨c, found, held⟩ := (Option.any_eq_true _ _).1 (List.all_eq_true.1 holds e isE)
  exact lacks c found (by simpa using held)

theorem exec_roster_held (held : ∀ e ∈ entries, ∃ c, findColl s e.1 = some c ∧ c.spec.shard = e.2) :
    ∃ u, exec (.roster src entries) s = .next u ∧
      u.out = s.out ++ [(s.now, ⟨src, myNode s, 0, 0, .enum 4 (nodeDomain (myNode s)) 0 (myNode s) s.dom.uid []⟩)] := by
  have holds : (entries.all fun e => (findColl s e.1).any fun c => c.spec.shard == e.2) = true := by
    refine List.all_eq_true.2 fun e isE => ?_
    obtain ⟨c, found, shard⟩ := held e isE
    simp [found, shard]
  refine ⟨_, (exec_roster (entries := entries) run src).trans (congrArg _ (if_pos holds)), ?_⟩
  rw [joinEpoch_frame]
  rfl

section
variable {m : Member} (known : findMember s src = some m) (manages : isManager s = true)
include known manages

theorem exec_rosterNo : exec (.rosterNo src) s = .next (if m.state = .removed then ticked s
    else send src 0 0 (.mwrite rJobCmd 3) (setMember { m with state := .excluded, inJob := false } (ticked s))) := by
  have known' : findMember (ticked s) src = some m := known
  have manages' : isManager (ticked s) = true := manages
  refine congrArg _ ((whenServing_stamped run _).trans ?_)
  rw [known']
  simp only [manages', Bool.not_true, Bool.false_or, decide_eq_true_eq]

theorem exec_rosterOk_joins (open' : s.job.phase = 1) (up : m.state = .up) :
    exec (.rosterOk src) s = .next (setMember { m with inJob := true } (ticked s)) := by
  have known' : findMember (ticked s) src = some m := known
  have manages' : isManager (ticked s) = true := manages
  refine congrArg _ ((whenServing_stamped run _).trans ?_)
  dsimp only
  rw [known']
  refine (if_neg ?_).trans (if_neg ?_)
  · simp [manages', up]; exact open'
  · simp [up]

omit manages in
theorem exec_rosterOk_removed (removed : m.state = .removed) : exec (.rosterOk src) s = .next (ticked s) := by
  have known' : findMember (ticked s) src = some m := known
  refine congrArg _ ((whenServing_stamped run _).trans ?_)
  dsimp only
  rw [known']
  exact if_pos (by simp [removed])

end
end
end

/-- Settles O52, by what each transaction of an enumeration does, and for the numbers by the answers in ascending `dev_uid`. -/
theorem devicesAreEnumerated : Obligations.DevicesAreEnumerated := by
  refine ⟨fun c d n s g => ⟨exec_claim_here g, exec_claim_elsewhere⟩,
    fun src d uid s run => ⟨exec_call_own run src, fun strap other => ⟨exec_call_clash run src strap other,
      exec_call_answers run src strap other, exec_call_elsewhere run src strap other⟩⟩,
    fun src d slot uid e s run claims => ⟨fun fresh domain collecting notWaiting unheard => ?_,
      fun b w waited m known absent => exec_here_arrives run claims waited known absent⟩,
    fun e s run claims collecting => ⟨exec_enumCollectTimeout_early run claims, fun late xs given isXs isGiven => ?_⟩,
    fun own answers uids => ⟨⟨given_nodup uids, own_not_given⟩, fun a isA => unshared_kept isA⟩,
    fun src uid node s run => ⟨exec_assign_elsewhere run src, fun strap domain => ⟨exec_assign_named run src strap domain,
      exec_assign_other run src strap domain⟩⟩,
    fun uid n twice since e s run claims waits => ?_,
    fun s run => ⟨exec_lostCall_calls run, exec_lostCall_quiet run⟩,
    fun src entries s run => ⟨exec_roster_refused run src, exec_roster_held run src, fun m known manages => ⟨fun stays => ?_,
      exec_rosterOk_joins run src known manages, fun removed => ⟨exec_rosterOk_removed run src known removed, ?_⟩⟩⟩⟩
  · have collects := exec_here_collects (slot := slot) run claims fresh domain collecting notWaiting unheard
    exact ⟨fun room => collects.trans (congrArg _ (if_neg (by omega))), fun full => collects.trans (congrArg _ (if_pos full))⟩
  · have isGiven : given = givenBy e s := by rw [isGiven, isXs]; rfl
    subst isGiven
    obtain ⟨enum, out, known⟩ := foldl_sendAssign (givenBy e s) _
    exact ⟨_, exec_enumCollectTimeout_late run claims collecting late, enum, out, fun g isG => known _ (Or.inr ⟨g, isG, rfl⟩)⟩
  · have retry := exec_assignRetry run claims waits
    refine ⟨fun early => retry.trans (congrArg _ (if_pos early)), fun late => ⟨fun isTwice => ?_, fun once => ?_⟩⟩
    · exact retry.trans (congrArg _ ((if_neg (by simp [late])).trans (if_pos isTwice)))
    · exact retry.trans (congrArg _ ((if_neg (by simp [late])).trans (if_neg (by simp [once]))))
  · exact (exec_rosterNo run src known manages).trans (congrArg _ (if_neg stays))
  · exact (exec_rosterNo run src known manages).trans (congrArg _ (if_pos removed))

end Sys2Proof.Machine

/-! SUPPORT. What the ends and restarts of a domain's work leave of its members (18 R477, R480 to R483): the work moves between the
members, and no operation of it changes one but for its part in the job. -/

namespace Sys2Proof.Machine

/-! ### The members that work leaves -/

/-- The domain without what the requests and the job of this device change of it. -/
def Dom.roster (d : Dom) : Dom :=
  { d with override := none, members := d.members.map fun m => { m with inJob := false }, owed := [] }

/-- A node is a member that has not been removed. -/
def Dom.live (d : Dom) (n : Node) : Bool := d.members.any fun m => m.node == n && m.state != .removed

/-- Work has left the roster as it was, and mutations are owed to no node that has been removed since. -/
def Trails (d e : Dom) : Prop := e.roster = d.roster ∧ ∀ x ∈ e.owed, x ∈ d.owed ∨ d.live x.2.2 = true

theorem Trails.refl (d : Dom) : Trails d d := ⟨rfl, fun _ isX => Or.inl isX⟩

/-- Who is a live member does not rest on the job. -/
theorem live_of_roster {d e : Dom} (same : e.roster = d.roster) (n : Node) : e.live n = d.live n := by
  have forget (d : Dom) : d.live n = (d.roster.members.any fun m => m.node == n && m.state != .removed) := by
    simp only [Dom.live, Dom.roster, List.any_map]; rfl
  rw [forget, forget, same]

theorem Trails.trans {a b c : Dom} (ab : Trails a b) (bc : Trails b c) : Trails a c := by
  refine ⟨bc.1.trans ab.1, fun x isX => ?_⟩
  obtain stood | live := bc.2 x isX
  · exact ab.2 x stood
  · exact Or.inr ((live_of_roster ab.1 _).symm.trans live)

theorem trails_of_plant {s t : State} (same : plant t = plant s) : Trails s.dom t.dom := by
  have dom : (plant t).dom = (plant s).dom := congrArg State.dom same
  have owed : t.dom.owed = s.dom.owed := congrArg (·.owed) dom
  exact ⟨congrArg (fun d : Dom => { d with owed := [] }) dom, fun x isX => Or.inl (owed ▸ isX)⟩

variable {d : Dom}

theorem trails_ite {c : Prop} [Decidable c] {a b : State} (ha : Trails d a.dom) (hb : Trails d b.dom) : Trails d (if c then a else b).dom := by
  split <;> assumption

theorem trails_foldl {α : Type} {f : State → α → State} (hf : ∀ s a, Trails d s.dom → Trails d (f s a).dom) {s : State}
    (h : Trails d s.dom) (l : List α) : Trails d (l.foldl f s).dom := by
  induction l generalizing s with
  | nil => exact h
  | cons a l ih => exact ih (hf s a h)

theorem stamp_trails {s : State} (h : Trails d s.dom) : Trails d (stamp s).1.dom := h.trans (trails_of_plant (plant_stamp s))

theorem stamped_trails {s : State} {f : State → Ticket → State} (hf : ∀ s t, Trails d s.dom → Trails d (f s t).dom)
    (h : Trails d s.dom) : Trails d (stamped s f).dom := hf _ _ (stamp_trails h)

theorem jobFault_trails {s : State} (cause : Nat) (h : Trails d s.dom) : Trails d (jobFault cause s).dom :=
  stamped_trails (fun s t h => h.trans (trails_of_plant (plant_teardown cause t s))) h

/-! ### Operations that leave the domain -/

@[simp] theorem event_dom (t : Ticket) (type : Nat) (l : Loc) (code attempts action : Nat) (aux : W64) (extra : List Byte) (s : State) :
    (event t type l code attempts action aux extra s).dom = s.dom := by rw [event_frame]

@[simp] theorem sendEach_dom (dsts : List Node) (t : Ticket) (m : Msg) (s : State) : (sendEach dsts t m s).dom = s.dom := by
  rw [sendEach_frame]

@[simp] theorem finish_dom (r : Req) (o : Outcome) (s : State) : (finish r o s).dom = s.dom := by
  unfold finish
  split
  · rfl
  · have closed : (closeDecode r o s).1.dom = s.dom := by rw [closeDecode_frame]
    rw [← closed]
    generalize closeDecode r o s = x
    obtain ⟨u, o⟩ := x
    dsimp only
    (repeat' split) <;> rfl

@[simp] theorem cancelAway_dom (r : Req) (expired : Bool) (s : State) : (cancelAway r expired s).dom = s.dom := by
  rw [cancelAway_frame]

@[simp] theorem journal_dom (kind : Nat) (t : Ticket) (tag : W64) (body : List Byte) (s : State) : (journal kind t tag body s).1.dom = s.dom := by
  rw [journal_frame]

@[simp] theorem sendWork_dom (r : Req) (reissue owed : Bool) (x : Nat × Node) (s : State) : (sendWork r reissue owed x s).dom = s.dom := by
  unfold sendWork; split <;> rfl

@[simp] theorem sendPrompt_dom (r : Req) (s : State) : (sendPrompt r s).dom = s.dom := by
  unfold sendPrompt
  dsimp only
  (repeat' split) <;> rfl

@[simp] theorem addReq_dom (r : Req) (s : State) : (addReq r s).dom = s.dom := rfl
@[simp] theorem setMove_dom (v : PfMove) (s : State) : (setMove v s).dom = s.dom := rfl
@[simp] theorem setPub_dom (b : Publication) (s : State) : (setPub b s).dom = s.dom := rfl
@[simp] theorem journaled_dom (t : Ticket) (pos : W64) (s : State) : (journaled t pos s).dom = s.dom := rfl
@[simp] theorem freeObjects_dom (serial : Nat) (s : State) : (freeObjects serial s).dom = s.dom := rfl
@[simp] theorem reclaim_dom (s : State) : (reclaim s).dom = s.dom := rfl
@[simp] theorem resumeHeld_dom (s : State) : (resumeHeld s).dom = s.dom := rfl
@[simp] theorem countFetch_dom (xs : List (W64 × PackPassage)) (s : State) : (countFetch xs s).dom = s.dom := rfl

@[simp] theorem countMerge_dom (t : Ticket) (m : MergeCounts) (s : State) : (countMerge t m s).dom = s.dom := by
  unfold countMerge
  dsimp only
  split <;> rfl

@[simp] theorem enqueue_dom (r : Req) (s : State) : (enqueue r s).dom = s.dom := by
  unfold enqueue
  split <;> rfl

@[simp] theorem openLocal_dom (r : Req) (s : State) : (openLocal r s).1.dom = s.dom := by
  have kept {u : State} {h : W64} {t : Ticket} {n last fmt layers : Nat} (opened : openCache t n last fmt layers s = some (u, h)) :
      u.dom = s.dom := by
    unfold openCache at opened
    dsimp only at opened
    split at opened
    · cases opened
    · cases opened; rfl
  unfold openLocal
  dsimp only
  split
  · next opened =>
    have same := kept opened
    exact same
  · rfl

theorem dom_ite {c : Prop} [Decidable c] {a b s : State} (ha : a.dom = s.dom) (hb : b.dom = s.dom) : (if c then a else b).dom = s.dom := by
  split <;> assumption

/-- What a run of operations leaves of the domain, each leaves. -/
theorem foldl_dom {α : Type} {f : State → α → State} (hf : ∀ s a, (f s a).dom = s.dom) (l : List α) (s : State) :
    (l.foldl f s).dom = s.dom := foldl_leaves State.dom hf l s

@[simp] theorem fanoutSearch_dom (r : Req) (s : State) : (fanoutSearch r s).1.dom = s.dom := by
  unfold fanoutSearch
  split
  · rfl
  · exact foldl_dom (fun s x => sendWork_dom ..) _ s

@[simp] theorem fanoutRerank_dom (r : Req) (s : State) : (fanoutRerank r s).1.dom = s.dom := by
  unfold fanoutRerank
  split
  · rfl
  · refine (foldl_dom (fun s x => ?_) _ _).trans (dom_ite rfl rfl)
    exact dom_ite rfl rfl

@[simp] theorem forwardDecode_dom (r : Req) (s : State) : (forwardDecode r s).dom = s.dom := by
  unfold forwardDecode
  dsimp only
  split
  · exact (sendWork_dom ..).trans rfl
  · exact finish_dom ..

@[simp] theorem publishFail_dom (r : Req) (member : Nat) (s : State) : (publishFail r member s).dom = s.dom := by
  unfold publishFail
  refine (finish_dom ..).trans ?_
  split <;> rfl

@[simp] theorem publishSend_dom (b : Publication) (s : State) : (publishSend b s).dom = s.dom := by
  unfold publishSend retirePubs
  exact (foldl_dom (fun s b => sendEach_dom ..) _ _).trans (sendEach_dom ..)

/-- The start of the next migration point is the engines' alone (R378). -/
theorem nextPoint_frame (s : State) : nextPoint s = { s with haul := (nextPoint s).haul } := by
  have next (l : List (Nat × List Migration)) : ∀ s : State, nextPointOf l s = { s with haul := (nextPointOf l s).haul } := by
    induction l with
    | nil => exact fun s => rfl
    | cons x l ih =>
      intro s
      unfold nextPointOf
      dsimp only
      split
      · exact ih _
      · rfl
  exact next _ s

@[simp] theorem nextPoint_dom (s : State) : (nextPoint s).dom = s.dom := by rw [nextPoint_frame]

/-! ### Requests that wait for a member (R480, R481) -/

@[simp] theorem awayDone_dom (r : Req) (s : State) : (awayDone r s).dom = s.dom := by
  unfold awayDone
  split
  · exact finish_dom ..
  · rfl

@[simp] theorem reissueRead_dom (rerank : Bool) (lost : Node) (r : Req) (s : State) : (reissueRead rerank lost r s).dom = s.dom := by
  unfold reissueRead
  split
  · rfl
  · refine foldl_dom (fun s x => ?_) _ s
    exact dom_ite rfl (dom_ite rfl (sendWork_dom ..))

@[simp] theorem resumeRead_dom (r : Req) (s : State) : (resumeRead r s).dom = s.dom := by
  unfold resumeRead
  split
  · refine foldl_dom (fun s x => ?_) _ s
    exact dom_ite rfl (dom_ite rfl (sendWork_dom ..))
  · rfl

@[simp] theorem resumeReads_dom (s : State) : (resumeReads s).dom = s.dom := foldl_dom (fun s r => resumeRead_dom r s) _ s

@[simp] theorem reqLost_dom (lost : Node) (t : Ticket) (s : State) : (reqLost lost t s).dom = s.dom := by
  have prompt (r : Req) (n : Node) : (promptLost r n s).dom = s.dom := by
    refine (sendPrompt_dom ..).trans ?_
    dsimp only
    split <;> rfl
  have mutation (r : Req) : (mutationLost lost r s).dom = s.dom := by
    unfold mutationLost
    split
    · rfl
    · exact awayDone_dom ..
  unfold reqLost
  (repeat' split) <;> simp [prompt, mutation]

@[simp] theorem absorbLoss_dom (lost : Node) (s : State) : (absorbLoss lost s).dom = s.dom := foldl_dom (fun s t => reqLost_dom lost t s) _ s

@[simp] theorem dropHeld_dom (r : Req) (s : State) : (dropHeld r s).dom = s.dom := by
  unfold dropHeld
  dsimp only
  (repeat' split) <;> simp

/-! ### Requests that begin or go on (R30, R36, R146) -/

section
variable {s : State} (h : Trails d s.dom)
include h

theorem mergeCounted_trails (r : Req) (m : MergeCounts) : Trails d (mergeCounted r m s).dom :=
  trails_foldl (fun s p h => stamped_trails (fun s t h => by simpa using h) h) (by simpa using h) _

theorem skipRerank_trails (r : Req) : Trails d (skipRerank r s).1.dom := by
  unfold skipRerank
  split
  · exact h
  · dsimp only
    split <;> exact stamp_trails h

theorem mergeRerank_trails (r : Req) : Trails d (mergeRerank r s).dom := by
  unfold mergeRerank
  dsimp only
  (repeat' split) <;> simp [h, mergeCounted_trails h]

theorem mergeSearch_trails (r : Req) : Trails d (mergeSearch r s).dom := by
  have counted := fun r m => mergeCounted_trails (r := r) (m := m) h
  unfold mergeSearch
  dsimp only
  (repeat' split) <;> simp [h, counted, mergeRerank_trails]

theorem whenAnswered_trails (r : Req) : Trails d (whenAnswered r s).dom := by
  unfold whenAnswered
  (repeat' split) <;> simp [h, mergeSearch_trails, mergeRerank_trails]

theorem searchAway_trails (r : Req) : Trails d (searchAway r s).dom := whenAnswered_trails (by simpa using h) _
theorem rerankAway_trails (r : Req) : Trails d (rerankAway r s).dom := whenAnswered_trails (by simpa using h) _

theorem afterRerank_trails (r : Req) : Trails d (afterRerank r s).dom := by
  have counted := fun r' m => mergeCounted_trails (r := r') (m := m) (skipRerank_trails h r)
  unfold afterRerank
  dsimp only
  split <;> simp [counted]

theorem partSearched_trails (r : Req) : Trails d (partSearched r s).dom := by
  unfold partSearched
  split <;> simp [h]

theorem partReranked_trails (r : Req) : Trails d (partReranked r s).dom := by simpa [partReranked] using skipRerank_trails h r

section
variable {go : Req → State → State} (hg : ∀ {s} r, Trails d s.dom → Trails d (go r s).dom)
include hg

theorem afterEncode_trails (r : Req) : Trails d (afterEncode go r s).dom := by
  unfold afterEncode
  (repeat' split) <;> simp [h, hg, searchAway_trails]

theorem afterSearch_trails (r : Req) : Trails d (afterSearch go r s).dom := by
  have counted := fun r m => mergeCounted_trails (r := r) (m := m) h
  unfold afterSearch
  dsimp only
  split <;> simp [counted, hg]

theorem afterPhase_trails (r : Req) : Trails d (afterPhase go r s).dom := by
  unfold afterPhase
  split
  · exact partSearched_trails h r
  · exact partReranked_trails h r
  · exact afterEncode_trails h hg r
  · exact afterSearch_trails h hg r
  · exact afterRerank_trails h r
  · simpa using h
  · simpa using h

end

theorem advance_trails (n : Nat) (r : Req) : Trails d (advance n r s).dom := by
  induction n generalizing r s with
  | zero => exact h
  | succ n ih =>
    unfold advance
    split
    · exact afterPhase_trails h (fun r h => ih h r) r
    · simpa using h

theorem localPrompt_trails (r : Req) : Trails d (localPrompt r s).dom := by
  unfold localPrompt
  dsimp only
  (repeat' split) <;> simp [h, advance_trails]

theorem expire_trails (r : Req) : Trails d (expire r s).dom := by
  have counted := fun r m => mergeCounted_trails (r := r) (m := m) h
  unfold expire
  dsimp only
  (repeat' split) <;> simp [counted]

theorem claimDecode_trails (r : Req) : Trails d (claimDecode r s).dom := by
  unfold claimDecode
  dsimp only
  split
  · simpa using h
  · refine trails_ite (by simpa using h) (trails_ite ?_ (advance_trails ?_ _ _))
    · exact (finish_dom ..).symm ▸ h
    · exact h

/-- A mutation is owed to the members that have not been removed (R477). -/
theorem sendMutation_trails (r : Req) : Trails d (sendMutation r s).dom := by
  have owes (es : List ShardEnt) : Trails d { s.dom with
      owed := s.dom.owed ++ (es.flatMap fun e => (liveReplicas s e).map fun n => (r.ticket, e.shard, n)) } := by
    refine ⟨h.1, fun x isX => (List.mem_append.1 isX).elim (h.2 x) fun added => Or.inr ?_⟩
    obtain ⟨e, -, isN⟩ := List.mem_flatMap.1 added
    obtain ⟨n, live, rfl⟩ := List.mem_map.1 isN
    exact (live_of_roster h.1 n).symm.trans (List.mem_filter.1 live).2
  unfold sendMutation
  split
  · exact h
  · dsimp only
    split
    · simpa using h
    · rw [foldl_dom (fun s x => sendWork_dom ..)]
      exact owes _

/-! ### TABLE_PUBLISH (R269) -/

theorem publishPoint_trails (r : Req) (b : Publication) : Trails d (publishPoint r b s).dom := by
  refine stamped_trails (fun s t h => ?_) h
  dsimp only
  (repeat' split) <;> simp [h]

theorem publishCollect_trails (b : Publication) : Trails d (publishCollect b s).dom := by
  unfold publishCollect
  dsimp only
  split
  · exact h
  · split
    · simpa using h
    · exact publishPoint_trails (s := setPub _ s) h _ _

theorem publishStart_trails (r : Req) : Trails d (publishStart r s).dom := by
  unfold publishStart
  split
  · simpa using h
  · split
    · simpa using h
    · have asked {c : Prop} [Decidable c] (b : Publication) {u : State} (h : Trails d u.dom) :
          Trails d (if c then publishCollect b u else u).dom := trails_ite (publishCollect_trails h b) h
      refine trails_ite (by simpa using h) (asked _ ?_)
      rw [sendEach_dom]
      exact h

/-! ### A request begins (R36, R80, R140) -/

theorem begin'_trails (r : Req) : Trails d (begin' r s).dom := by
  unfold begin'
  refine trails_ite h ?_
  split
  · exact h
  · exact h
  · exact h
  · exact trails_ite (searchAway_trails h _) (trails_ite (by simpa using h) (advance_trails (s := setReq _ s) h _ _))
  · exact trails_ite (rerankAway_trails h _) h
  · exact trails_ite (by simpa using h) (localPrompt_trails h _)
  · exact trails_ite (by simpa using h) (claimDecode_trails h _)
  · exact trails_ite (sendMutation_trails h _) h
  · exact trails_ite (sendMutation_trails h _) h
  · exact trails_ite (sendMutation_trails h _) h
  · exact trails_ite (publishStart_trails h _) h

theorem beginWork_trails (r : Req) : Trails d (beginWork r s).dom := by
  unfold beginWork
  refine trails_ite h ?_
  split
  · exact trails_ite (rerankAway_trails h _) (advance_trails (s := setReq _ s) h _ _)
  · exact trails_ite h h
  · split
    · exact trails_ite (searchAway_trails h _) (trails_ite (by simpa using h) (advance_trails (s := setReq _ s) h _ _))
    · exact trails_ite (searchAway_trails h _) (trails_ite (by simpa using h) (advance_trails (s := setReq _ s) h _ _))
    · exact claimDecode_trails h _
    · exact h
    · exact h
    · exact h
    · simpa using h

theorem acceptDone_trails (r : Req) : Trails d (acceptDone r s).dom := by
  unfold acceptDone
  split
  · dsimp only
    split
    · simpa using h
    · exact trails_ite (expire_trails (by exact h) _) (trails_ite (by simpa using h) (begin'_trails (by exact h) _))
  · exact h

theorem wakeEpoch_trails : Trails d (wakeEpoch s).dom :=
  trails_foldl (fun _ r h => trails_ite (beginWork_trails h r) (begin'_trails h r)) h _

theorem resumeWork_trails : Trails d (resumeWork s).dom := by
  have again (e : JEntry) {s : State} (h : Trails d s.dom) : Trails d (reissueEntry e s).dom := by
    unfold reissueEntry
    dsimp only
    split
    · simpa using h
    · exact begin'_trails (by exact h) _
  exact trails_foldl (fun _ e h => trails_ite h (again e h)) h _

theorem resumeJournal_trails : Trails d (resumeJournal s).dom := resumeWork_trails (by simpa using h)

/-! ### Swaps and the mirror (R82, R94, R98, R140, R142) -/

theorem swapBoundary_trails (first count : Nat) (point : Option Ticket) : Trails d (swapBoundary first count point s).dom := by
  unfold swapBoundary
  split
  · exact h
  · refine stamped_trails (fun s t h => wakeEpoch_trails (trails_ite ?_ ?_)) h
    all_goals dsimp only; (repeat' split) <;> simp [h]

theorem swapStart_trails (t : Ticket) (first count : Nat) (point : Option Ticket) : Trails d (swapStart t first count point s).dom := by
  unfold swapStart
  dsimp only
  (repeat' split) <;> simp [h, swapBoundary_trails]

theorem domCommitSend_trails (w : DomSwap) (point : Ticket) : Trails d (domCommitSend w point s).dom :=
  swapStart_trails (by simpa using h) _ _ _ _

theorem commitPrepared_trails (epoch : Nat) (point : Ticket) : Trails d (commitPrepared epoch point s).dom := by
  unfold commitPrepared
  (repeat' split) <;> simp [h, swapStart_trails, jobFault_trails]

theorem resolveSwap_trails : Trails d (resolveSwap s).dom := by
  have dropped (ms : List Node) {s : State} (h : Trails d s.dom) : Trails d (resolveSwap.drop ms s).dom := by
    unfold resolveSwap.drop
    split <;> simp [h]
  unfold resolveSwap
  dsimp only
  (repeat' split) <;> simp [h, dropped, commitPrepared_trails]

theorem entryDone_trails (pos : W64) : Trails d (entryDone pos s).dom := by
  unfold entryDone
  have accepted := trails_foldl (f := fun s r => acceptDone r s) (fun _ r h => acceptDone_trails h r) h
    (s.job.reqs.filter fun r => match r.place with
      | .acceptance p _ _ _ => p == pos
      | _ => false)
  have sent (u : State) (h : Trails d u.dom) : Trails d (match u.gth.pubs.find? (fun b : Publication => b.pos == some pos) with
      | some b => publishSend b u
      | none => u).dom := by
    split
    · simpa using h
    · exact h
  have committed (u : State) (h : Trails d u.dom) : Trails d (match u.cfg.domSwap with
      | some w => match w.point with
        | some (t, p) => if p = pos then domCommitSend w t u else u
        | none => u
      | none => u).dom := by
    split
    · split
      · exact trails_ite (domCommitSend_trails h _ _) h
      · exact h
    · exact h
  exact committed _ (sent _ accepted)

theorem goSolo_trails : Trails d (goSolo s).dom := by
  have alone : Trails d (stamped { s with wb.solo := true, wb.mirrorOk := false, wb.mirrorWait := [] }
      fun s t => event t 0x53 devLoc 0 2 0 0 [] s).dom := stamped_trails (fun s t h => by simpa using h) h
  exact trails_foldl (fun _ p h => entryDone_trails h p) alone _

end

end Sys2Proof.Machine

/-! SUPPORT. Heartbeats: what is heard of a member, what its silence brings, and the takeover (18 R474, R477 to R483, R490). -/

namespace Sys2Proof.Machine

/-! ### Members as they are heard (R478) -/

theorem findMember_congr {s t : State} (same : s.dom = t.dom) (n : Node) : findMember s n = findMember t n := by
  simp only [findMember, same]

/-- How a member that this device knows stands. -/
def memberState (s : State) (n : Node) : Option MemberState := (findMember s n).map (·.state)

theorem memberState_roster (s : State) (n : Node) : memberState s n = (s.dom.roster.members.find? (·.node == n)).map (·.state) := by
  simp only [memberState, findMember, Dom.roster, List.find?_map, Option.map_map]; rfl

theorem memberState_trails {s u : State} (h : Trails s.dom u.dom) (n : Node) : memberState u n = memberState s n := by
  rw [memberState_roster, memberState_roster, h.1]

theorem findMember_of_memberState {s : State} {n : Node} {st : MemberState} (is : memberState s n = some st) :
    ∃ v, findMember s n = some v ∧ v.state = st := by
  simpa [memberState] using is

/-- What a member reports, as this device keeps it. -/
def Member.reported (m : Member) (h : Heartbeat) (now : Nat) : Member :=
  { m with heard := now, beat := some h, role := h.role, restoring := h.restoring }

theorem hearPeer_frame (src : Node) (h : Heartbeat) (s : State) : hearPeer src h s = { s with dom := { s.dom with
    members := (hearPeer src h s).dom.members, sinceMgr := (hearPeer src h s).dom.sinceMgr } } := by
  unfold hearPeer
  dsimp only
  split <;> rfl

theorem findMember_hearPeer {src : Node} {s : State} {m : Member} (known : findMember s src = some m) (h : Heartbeat) :
    findMember (hearPeer src h s) src = some (m.reported h s.now) := by
  have keep (x : Member) : (if x.node = src then x.reported h s.now else x).node = x.node := by split <;> rfl
  have heard : findMember (hearPeer src h s) src =
      findMember { s with dom.members := s.dom.members.map fun x => if x.node = src then x.reported h s.now else x } src := by
    unfold hearPeer
    dsimp only
    split <;> rfl
  rw [heard, findMember_map keep, known, Option.map_some, if_pos (findMember_node known)]

theorem pairFrom_frame (src : Node) (h : Heartbeat) (s : State) : pairFrom src h s = { s with dom := { (pairFrom src h s).dom with
    members := s.dom.members } } := by
  unfold pairFrom
  (repeat' split) <;> rfl

theorem sendEach_out (dsts : List Node) (t : Ticket) (m : Msg) (s : State) :
    (sendEach dsts t m s).out = s.out ++ dsts.map fun n => (s.now, ⟨n, myNode s, 0, t, m⟩) := by
  induction dsts generalizing s with
  | nil => exact (List.append_nil _).symm
  | cons n dsts ih => exact (ih (send n 0 t m s)).trans (by simp [send, myNode])

section
variable {s : State} (run : Runs s)
include run

theorem exec_beatTimer : exec .beatTimer s = .next
    (if role s = 0 ∨ role s = 1 then sendEach (beatPeers s) 0 (.heartbeat 0 (myBeat s)) s else s) := by
  refine congrArg _ ((whenServing_pos run.1 _).trans ?_)
  simp only [Bool.or_eq_true, decide_eq_true_eq]

section
variable (src : Node) (h : Heartbeat)

theorem exec_beat : exec (.beat src h) s = .next (if role s = 5 then ticked s
    else send src 0 0 (.heartbeat 1 (myBeat (hearPeer src h (pairFrom src h (knowMember src 0 .up (ticked s))))))
      (hearPeer src h (pairFrom src h (knowMember src 0 .up (ticked s))))) :=
  congrArg _ (whenServing_stamped run _)

theorem exec_probe : exec (.probe src h) s = .next (if role s = 5 then ticked s
    else send src 0 0 (.heartbeat 1 (myBeat (hearPeer src h (ticked s)))) (hearPeer src h (ticked s))) :=
  congrArg _ (whenServing_stamped run _)

/-- A BEAT makes its sender known, notes what it reports and is answered. -/
theorem exec_beat_heard (member : role s ≠ 5) : ∃ u b m, exec (.beat src h) s = .next u ∧
    u.out = s.out ++ [(s.now, ⟨src, myNode s, 0, 0, .heartbeat 1 b⟩)] ∧
    findMember u src = some m ∧ m.heard = s.now ∧ m.beat = some h ∧ m.role = h.role := by
  obtain ⟨m, known⟩ := Option.isSome_iff_exists.1
    (findMember_knowMember (s := ticked s) (k := src) (uid := 0) (st := .up) (Or.inr (rfl : src = src)))
  have paired : findMember (pairFrom src h (knowMember src 0 .up (ticked s))) src = some m := by
    rw [pairFrom_frame]; exact known
  have now : (pairFrom src h (knowMember src 0 .up (ticked s))).now = s.now := by rw [pairFrom_frame, knowMember_frame]; rfl
  refine ⟨_, myBeat (hearPeer src h (pairFrom src h (knowMember src 0 .up (ticked s)))), _, (exec_beat run src h).trans (congrArg _ (if_neg member)), ?_, findMember_hearPeer paired h, now, rfl, rfl⟩
  rw [hearPeer_frame, pairFrom_frame, knowMember_frame]
  rfl

theorem exec_probe_heard (member : role s ≠ 5) {m : Member} (known : findMember s src = some m) :
    ∃ u b, exec (.probe src h) s = .next u ∧ u.out = s.out ++ [(s.now, ⟨src, myNode s, 0, 0, .heartbeat 1 b⟩)] ∧
      findMember u src = some { m with heard := s.now, beat := some h, role := h.role, restoring := h.restoring } := by
  refine ⟨_, myBeat (hearPeer src h (ticked s)), (exec_probe run src h).trans (congrArg _ (if_neg member)), ?_, findMember_hearPeer (s := ticked s) known h⟩
  rw [hearPeer_frame]
  rfl

end

/-! ### Silence (R479, R480) -/

section
variable {n : Node} {m : Member} (known : findMember s n = some m)
include known

theorem exec_peerSuspect : exec (.peerSuspect n) s = .next (if m.state = .up ∧ past s m.heard 3000000 = true then
    send n 0 0 (.heartbeat 2 (myBeat s)) (setMember { m with state := .suspect, probed := true } s) else s) := by
  refine congrArg _ ((whenServing_pos run.1 _).trans ?_)
  rw [known]
  simp only [Bool.and_eq_true, decide_eq_true_eq]

/-- The device once it has found a member lost. -/
def lostAt (n : Node) (m : Member) (s : State) : State :=
  event (ticketNext s) 0x51 (peerLoc n) 0 2 9 0 []
    (setMember { m with state := .lost, inJob := false, probed := false } { ticked s with dom.memberLost := satInc s.dom.memberLost })

theorem exec_peerLost : exec (.peerLost n) s = .next (if m.state = .suspect ∧ past s m.heard 6000000 = true then
    tryTakeover (mirrorGone n (if isManager (lostAt n m s) then absorbLoss n (lostAt n m s) else lostAt n m s)) else s) := by
  refine congrArg _ ((whenServing_pos run.1 _).trans ?_)
  rw [known]
  simp only [Bool.and_eq_true, decide_eq_true_eq, stamped_ticked run.2]
  rfl

omit run in
theorem findMember_lostAt : findMember (lostAt n m s) n = some { m with state := .lost, inJob := false, probed := false } := by
  have node := findMember_node known
  have found := findMember_setMember (s := { ticked s with dom.memberLost := satInc s.dom.memberLost })
    (m := { m with state := .lost, inJob := false, probed := false }) known node
  exact (findMember_congr (event_dom ..) n).trans found

end
end

/-! ### The mirror and the takeover (R142, R483) -/

/-- The loss of the mirror is noted, and what waited for it goes on. -/
theorem mirrorGone_trails (n : Node) (s : State) : ∃ mirror, Trails { s.dom with mirrorNode := mirror } (mirrorGone n s).dom := by
  unfold mirrorGone
  split
  · dsimp only
    split
    · exact ⟨none, Trails.refl _⟩
    · exact ⟨none, goSolo_trails (Trails.refl _)⟩
  · exact ⟨s.dom.mirrorNode, Trails.refl _⟩

theorem memberState_mirrorGone (n : Node) (s : State) (k : Node) : memberState (mirrorGone n s) k = memberState s k := by
  obtain ⟨mirror, left⟩ := mirrorGone_trails n s
  exact memberState_trails (s := { s with dom.mirrorNode := mirror }) left k

/-- A mirror that makes itself the manager. -/
def becomesManager (s : State) : State :=
  { s with
    dom.mgrEpoch := s.dom.mgrEpoch + 1, dom.override := some 0, dom.takeovers := satInc s.dom.takeovers, dom.mgrNode := some (myNode s)
    dom.mirrorNode := none
    dom.members := s.dom.members.map fun m => { m with inJob := m.state == .up && (m.beat.map fun b => b.jobState == 1).getD false }
    wb.solo := true, wb.mirrorOk := false, wb.mirrorWait := [] }

theorem takeOver_eq (s : State) : takeOver s = stamped s fun v t =>
    let u := (journal 6 t 0 [] (event t 0x52 devLoc 0 1 0 ((v.dom.mgrEpoch + 1).zeroExtend 64) [] (becomesManager v))).1
    resumeJournal (resolveSwap (sendEach (beatPeers u) 0 (.heartbeat 3 (myBeat u)) u)) := rfl

theorem roster_becomesManager (s : State) : (becomesManager s).dom.roster = { s.dom.roster with
    mgrEpoch := s.dom.mgrEpoch + 1, takeovers := satInc s.dom.takeovers, mgrNode := some (myNode s), mirrorNode := none } := by
  simp only [becomesManager, Dom.roster, List.map_map]
  rfl

/-- A takeover changes the manager, its epoch and its counts, and no member but for its part in the job. -/
theorem takeOver_roster (s : State) : (takeOver s).dom.roster = { s.dom.roster with
    mgrEpoch := s.dom.mgrEpoch + 1, takeovers := satInc s.dom.takeovers, mgrNode := some (myNode s), mirrorNode := none } := by
  have stamps : (stamp s).1.dom.roster = s.dom.roster := (trails_of_plant (plant_stamp s)).1
  have node : myNode (stamp s).1 = myNode s := by simp only [myNode, lnk_of_plant (plant_stamp s)]
  have epoch : (stamp s).1.dom.mgrEpoch = s.dom.mgrEpoch := congrArg (·.mgrEpoch) stamps
  have count : (stamp s).1.dom.takeovers = s.dom.takeovers := congrArg (·.takeovers) stamps
  rw [takeOver_eq, ← stamps, ← node, ← epoch, ← count, ← roster_becomesManager]
  refine (resumeJournal_trails (resolveSwap_trails ?_)).1
  rw [sendEach_dom, journal_dom, event_dom]
  exact Trails.refl _

/-- The manager that a domain's roster names. -/
theorem manager_of_roster {d e : Dom} {epoch : W32} {count : Byte} {manager mirror : Option Node} (same : d.roster = { e.roster with
    mgrEpoch := epoch, takeovers := count, mgrNode := manager, mirrorNode := mirror }) :
    d.mgrEpoch = epoch ∧ d.mgrNode = manager ∧ d.takeovers = count :=
  ⟨congrArg (·.mgrEpoch) same, congrArg (·.mgrNode) same, congrArg (·.takeovers) same⟩

theorem memberState_tryTakeover (s : State) (k : Node) : memberState (tryTakeover s) k = memberState s k := by
  unfold tryTakeover
  split
  · split
    · rw [memberState_roster, memberState_roster, takeOver_roster]
    · rfl
  · rfl

section
variable {s : State} {n : Node} {m : Member} (run : Runs s) (known : findMember s n = some m)
include run known

/-- A member found lost stays lost, whatever its loss brings. -/
theorem exec_peerLost_lost (suspect : m.state = .suspect) (late : past s m.heard 6000000 = true) :
    ∃ u v, exec (.peerLost n) s = .next u ∧ findMember u n = some v ∧ v.state = .lost := by
  have lost : memberState (tryTakeover (mirrorGone n (if isManager (lostAt n m s) then absorbLoss n (lostAt n m s) else lostAt n m s))) n =
      some .lost := by
    rw [memberState_tryTakeover, memberState_mirrorGone, memberState, findMember_congr (dom_ite (absorbLoss_dom n _) rfl),
      findMember_lostAt known]
    rfl
  obtain ⟨v, found, isLost⟩ := findMember_of_memberState lost
  exact ⟨_, v, (exec_peerLost run known).trans (congrArg _ (if_pos ⟨suspect, late⟩)), found, isLost⟩

omit run known in
theorem role_lostAt : role (lostAt n m s) = role s := by
  unfold role
  rw [lostAt, event_dom, event_cfg]
  rfl

omit run known in
theorem lostAt_manages : (lostAt n m s).dom.mgrEpoch = s.dom.mgrEpoch ∧ (lostAt n m s).dom.takeovers = s.dom.takeovers ∧
    myNode (lostAt n m s) = myNode s := by
  refine ⟨?_, ?_, ?_⟩
  · rw [lostAt, event_dom]; rfl
  · rw [lostAt, event_dom]; rfl
  · unfold myNode; rw [lostAt, event_frame]; rfl

omit run known in
theorem mirrorGone_other (notManager : role s ≠ 0) : mirrorGone n s = s := by
  have other : isManager s = false := by simpa [isManager] using notManager
  unfold mirrorGone
  exact if_neg (by simp [other])

omit run known in
theorem tryTakeover_other (notMirror : role s ≠ 1) : tryTakeover s = s := by
  unfold tryTakeover
  split
  · exact if_neg (by simp [notMirror])
  · rfl

/-- On a device that is not the manager, what a loss brings is a takeover at most. -/
theorem exec_peerLost_member (suspect : m.state = .suspect) (late : past s m.heard 6000000 = true) (notManager : role s ≠ 0) :
    exec (.peerLost n) s = .next (tryTakeover (lostAt n m s)) := by
  have notManager' : role (lostAt n m s) ≠ 0 := role_lostAt.trans_ne notManager
  refine (exec_peerLost run known).trans (congrArg _ ((if_pos ⟨suspect, late⟩).trans ?_))
  rw [if_neg (by simpa [isManager] using notManager'), mirrorGone_other notManager']

/-- A mirror that finds its manager lost, and that no member it hears contradicts, takes over (R483). -/
theorem exec_peerLost_takesOver (suspect : m.state = .suspect) (mirror : role s = 1) (manager : s.dom.mgrNode = some n)
    (late : past s m.heard 6000000 = true) (room : s.dom.mgrEpoch ≠ 0xFFFFFFFF)
    (silent : ∀ x ∈ ownMembers s, x.node ≠ n → x.state = .up ∨ x.state = .suspect → ∀ b, x.beat = some b → 3000 ≤ b.sinceMgrUs) :
    exec (.peerLost n) s = .next (takeOver (lostAt n m s)) := by
  have dom : (lostAt n m s).dom = (setMember { m with state := .lost, inJob := false, probed := false }
      { ticked s with dom.memberLost := satInc s.dom.memberLost }).dom := event_dom ..
  have node := (lostAt_manages (n := n) (m := m) (s := s)).2.2
  have quiet : managerSilent (lostAt n m s) n = true := by
    unfold managerSilent ownMembers
    rw [dom, node, List.all_eq_true]
    intro x isX
    obtain ⟨isX, own⟩ := List.mem_filter.1 isX
    obtain ⟨y, isY, rfl⟩ := List.mem_map.1 isX
    by_cases same : y.node = m.node
    · simp [same, findMember_node known]
    · rw [if_neg same] at own ⊢
      have heard := silent y (List.mem_filter.2 ⟨isY, own⟩) (findMember_node known ▸ same)
      cases beat : y.beat with
      | none => simp
      | some b =>
        by_cases present : y.state = .up ∨ y.state = .suspect
        · simp [heard present b beat]
        · obtain ⟨up, suspect⟩ := not_or.1 present
          simp [up, suspect]
  refine (exec_peerLost_member run known suspect late (by omega)).trans (congrArg _ ?_)
  have manager' : (lostAt n m s).dom.mgrNode = some n := by rw [dom]; exact manager
  have room' : (lostAt n m s).dom.mgrEpoch ≠ 0xFFFFFFFF := by rw [dom]; exact room
  unfold tryTakeover
  rw [manager']
  refine if_pos ?_
  simpa [role_lostAt, mirror, findMember_lostAt known, quiet] using room'

end

/-! ### REPLY (R479) -/

@[simp] theorem resumeReads_cfg (s : State) : (resumeReads s).cfg = s.cfg := by
  refine foldl_leaves State.cfg (fun s r => ?_) _ s
  unfold resumeRead
  split
  · refine foldl_leaves State.cfg (fun s x => ?_) _ s
    dsimp only
    unfold sendWork
    (repeat' split) <;> rfl
  · rfl

theorem role_congr {s t : State} (override : s.dom.override = t.dom.override) (cfg : s.cfg = t.cfg) : role s = role t := by
  simp only [role, override, cfg]

/-- A member that becomes UP is found so. -/
theorem memberUp_found {s : State} {n : Node} {m : Member} (known : findMember s n = some m) :
    findMember (memberUp n s) n = some { m with state := .up, probed := false } := by
  have node := findMember_node known
  unfold memberUp
  rw [known]
  exact (findMember_congr (resumeReads_dom _) n).trans (findMember_setMember known node)

/-- A member that becomes UP leaves the domain but for the members, and the plan sets. -/
theorem memberUp_frame (n : Node) (s : State) : (memberUp n s).cfg = s.cfg ∧
    (memberUp n s).dom = { s.dom with members := (memberUp n s).dom.members } := by
  unfold memberUp
  split
  · rw [resumeReads_cfg, resumeReads_dom]
    exact ⟨rfl, rfl⟩
  · exact ⟨rfl, rfl⟩

/-- What a REPLY brings on a device that is not the mirror, from a member that is not one. -/
theorem reply_settles {s : State} {src : Node} {h : Heartbeat} (peer : h.role ≠ 1) (notMirror : role s ≠ 1) :
    tryTakeover (mirrorFrom src h s) = s := by
  have same : mirrorFrom src h s = s := by
    unfold mirrorFrom
    exact if_neg (by simp [peer])
  rw [same, tryTakeover_other notMirror]

section
variable {s : State} {n : Node} {m : Member} {h : Heartbeat} (run : Runs s) (known : findMember s n = some m) (peer : h.role ≠ 1)
  (notMirror : role s ≠ 1)
include run known peer notMirror

theorem exec_reply_up (up : m.state = .up) (sameRole : m.role = h.role) : exec (.reply n h) s = .next (hearPeer n h (ticked s)) := by
  have known' : findMember (ticked s) n = some m := known
  have notMirror' : role (hearPeer n h (ticked s)) ≠ 1 := by
    rwa [role_congr (t := s) (by rw [hearPeer_frame]; rfl) (by rw [hearPeer_frame]; rfl)]
  refine congrArg _ ((whenServing_stamped run _).trans ?_)
  rw [knowMember_known known', ite_self]
  dsimp only
  rw [known']
  dsimp only
  rw [up]
  dsimp only
  rw [if_neg (by simp [sameRole]), reply_settles peer notMirror']

/-- A SUSPECT member that replies is UP again. -/
theorem exec_reply_suspect (suspect : m.state = .suspect) : exec (.reply n h) s = .next (event (ticketNext s) 0x50 (peerLoc n) 0 2 1 0 []
    (memberUp n { hearPeer n h (ticked s) with dom.hbProbeOk := satInc (hearPeer n h (ticked s)).dom.hbProbeOk })) := by
  have known' : findMember (ticked s) n = some m := known
  refine congrArg _ ((whenServing_stamped run _).trans ?_)
  rw [knowMember_known known', ite_self]
  dsimp only
  rw [known']
  dsimp only
  rw [suspect]
  refine reply_settles peer ?_
  obtain ⟨cfg, dom⟩ := memberUp_frame n { hearPeer n h (ticked s) with dom.hbProbeOk := satInc (hearPeer n h (ticked s)).dom.hbProbeOk }
  rwa [role_congr (t := s) (by rw [event_dom, dom, hearPeer_frame]; rfl) (by rw [event_cfg, cfg, hearPeer_frame]; rfl)]

theorem exec_reply_returns (suspect : m.state = .suspect) : ∃ u v, exec (.reply n h) s = .next u ∧ findMember u n = some v ∧
    v.state = .up ∧ v.heard = s.now ∧ u.dom.hbProbeOk = satInc s.dom.hbProbeOk := by
  have heard := findMember_hearPeer (s := ticked s) known h
  refine ⟨_, _, exec_reply_suspect run known peer notMirror suspect, (findMember_congr (event_dom ..) n).trans (memberUp_found heard),
    rfl, rfl, ?_⟩
  rw [event_dom, (memberUp_frame _ _).2, hearPeer_frame]
  rfl

theorem exec_reply_heard (up : m.state = .up) (sameRole : m.role = h.role) : ∃ u v, exec (.reply n h) s = .next u ∧
    findMember u n = some v ∧ v.state = .up ∧ v.heard = s.now ∧ v.beat = some h :=
  ⟨_, _, exec_reply_up run known peer notMirror up sameRole, findMember_hearPeer (s := ticked s) known h, up, rfl, rfl⟩

end

/-! ### HEARTBEAT_TAKEOVER (R474) -/

/-- The requests of a domain answer to its new manager. -/
def newBoss (src : Node) (s : State) : State :=
  { s with
    dom.sinceMgr := s.now
    job.reqs := s.job.reqs.map fun r => if (r.boss.map fun n => nodeDomain n == nodeDomain src).getD false then { r with boss := some src } else r }

section
variable {s : State} {src : Node} {h : Heartbeat} (run : Runs s) (member : role s ≠ 5) (own : nodeDomain src = nodeDomain (myNode s))
include run member own

theorem exec_heartbeatTakeover_stale (stale : h.mgrEpoch ≤ s.dom.mgrEpoch.toNat) : exec (.heartbeatTakeover src h) s = .next (ticked s) := by
  have here : ¬ (nodeDomain src != nodeDomain (myNode s)) = true := by simp [own]
  refine congrArg _ ((whenServing_stamped run _).trans ?_)
  exact (if_neg member).trans ((if_neg here).trans (if_pos stale))

section
variable (newer : s.dom.mgrEpoch.toNat < h.mgrEpoch)
include newer

theorem exec_heartbeatTakeover_manager (manages : isManager s = true) :
    exec (.heartbeatTakeover src h) s = .next { ticked s with dom.superseded := true } := by
  have here : ¬ (nodeDomain src != nodeDomain (myNode s)) = true := by simp [own]
  refine congrArg _ ((whenServing_stamped run _).trans ?_)
  exact (if_neg member).trans ((if_neg here).trans ((if_neg (by exact Nat.not_le.2 newer)).trans (if_pos manages)))

/-- Another device adopts the new manager. -/
theorem exec_heartbeatTakeover_adopts (other : isManager s = false) (range : h.mgrEpoch < 2 ^ 32) :
    ∃ u, exec (.heartbeatTakeover src h) s = .next u ∧ u.dom.mgrEpoch.toNat = h.mgrEpoch ∧ u.dom.mgrNode = some src ∧
      u.dom.sinceMgr = s.now := by
  have here : ¬ (nodeDomain src != nodeDomain (myNode s)) = true := by simp [own]
  have notManager : ¬ isManager s = true := by simp [other]
  have adopts : adoptManager src h.mgrEpoch (ticked s) =
      { ticked s with dom.mgrEpoch := BitVec.ofNat 32 h.mgrEpoch, dom.mgrNode := some src } := if_pos newer
  have epoch : (BitVec.ofNat 32 h.mgrEpoch).toNat = h.mgrEpoch := by simpa using Nat.mod_eq_of_lt range
  have adopted : exec (.heartbeatTakeover src h) s =
      .next (newBoss src (hearPeer src h (knowMember src 0 .up (adoptManager src h.mgrEpoch (ticked s))))) := by
    refine congrArg _ ((whenServing_stamped run _).trans ?_)
    exact (if_neg member).trans ((if_neg here).trans ((if_neg (by exact Nat.not_le.2 newer)).trans (if_neg notManager)))
  refine ⟨_, adopted, ?_⟩
  rw [newBoss, hearPeer_frame, knowMember_frame, adopts]
  exact ⟨epoch, rfl, rfl⟩

end
end

/-! ### MEMBER_REMOVE (R477, R482, R490) -/

theorem removeData_toNat (n : BitVec 10) : (removeData n).toNat = n.toNat + 1024 := by
  have small : n.toNat < 2 ^ 10 := n.isLt
  have whole : n.toNat % 2 ^ 64 = n.toNat := Nat.mod_eq_of_lt (by omega)
  have apart := Nat.two_pow_add_eq_or_of_lt small 1
  simp only [removeData, atBit, BitVec.toNat_or, BitVec.shiftLeft_zero, BitVec.truncate_eq_setWidth, BitVec.toNat_setWidth, whole]
  rw [Nat.or_comm]
  exact apart.symm.trans (by omega)

theorem removeData_fields (n : BitVec 10) : regBits (removeData n) 0 10 = n.toNat ∧ regBits (removeData n) 10 2 = 1 := by
  have small : n.toNat < 2 ^ 10 := n.isLt
  simp only [regBits, bitsOf, removeData_toNat]
  omega

theorem exec_memberRemove {c : Cmd} {n : BitVec 10} {s : State} (g : Granted c s) : exec (.memberRemove c n) s = .next
    (if isManager s = false then taken c rMemberCmd (removeData n) s
    else match memberNo s n.toNat with
      | some m => if m.state = .removed then taken c rMemberCmd (removeData n) s else removeMember m (taken c rMemberCmd (removeData n) s)
      | none => taken c rMemberCmd (removeData n) s) := by
  obtain ⟨member, op⟩ := removeData_fields n
  refine congrArg _ ((mgmtWrite_granted g (by decide) (by decide) _ _).trans ?_)
  unfold memberCommand
  rw [member, op]
  have manager : isManager (taken c rMemberCmd (removeData n) s) = isManager s := rfl
  have named : memberNo (taken c rMemberCmd (removeData n) s) n.toNat = memberNo s n.toNat := rfl
  rw [manager, named]
  cases isManager s <;> rfl

/-- The device once a member is removed and what it was owed is dropped. -/
def droppedAt (m : Member) (s : State) : State :=
  reclaim { setMember { m with state := .removed, inJob := false } s with
    dom.owed := s.dom.owed.filter (·.2.2 != m.node)
    dom.owedDropped := satAdd s.dom.owedDropped (s.dom.owed.filter (·.2.2 == m.node)).length }

/-- What follows a removal leaves the members, and what is owed. -/
theorem removeMember_trails (m : Member) (s : State) : ∃ mirror, Trails { (droppedAt m s).dom with mirrorNode := mirror } (removeMember m s).dom := by
  obtain ⟨mirror, left⟩ := mirrorGone_trails m.node (absorbLoss m.node (droppedAt m s))
  have ends : (removeMember m s).dom = (mirrorGone m.node (absorbLoss m.node (droppedAt m s))).dom :=
    foldl_dom (fun s r => dropHeld_dom r s) _ _
  rw [absorbLoss_dom] at left
  exact ⟨mirror, ends ▸ left⟩

/-- A node that has been removed is no live member. -/
theorem live_droppedAt (m : Member) (s : State) : (droppedAt m s).dom.live m.node = false := by
  refine List.any_eq_false.2 fun x isX => ?_
  obtain ⟨y, -, rfl⟩ := List.mem_map.1 isX
  by_cases same : y.node = m.node <;> simp [same]

/-- A member that is removed is found so, and no mutation is owed to it (R477). -/
theorem removeMember_drops {s : State} {m : Member} (known : m ∈ s.dom.members) :
    (∃ v, findMember (removeMember m s) m.node = some v ∧ v.state = .removed) ∧
      (∀ x ∈ (removeMember m s).dom.owed, x.2.2 ≠ m.node) ∧
      (removeMember m s).dom.owedDropped = satAdd s.dom.owedDropped (s.dom.owed.filter (·.2.2 == m.node)).length := by
  obtain ⟨old, found⟩ : ∃ old, findMember s m.node = some old := by
    cases found : findMember s m.node with
    | some old => exact ⟨old, rfl⟩
    | none => exact absurd (List.find?_eq_none.1 found m known) (by simp)
  obtain ⟨mirror, left⟩ := removeMember_trails m s
  refine ⟨findMember_of_memberState ?_, fun x isX isM => ?_, congrArg (·.owedDropped) left.1⟩
  · rw [memberState_trails (s := { droppedAt m s with dom.mirrorNode := mirror }) left, memberState]
    exact congrArg (Option.map _) (findMember_setMember (m := { m with state := .removed, inJob := false }) found rfl)
  · obtain stood | live := left.2 x isX
    · exact bne_iff_ne.1 (List.mem_filter.1 stood).2 isM
    · exact Bool.false_ne_true ((live_droppedAt m s).symm.trans (isM ▸ live))

/-- Settles O53, by what the work of a domain leaves of its members (`Trails`) and what each heartbeat does. -/
theorem membersAreHeardAndLost : Obligations.MembersAreHeardAndLost := by
  refine ⟨fun s run => ⟨fun leads => ?_, fun notManager notMirror => ?_⟩,
    fun src h s run => ⟨fun alone => ⟨(exec_beat run src h).trans (congrArg _ (if_pos alone)), (exec_probe run src h).trans (congrArg _ (if_pos alone))⟩,
      fun member => ⟨exec_beat_heard run src h member, fun m known => exec_probe_heard run src h member known⟩⟩,
    fun n m s run known => ⟨fun up late => ?_, fun early => ?_, fun suspect late => ⟨exec_peerLost_lost run known suspect late,
      fun notManager notMirror => ?_⟩, fun not => ?_, fun suspect mirror manager late room silent => ?_,
      fun h peer notMirror sameRole => ⟨exec_reply_returns run known peer notMirror, fun up => exec_reply_heard run known peer notMirror up sameRole⟩⟩,
    fun src h s run member own range => ⟨exec_heartbeatTakeover_stale run member own, fun newer =>
      ⟨exec_heartbeatTakeover_manager run member own newer, fun other => exec_heartbeatTakeover_adopts run member own newer other range⟩⟩,
    fun c n s g => ⟨fun nobody => ?_, fun m manages named stays => ?_⟩⟩
  · exact ⟨_, (exec_beatTimer run).trans (congrArg _ (if_pos leads)), sendEach_frame .., sendEach_out ..⟩
  · exact (exec_beatTimer run).trans (congrArg _ (if_neg (by simp [notManager, notMirror])))
  · exact (exec_peerSuspect run known).trans (congrArg _ (if_pos ⟨up, late⟩))
  · exact (exec_peerSuspect run known).trans (congrArg _ (if_neg (by simp [early])))
  · have notMirror' : role (lostAt n m s) ≠ 1 := role_lostAt.trans_ne notMirror
    rw [exec_peerLost_member run known suspect late notManager, tryTakeover_other notMirror']
    rfl
  · refine (exec_peerLost run known).trans (congrArg _ (if_neg fun lost => ?_))
    obtain notSuspect | early := not
    · exact notSuspect lost.1
    · exact Bool.false_ne_true (early.symm.trans lost.2)
  · obtain ⟨epoch, mgr, count⟩ := manager_of_roster (takeOver_roster (lostAt n m s))
    obtain ⟨sameEpoch, sameCount, sameNode⟩ := lostAt_manages (n := n) (m := m) (s := s)
    exact ⟨_, exec_peerLost_takesOver run known suspect mirror manager late room silent, epoch.trans (by rw [sameEpoch]),
      mgr.trans (by rw [sameNode]), count.trans (by rw [sameCount])⟩
  · refine (exec_memberRemove g).trans (congrArg _ ?_)
    obtain other | unknown := nobody
    · exact if_pos other
    · rw [unknown, ite_self]
  · have removes : exec (.memberRemove c n) s = .next (removeMember m (taken c rMemberCmd (removeData n) s)) := by
      refine (exec_memberRemove g).trans (congrArg _ ((if_neg (by simp [manages])).trans ?_))
      rw [named]
      exact if_neg stays
    have known : m ∈ s.dom.members := (List.mem_filter.1 (List.mem_of_find?_eq_some named)).1
    obtain ⟨⟨v, found, removed⟩, owed, dropped⟩ := removeMember_drops (s := taken c rMemberCmd (removeData n) s) known
    exact ⟨_, v, removes, found, removed, owed, dropped⟩

end Sys2Proof.Machine

/-! SUPPORT. Firmware loads, the warm reset that ends one, the operating hours and the board's bus (20 R548, R552; 22 R589, R590, R592). -/

namespace Sys2Proof.Machine

/-! ### Flash that an erase and a mount leave (R502, R512, R513) -/

section
variable {d : Byte} {a b n : Nat} {cs : List Host.Cell}

theorem cellGet_unlisted (unlisted : ∀ c ∈ cs, c.1 ≠ a) : cellGet d cs a = d := by
  induction cs with
  | nil => rfl
  | cons c cs ih =>
    rw [cellGet, if_neg (unlisted c List.mem_cons_self)]
    exact ih fun x isX => unlisted x (List.mem_cons_of_mem _ isX)

/-- An erase leaves what an unlisted cell reads as. -/
theorem cellGet_clear_inside (from' : a ≤ b) (below : b < a + n) : cellGet d (cellsClear a n cs) b = d := by
  refine cellGet_unlisted fun c isC same => ?_
  have kept : c.1 < a ∨ a + n ≤ c.1 := by simpa using (List.mem_filter.1 isC).2
  omega

/-- An erase leaves every cell outside it. -/
theorem cellGet_clear_outside (outside : b < a ∨ a + n ≤ b) : cellGet d (cellsClear a n cs) b = cellGet d cs b := by
  induction cs with
  | nil => rfl
  | cons c cs ih =>
    rw [cellsClear] at ih ⊢
    by_cases kept : c.1 < a ∨ a + n ≤ c.1
    · rw [List.filter_cons_of_pos (by simpa using kept), cellGet, cellGet, ih]
    · rw [List.filter_cons_of_neg (by simpa using kept), ih, cellGet, if_neg (by omega)]

end

/-- A record stands in the sector whose scan finds it. -/
theorem scanSector_addr {cs : List Host.Cell} {base : Nat} (fuel off : Nat) : ∀ r ∈ (scanSector cs base fuel off).1, base ≤ r.addr := by
  induction fuel generalizing off with
  | zero => simp [scanSector]
  | succ fuel ih =>
    intro r isR
    unfold scanSector at isR
    dsimp only at isR
    split at isR
    · simp at isR
    · split at isR
      · simp at isR
      · split at isR
        · obtain rfl | later := List.mem_cons.1 isR
          · exact Nat.le_add_right ..
          · exact ih _ r later
        · simp at isR

theorem ringRecs_addr {flash : List Host.Cell} {r : Found} (isR : r ∈ ringRecs flash) : ringBase ≤ r.addr := by
  obtain ⟨b, isB, found⟩ := List.mem_flatMap.1 (List.mem_filter.1 isR).1
  rw [usedSectors, mem_dedup] at isB
  obtain ⟨c, isC, rfl⟩ := List.mem_map.1 isB
  have inRing : ringBase ≤ c.1 ∧ c.1 < ringEnd := by simpa using (List.mem_filter.1 isC).2
  refine Nat.le_trans ?_ (scanSector_addr _ _ r found)
  have low := inRing.1
  simp only [ringBase, sectorBytes] at low ⊢
  omega

/-- A run of removed records leaves every cell below them. -/
theorem cellGet_removeRecs {a : Nat} {rs : List Found} (above : ∀ r ∈ rs, a < r.addr) {flash : List Host.Cell}
    (wf : cellsWf erased flash = true) : cellGet erased (rs.foldl (fun f r => removeRec r.addr f) flash) a = cellGet erased flash a := by
  induction rs generalizing flash with
  | nil => rfl
  | cons r rs ih =>
    have next := above r List.mem_cons_self
    have rest := ih (fun x isX => above x (List.mem_cons_of_mem _ isX)) (flash := removeRec r.addr flash) (cellPut_wf _ _ wf)
    rw [List.foldl_cons, rest, removeRec, cellGet_put _ _ _ wf, if_neg (by omega)]

/-- A mount of the recorder leaves the flash below the ring. -/
theorem cellGet_mountLog {s : State} {a : Nat} (wf : cellsWf erased s.log.flash = true) (below : a < ringBase) :
    cellGet erased (mountLog s).log.flash a = cellGet erased s.log.flash a := by
  refine cellGet_removeRecs (fun r isR => ?_) wf
  exact Nat.lt_of_lt_of_le below (ringRecs_addr (List.mem_filter.1 isR).1)

/-! ### The warm reset (R544, R545, R552) -/

/-- The parts of the device that a firmware load is about. -/
def fwParts (s : State) : Rst × Job × Log := (s.rst, s.job, s.log)

theorem drainAll_fwParts (s : State) : fwParts (drainAll s) = fwParts s := by
  refine foldl_leaves fwParts (fun s c => ?_) _ s
  exact foldl_leaves fwParts (fun s p => by rw [writeSlot_frame]; rfl) _ s

theorem dropSets_fwParts (s : State) : fwParts (dropSets s) = fwParts s :=
  foldl_leaves fwParts (f := fun s (p : PlanSet) => freeObjects p.serial s) (fun _ _ => rfl) _ _

theorem trainAll_fwParts (s : State) : fwParts (trainAll s) = fwParts s := by
  refine foldl_leaves fwParts (fun s i => ?_) _ s
  unfold startTraining
  split <;> rfl

theorem resumePoint_fwParts (s : State) : fwParts (resumePoint s) = fwParts s := by
  unfold resumePoint
  split
  · dsimp only
    split
    · rw [nextPoint_frame]; rfl
    · rfl
  · rfl

/-- A load that is not under way spoils no image. -/
theorem spoilImage_idle {s : State} (idle : s.rst.fwLoad = none) : spoilImage s = s := if_neg (by simp [idle])

/-- The device in the middle of a warm reset: its logic is reset, its flash stands, and no load is under way. -/
structure Reset (flash : List Host.Cell) (s : State) : Prop where
  idle : s.rst.fwLoad = none
  cause : s.rst.lastReset = 2
  job : s.job = {}
  flash : s.log.flash = flash

theorem Reset.of_parts {flash : List Host.Cell} {s t : State} (h : Reset flash s) (same : fwParts t = fwParts s) : Reset flash t :=
  ⟨(congrArg (·.1.fwLoad) same).trans h.idle, (congrArg (·.1.lastReset) same).trans h.cause, (congrArg (·.2.1) same).trans h.job,
    (congrArg (·.2.2.flash) same).trans h.flash⟩

theorem Reset.recovers {flash : List Host.Cell} {w : State} (h : Reset flash w) (code : Nat) : Reset flash (enterRecovery code w) := by
  obtain ⟨idle, cause, job, flash⟩ := h
  have trained := trainAll_fwParts { w with
    life := .recovery, rst.fwCode := BitVec.ofNat 8 code, rst.buildId := 0, sec.rollbackImage := 0
    sec.sigFailFw := if code = 2 then satInc w.sec.sigFailFw else w.sec.sigFailFw }
  refine Reset.of_parts (t := enterRecovery code w) ?_ trained
  exact ⟨idle, cause, job, flash⟩

/-- The logic is reset for a firmware load, and the ports train. -/
def resetForFirmware (lost : State → Coll → Bool) (s : State) : State :=
  { trainAll (warmLogic (cutPrograms (resetResident (lost s) s))) with rst.lastReset := 2 }

theorem resetForFirmware_reset (lost : State → Coll → Bool) (s : State) : Reset s.log.flash (resetForFirmware lost s) := by
  have trained := trainAll_fwParts (warmLogic (cutPrograms (resetResident (lost s) s)))
  exact ⟨congrArg (·.1.fwLoad) trained, rfl, congrArg (·.2.1) trained, congrArg (·.2.2.flash) trained⟩

/-- The device where a warm reset has stopped its work. -/
def stopped (s : State) : State :=
  let v := if serving s then (stamp s).1 else s
  dropSets (spoilImage (drainAll (v.haul.moves.foldl (fun s m => switchPage m s) v)))

theorem warmReset_eq (lost : State → Coll → Bool) (s : State) : warmReset 2 lost s =
    let w := resetForFirmware lost (stopped s)
    let code := fwCheck w.sec.slots w.sec.rollbackMin (flashRead w)
    if code != 0 then enterRecovery code w else resumePoint (resumeHeld (mountLog { firmwareStarts w with life := .ready })) := rfl

theorem stopped_flash {s : State} (room : s.wb.seq.toNat < 0xFFF000000000) (idle : s.rst.fwLoad = none) (still : s.haul.moves = []) :
    (stopped s).log.flash = s.log.flash := by
  obtain ⟨v, isV⟩ : ∃ v, v = if serving s then (stamp s).1 else s := ⟨_, rfl⟩
  have stamped : fwParts v = fwParts s ∧ v.haul.moves = [] := by
    rw [isV, stamp_below room]
    split <;> exact ⟨rfl, still⟩
  have drained : fwParts (drainAll v) = fwParts s := (drainAll_fwParts v).trans stamped.1
  have noLoad : (drainAll v).rst.fwLoad = none := (congrArg (·.1.fwLoad) drained).trans idle
  unfold stopped
  dsimp only
  rw [← isV, stamped.2, List.foldl_nil, spoilImage_idle noLoad]
  exact congrArg (·.2.2.flash) ((dropSets_fwParts _).trans drained)

/-- A warm reset that ends a firmware load leaves the flash below the ring. -/
theorem warmReset_leaves (lost : State → Coll → Bool) {s : State} (room : s.wb.seq.toNat < 0xFFF000000000) (idle : s.rst.fwLoad = none)
    (still : s.haul.moves = []) (wf : cellsWf erased s.log.flash = true) :
    (warmReset 2 lost s).rst.fwLoad = none ∧ (warmReset 2 lost s).rst.lastReset = 2 ∧ (warmReset 2 lost s).job = {} ∧
      ∀ a < ringBase, cellGet erased (warmReset 2 lost s).log.flash a = cellGet erased s.log.flash a := by
  have reset := resetForFirmware_reset lost (stopped s)
  rw [stopped_flash room idle still] at reset
  rw [warmReset_eq]
  generalize resetForFirmware lost (stopped s) = w at reset
  dsimp only
  split
  · obtain ⟨noLoad, cause, job, flash⟩ := reset.recovers (fwCheck w.sec.slots w.sec.rollbackMin (flashRead w))
    exact ⟨noLoad, cause, job, fun a _ => by rw [flash]⟩
  · obtain ⟨noLoad, cause, job, flash⟩ := reset
    have parts := resumePoint_fwParts (resumeHeld (mountLog { firmwareStarts w with life := .ready }))
    refine ⟨(congrArg (·.1.fwLoad) parts).trans noLoad, (congrArg (·.1.lastReset) parts).trans cause, (congrArg (·.2.1) parts).trans job,
      fun a below => ?_⟩
    have mounted := cellGet_mountLog (s := { firmwareStarts w with life := .ready }) (a := a) (flash ▸ wf) below
    exact (congrArg (cellGet erased · a) (congrArg (·.2.2.flash) parts)).trans (mounted.trans (congrArg (cellGet erased · a) flash))

/-! ### FIRMWARE_LOAD (R552) -/

theorem hi32_fields (n : W32) : regBit (hi32 n ||| 1) 0 = true ∧ regBits (hi32 n ||| 1) 32 32 = n.toNat := by
  have low : regBit (hi32 n ||| 1) 0 = true := by simp [regBit, hi32, atBit]
  have high : (hi32 n ||| 1).extractLsb' 32 32 = n := by ext i hi; simp [hi32, atBit]; grind
  rw [regBits_toNat, high]
  exact ⟨low, rfl⟩

section
variable {c : Cmd} {n : W32} {s : State} (g : Granted c s)
include g

theorem exec_firmwareLoad : exec (.firmwareLoad c n) s = .next (fwCommand (hi32 n ||| 1) (taken c rFwCmd (hi32 n ||| 1) s)) :=
  congrArg _ (mgmtWrite_granted g (by decide) (by decide) _ _)

theorem fwCommand_awake : ¬ (!regBit (hi32 n ||| 1) 0 || decide ((taken c rFwCmd (hi32 n ||| 1) s).pwr.state = 4)) = true := by
  have awake : (taken c rFwCmd (hi32 n ||| 1) s).pwr.state ≠ 4 := (serving_awake g.1).2
  rw [(hi32_fields n).1, decide_eq_false awake]
  exact Bool.false_ne_true

theorem exec_firmwareLoad_job (open' : s.job.phase ≠ 0) :
    exec (.firmwareLoad c n) s = .next { taken c rFwCmd (hi32 n ||| 1) s with rst.fwCode := 6 } := by
  have busy : ((taken c rFwCmd (hi32 n ||| 1) s).job.phase != 0) = true := by simpa using open'
  exact (exec_firmwareLoad g).trans (congrArg _ ((if_neg (fwCommand_awake g)).trans (if_pos busy)))

section
variable (idle : s.job.phase = 0)
include idle

theorem exec_firmwareLoad_busy (busy : s.cfg.load ≠ none ∨ s.rst.fwLoad ≠ none) :
    exec (.firmwareLoad c n) s = .next { taken c rFwCmd (hi32 n ||| 1) s with rst.fwCode := 5 } := by
  have noJob : ¬ ((taken c rFwCmd (hi32 n ||| 1) s).job.phase != 0) = true := by simpa using idle
  have loads : ((taken c rFwCmd (hi32 n ||| 1) s).cfg.load.isSome || (taken c rFwCmd (hi32 n ||| 1) s).rst.fwLoad.isSome) = true := by
    simpa [Option.isSome_iff_ne_none] using busy
  exact (exec_firmwareLoad g).trans (congrArg _ ((if_neg (fwCommand_awake g)).trans ((if_neg noJob).trans (if_pos loads))))

variable (noPlan : s.cfg.load = none) (noLoad : s.rst.fwLoad = none)
include noPlan noLoad

/-- What a load of its own makes of the image that is staged. -/
theorem exec_firmwareLoad_reads : exec (.firmwareLoad c n) s = .next
    (match (if s.rst.stagingAbsent || decide (n.toNat < 65536) || decide (33554432 < n.toNat) then none
      else (stagingRead s n.toNat).toOption) with
    | none => { taken c rFwCmd (hi32 n ||| 1) s with rst.fwCode := 1 }
    | some img =>
      let code := if u32 img 8 = n.toNat then fwCheck s.sec.slots s.sec.rollbackMin (fun k => img.take k) else 1
      if code != 0 then { taken c rFwCmd (hi32 n ||| 1) s with
        rst.fwCode := BitVec.ofNat 8 code
        sec.sigFailFw := if code = 2 then satInc s.sec.sigFailFw else s.sec.sigFailFw }
      else { taken c rFwCmd (hi32 n ||| 1) s with rst.fwLoad := some (s.now, img), rst.fwCode := 0 }) := by
  have noJob : ¬ ((taken c rFwCmd (hi32 n ||| 1) s).job.phase != 0) = true := by simpa using idle
  have free : ¬ ((taken c rFwCmd (hi32 n ||| 1) s).cfg.load.isSome || (taken c rFwCmd (hi32 n ||| 1) s).rst.fwLoad.isSome) = true := by
    simp [noPlan, noLoad]
  refine (exec_firmwareLoad g).trans (congrArg _ ((if_neg (fwCommand_awake g)).trans ((if_neg noJob).trans ((if_neg free).trans ?_))))
  dsimp only
  have read : stagingRead (taken c rFwCmd (hi32 n ||| 1) s) n.toNat = stagingRead s n.toNat := rfl
  rw [(hi32_fields n).2, read]
  rfl

theorem exec_firmwareLoad_range (range : s.rst.stagingAbsent = true ∨ n.toNat < 65536 ∨ 33554432 < n.toNat) :
    exec (.firmwareLoad c n) s = .next { taken c rFwCmd (hi32 n ||| 1) s with rst.fwCode := 1 } := by
  have refused : (s.rst.stagingAbsent || decide (n.toNat < 65536) || decide (33554432 < n.toNat)) = true := by
    simpa [or_assoc] using range
  rw [exec_firmwareLoad_reads g idle noPlan noLoad, if_pos refused]

/-- A staged image of the length that it gives begins to be programmed, or takes the code of the check that it fails. -/
theorem exec_firmwareLoad_checked {img : List Byte} (present : s.rst.stagingAbsent = false) (low : 65536 ≤ n.toNat) (high : n.toNat ≤ 33554432)
    (staged : stagingRead s n.toNat = .ok img) (length : u32 img 8 = n.toNat) :
    (fwCheck s.sec.slots s.sec.rollbackMin (fun k => img.take k) = 0 → exec (.firmwareLoad c n) s =
      .next { taken c rFwCmd (hi32 n ||| 1) s with rst.fwLoad := some (s.now, img), rst.fwCode := 0 }) ∧
    (∀ code, fwCheck s.sec.slots s.sec.rollbackMin (fun k => img.take k) = code → code ≠ 0 →
      ∃ u, exec (.firmwareLoad c n) s = .next u ∧ u.rst.fwCode = BitVec.ofNat 8 code ∧ u.rst.fwLoad = none ∧ u.log.flash = s.log.flash) := by
  have inRange : ¬ (s.rst.stagingAbsent || decide (n.toNat < 65536) || decide (33554432 < n.toNat)) = true := by
    simp [present]; omega
  rw [exec_firmwareLoad_reads g idle noPlan noLoad, if_neg inRange, staged]
  dsimp only [Except.toOption]
  rw [if_pos length]
  refine ⟨fun passes => congrArg _ (if_neg (by simp [passes])), fun code fails bad => ⟨_, congrArg _ (if_pos (by simpa [fails] using bad)), ?_⟩⟩
  rw [fails]
  exact ⟨rfl, noLoad, rfl⟩

end
end

/-! ### FIRMWARE_PROGRAM_DONE (R552) -/

section
variable {s : State} (run : Runs s)
include run

theorem exec_programDone_idle (idle : s.rst.fwLoad = none) (ok : Bool) : exec (.firmwareProgramDone ok) s = .next s := by
  obtain ⟨ready, -⟩ := serving_awake run.1
  refine congrArg _ ((if_neg (by simp [ready])).trans ?_)
  rw [idle]

variable {since : Nat} {img : List Byte} (loads : s.rst.fwLoad = some (since, img))
include loads

/-- An image that does not read back is no image any more. -/
theorem exec_programDone_fails : ∃ u, exec (.firmwareProgramDone false) s = .next u ∧ u.rst.fwCode = 7 ∧ u.rst.fwLoad = none ∧
    ∀ a < 0x2000000, cellGet erased u.log.flash a = erased := by
  obtain ⟨ready, -⟩ := serving_awake run.1
  have fails : exec (.firmwareProgramDone false) s = .next { spoilImage s with rst.fwLoad := none, rst.fwCode := 7 } := by
    refine congrArg _ ((if_neg (by simp [ready])).trans ?_)
    rw [loads]
    rfl
  have spoilt : (spoilImage s).log.flash = cellsClear 0 0x2000000 s.log.flash := by
    unfold spoilImage; rw [if_pos (by simp [loads])]
  exact ⟨_, fails, rfl, rfl, fun a below => (congrArg (cellGet erased · a) spoilt).trans (cellGet_clear_inside (Nat.zero_le a) (by omega))⟩

/-- The device once its flash holds an image. -/
def programmed (img : List Byte) (s : State) : State :=
  { s with rst.fwLoad := none, log.flash := cellsPut erased 0 img (cellsClear 0 0x2000000 s.log.flash) }

theorem exec_programDone_resets : exec (.firmwareProgramDone true) s = .next (warmReset 2 (fun _ _ => false) (programmed img s)) := by
  obtain ⟨ready, -⟩ := serving_awake run.1
  refine congrArg _ ((if_neg (by simp [ready])).trans ?_)
  have stays : ¬ (programmed img s).life = .recovery := by simp [programmed, ready]
  rw [loads]
  exact (if_neg (by decide)).trans (if_neg stays)

/-- An image that reads back stands in the flash from offset 0, below bytes that are as they were, and the device has been reset. -/
theorem exec_programDone_holds (still : s.haul.moves = []) (wf : Memory.wf s) (fits : img.length ≤ 0x2000000) :
    ∃ u, exec (.firmwareProgramDone true) s = .next u ∧ u.rst.fwLoad = none ∧ u.rst.lastReset = 2 ∧ u.job = {} ∧
      (∀ i < img.length, cellGet erased u.log.flash i = img.getD i 0) ∧
      ∀ a, 0x2000000 ≤ a → a < ringBase → cellGet erased u.log.flash a = cellGet erased s.log.flash a := by
  have area : 0x2000000 < ringBase := by decide
  have cleared : cellsWf erased (cellsClear 0 0x2000000 s.log.flash) = true := cellsClear_wf _ _ wf.2.1
  obtain ⟨noLoad, cause, job, flash⟩ := warmReset_leaves (s := programmed img s) (fun _ _ => false) run.2 rfl still (cellsPut_wf 0 img cleared)
  refine ⟨_, exec_programDone_resets run loads, noLoad, cause, job, fun i inImage => ?_, fun a above below => ?_⟩
  · have whole := congrArg (·.getD i 0) (cellsGet_puts 0 img cleared)
    rw [flash i (by omega), ← whole]
    simp [cellsGet, inImage, programmed]
  · rw [flash a below]
    exact (cellGet_puts_outside cleared (by omega)).trans (cellGet_clear_outside (by omega))

end

/-! ### Operating hours and the board's bus (R548, R589, R590, R592) -/

theorem exec_hoursTick (s : State) : (s.life = .ready → exec .hoursTick s = .next { s with
      log.hours := s.log.hours + 1
      log.hoursFlash := if s.log.hoursFlash + 64 ≤ s.log.hours + 1 then s.log.hours + 1 else s.log.hoursFlash }) ∧
    (s.life ≠ .ready → exec .hoursTick s = .next s) :=
  ⟨fun ready => congrArg _ (if_pos ready), fun other => congrArg _ (if_neg other)⟩

section
variable {s : State}

theorem exec_i3c_unaddressed (unaddressed : s.lands.i3cAddr = none) (bytes : List Byte) (n : Nat) :
    exec (.i3cPrivateWrite bytes) s = .next s ∧ exec (.i3cPrivateRead n) s = .next s :=
  ⟨congrArg _ (if_pos (by simp [unaddressed])), congrArg _ (if_pos (by simp [unaddressed]))⟩

section
variable (addressed : s.lands.i3cAddr ≠ none)
include addressed

theorem i3c_addressed : ¬ s.lands.i3cAddr.isNone = true := by simpa using addressed

theorem exec_i3cPrivateWrite_index (b : Byte) : exec (.i3cPrivateWrite [b]) s = .next
    (if b.toNat ∈ telemetryIndexes then { s with lands.i3cIndex := b.toNat, lands.i3cBusy := none } else { s with lands.i3cBusy := none }) := by
  refine congrArg _ ((if_neg (i3c_addressed addressed)).trans ?_)
  simp only [List.contains_iff_mem]

theorem exec_i3cPrivateWrite_none : exec (.i3cPrivateWrite []) s = .next { s with lands.i3cBusy := some s.now } :=
  congrArg _ (if_neg (i3c_addressed addressed))

theorem exec_i3cPrivateRead {n : Nat} (some' : 0 < n) : exec (.i3cPrivateRead n) s =
    .next { s with lands.i3cSent := ((telemetry s).drop s.lands.i3cIndex).take n, lands.i3cBusy := none } :=
  congrArg _ ((if_neg (i3c_addressed addressed)).trans (if_neg (by omega)))

end

theorem telemetry_fields (s : State) : (telemetry s).length = 24 ∧ (telemetry s).take 8 = toLe 8 s.dom.uid.toNat ∧
    slice (telemetry s) 0x16 2 = toLe 2 (match s.lnk.node with | some n => n.toNat | none => 0xFFFF) := by
  have node : (s.lnk.node.map (·.toNat)).getD 0xFFFF = match s.lnk.node with | some n => n.toNat | none => 0xFFFF := by
    cases s.lnk.node <;> rfl
  refine ⟨by simp [telemetry], ?_, ?_⟩
  · simp [telemetry]
  · rw [← node]
    simp [telemetry, slice, List.drop_append, List.drop_eq_nil_of_le, List.take_of_length_le]

theorem exec_i3cTimeout (s : State) : (s.lands.i3cBusy = none → exec .i3cTimeout s = .next s) ∧
    ∀ t, s.lands.i3cBusy = some t →
      (past s t 10000000 = false → exec .i3cTimeout s = .next s) ∧
      (past s t 10000000 = true → exec .i3cTimeout s = .next { s with lands.i3cBusy := none }) := by
  have waits (t : Nat) (busy : s.lands.i3cBusy = some t) : exec .i3cTimeout s =
      .next (if past s t 10000000 then { s with lands.i3cBusy := none } else s) := by
    simp only [exec, execI3cTimeout, busy]
  refine ⟨fun idle => ?_, fun t busy => ⟨fun early => ?_, fun late => ?_⟩⟩
  · simp only [exec, execI3cTimeout, idle]
  · rw [waits t busy, early]; rfl
  · rw [waits t busy, late]; rfl

theorem exec_tapInstruction (op : TapOp) (s : State) :
    (s.life = .held ∨ op = .bypass ∨ op = .idcode → exec (.tapInstruction op) s = .next { s with lands.tap := op }) ∧
    (s.life ≠ .held → op = .extest ∨ op = .sample → exec (.tapInstruction op) s = .next { s with lands.tap := .bypass }) := by
  have acts : exec (.tapInstruction op) s = .next { s with lands.tap := tapActs (s.life == .held) op } := rfl
  rw [acts]
  refine ⟨fun allowed => ?_, fun released boundary => ?_⟩
  · obtain held | rfl | rfl := allowed
    · cases op <;> simp [tapActs, held]
    · rfl
    · rfl
  · obtain rfl | rfl := boundary <;> simp [tapActs, released]

end

/-- Settles O57, for the programmed image by what the reset leaves of the flash below the ring. -/
theorem firmwareHoursAndTheBoardBus : Obligations.FirmwareHoursAndTheBoardBus := by
  refine ⟨fun c n s g => ⟨exec_firmwareLoad_job g, fun idle => ⟨exec_firmwareLoad_busy g idle, fun noPlan noLoad =>
      ⟨exec_firmwareLoad_range g idle noPlan noLoad, fun img present low high staged length =>
        exec_firmwareLoad_checked g idle noPlan noLoad present low high staged length⟩⟩⟩,
    fun since img s run loads still => ⟨exec_programDone_fails run loads, fun wf fits _ => exec_programDone_holds run loads still wf fits⟩,
    fun ok s run idle => exec_programDone_idle run idle ok, exec_hoursTick, fun a s => rfl,
    fun b n s => ⟨fun unaddressed => exec_i3c_unaddressed unaddressed [b] n, fun addressed => ⟨fun listed => ?_, fun unlisted => ?_,
      exec_i3cPrivateWrite_none addressed, exec_i3cPrivateRead addressed⟩⟩,
    telemetry_fields, exec_i3cTimeout, exec_tapInstruction⟩
  · exact (exec_i3cPrivateWrite_index addressed b).trans (congrArg _ (if_pos listed))
  · exact (exec_i3cPrivateWrite_index addressed b).trans (congrArg _ (if_neg unlisted))

end Sys2Proof.Machine
